-- ==== Sys2Proof/Word.lean ====
section
/-! DEFINITION. The machine's words, and the plain records that messages, page walks and shootdowns are written as. -/

namespace Sys2Proof

/-- One byte of a store, of HBM or of host memory. -/
abbrev Byte := BitVec 8

/-- A 64-bit register or header word (R181). -/
abbrev Word := BitVec 64

/-- One 32-bit lane of a vector register (R256). -/
abbrev Lane := BitVec 32

/-- A message with its link sideband (R146, R148).
`src` is the issuing node, `aclass` the issuer's class for the destination, `poison` a bit for each payload beat.
`tag` is the model's own name for the effect at its issuer, and `wantAck` marks a reply of a REPLY instruction, which the receiver acknowledges (R242, log 8). -/
structure Packet where
  w0 : Word
  w1 : Word
  payload : List Word := []
  poison : List Bool := []
  src : Nat := 0
  aclass : Nat := 0
  tag : Nat := 0
  wantAck : Bool := false
  /-- A recorded or absent-queue arrival that RECV has counted already (R424), or a command that its engine has accepted (R111). -/
  counted : Bool := false
  /-- Issuing context of a message or command, 15 for a record of a chain, and the INVSER of a matrix command's (R123, R289, R386; log 8). -/
  ctx : Nat := 0
  inv : Word := 0
deriving DecidableEq, Repr

/-- The unit that asked for a page walk (R102, R106, R430). -/
inductive Walker where
  | coreData (node ctx : Nat)
  | coreFetch (node ctx : Nat)
  | memCore (node slot : Nat)
  | hostPort (module : Nat)
deriving DecidableEq, Repr

/-- A page walk in flight: the table to be read next, and its level (R94).
`stale` marks a walk that began before a shootdown and fills no TLB (R107). -/
structure Walk where
  who : Walker
  job : Nat
  va : Word
  level : Nat
  table : Nat
  stale : Bool := false
deriving DecidableEq, Repr

/-- A shootdown: issuing core, job, range and scope (R107). `size` is the size code of R360. -/
structure Shootdown where
  issuer : Nat
  ctx : Nat
  job : Nat
  all : Bool
  va : Word
  size : Nat
  domain : Bool
  slot : Option Nat
  tag : Nat
deriving DecidableEq, Repr

/-- A unit that a shootdown reaches (R107). -/
inductive TlbUnit where
  | core (node : Nat)
  | cluster (node : Nat)
  | memCore (node : Nat)
  | hostPort (module : Nat)
deriving DecidableEq, Repr

/-- The transient events of Table 17-2 (R390), and a parity error in a cell of the core's matrix array (R392). -/
inductive Transient where
  | parity
  | retireEntry
  | departureQueue
  | cellParity (row col : Nat)
deriving DecidableEq, Repr

/-- What the scrubber or a read finds in a word (R42, R48). -/
inductive EccState where
  | clean
  | correctable
  | uncorrectable
deriving DecidableEq, Repr

end Sys2Proof
end

