-- ==== Sys2Proof/Config.lean ====
section
/-! DEFINITION. Values that the specification leaves open: constants without a body, so that nothing can rest on what they are. -/

namespace Sys2Proof

/-- A 64-bit value on which the specification is silent; the argument is the machine's count of such values (log 5). -/
opaque Config.openWord : Nat → Word

/-- A choice that the specification leaves to the hardware, as a number; the argument is the count of open values (log 5). -/
opaque Config.openChoice : Nat → Nat

/-- The serial number of a module (R442). -/
opaque Config.serial : Nat → BitVec 40

/-- The mark key MK of a module (R442). -/
opaque Config.markKey : Nat → List Byte

/-- The bytes in which HEALTH writes the counts and logs that it is given (R45, R48, R471; log 29). -/
opaque Config.healthBytes : List Nat → List Byte

/-- Modulus and private exponent of an RSA-3072 key of a module: key 0 is the egress signing key, key 1 the device identity (R443, R471). -/
opaque Config.rsaModulus : Nat → Nat → Nat
opaque Config.rsaPrivate : Nat → Nat → Nat

/-- SHA-256 of the egress signing public key of a module (R471). -/
opaque Config.egressKeyHash : Nat → List Byte

/-- Modulus and public exponent of the Ferdoum key, an RSA-3072 key whose SHA-256 is fused in a module (R467). -/
opaque Config.ferdoumKey : Nat → Nat × Nat

/-- The fused minimum security version of a module (R467). -/
opaque Config.minVersion : Nat → Nat

end Sys2Proof
end

