-- ==== Sys2Proof/Machine/Assoc.lean ====
section
/-! DEFINITION. Sparse maps from numbers to data: lists of pairs in rising key order. -/

namespace Sys2Proof.Machine

/-- The value that a sparse map holds for a key. -/
def aget {α : Type} : List (Nat × α) → Nat → Option α
  | [], _ => none
  | (k, v) :: r, n => if k = n then some v else aget r n

/-- The map with key n holding x. -/
def aset {α : Type} : List (Nat × α) → Nat → α → List (Nat × α)
  | [], n, x => [(n, x)]
  | (k, v) :: r, n, x => if n < k then (n, x) :: (k, v) :: r else if k = n then (n, x) :: r else (k, v) :: aset r n x

/-- The map without key n. -/
def adel {α : Type} (m : List (Nat × α)) (n : Nat) : List (Nat × α) := m.filter (fun e => e.1 != n)

/-- The value of a key, or a default. -/
def agetD {α : Type} (m : List (Nat × α)) (n : Nat) (d : α) : α := (aget m n).getD d

/-- A member put into a sorted list, before its equals. -/
def insertBy {α : Type} (le : α → α → Bool) (x : α) : List α → List α
  | [] => [x]
  | y :: r => if le x y then x :: y :: r else y :: insertBy le x r

/-- A list sorted; equals keep their order. -/
def sortBy {α : Type} (le : α → α → Bool) (l : List α) : List α := l.foldr (insertBy le) []

end Sys2Proof.Machine
end

