-- ==== Sys2Proof/Machine/Bits.lean ====
section
/-! DEFINITION. Bit fields, sign extension and byte order (R8, R11). -/

namespace Sys2Proof.Machine

/-- Bits(x, hi, lo) of R11, as a number. -/
def bits (x : Nat) (hi lo : Nat) : Nat := x / 2 ^ lo % 2 ^ (hi - lo + 1)

/-- Bit n of a number. -/
def bitAt (x n : Nat) : Bool := x / 2 ^ n % 2 == 1

/-- Field [hi:lo] of a 64-bit word. -/
def fieldOf (w : Word) (hi lo : Nat) : Nat := bits w.toNat hi lo

/-- One bit of a 64-bit word. -/
def flagOf (w : Word) (n : Nat) : Bool := bitAt w.toNat n

/-- A word with field [hi:lo] replaced by the low bits of v. -/
def putField (w : Word) (hi lo v : Nat) : Word :=
  let x := w.toNat
  .ofNat 64 (x - bits x hi lo * 2 ^ lo + v % 2 ^ (hi - lo + 1) * 2 ^ lo)

/-- SignExt(x, n) of R11, as an integer. -/
def signExt (x n : Nat) : Int :=
  let y := x % 2 ^ n
  if y < 2 ^ (n - 1) then y else (y : Int) - 2 ^ n

/-- A 64-bit two's-complement word of an integer, modulo 2^64. -/
def wordOfInt (x : Int) : Word := .ofInt 64 x

/-- A 64-bit word of a number, modulo 2^64. -/
def wordOf (n : Nat) : Word := .ofNat 64 n

/-- 1 for true, 0 for false. -/
def bitNat (b : Bool) : Nat := if b then 1 else 0

/-- The n low bytes of a number, lowest first (R8). -/
def bytesOfNat : Nat → Nat → List Byte
  | 0, _ => []
  | n + 1, x => .ofNat 8 x :: bytesOfNat n (x / 256)

/-- The number that a list of bytes holds, lowest first (R8). -/
def natOfBytes : List Byte → Nat
  | [] => 0
  | b :: r => b.toNat + 256 * natOfBytes r

/-- The eight bytes of a word (R8). -/
def bytesOfWord (w : Word) : List Byte := bytesOfNat 8 w.toNat

/-- The bytes of a list of words, in order. -/
def bytesOfWords (ws : List Word) : List Byte := ws.flatMap bytesOfWord

/-- The little-endian word at byte offset o of a list of bytes; bytes beyond the list read zero. -/
def wordAt (bs : List Byte) (o : Nat) : Word := wordOf (natOfBytes ((bs.drop o).take 8))

/-- The little-endian number of n bytes at offset o of a list of bytes. -/
def numAt (bs : List Byte) (o n : Nat) : Nat := natOfBytes ((bs.drop o).take n)

/-- The first n words of a list of bytes. -/
def wordsOf (bs : List Byte) : Nat → List Word
  | 0 => []
  | n + 1 => wordAt bs 0 :: wordsOf (bs.drop 8) n

/-- A list cut or filled with x to n members. -/
def fit {α : Type} (n : Nat) (x : α) (l : List α) : List α := l.take n ++ List.replicate (n - l.length) x

/-- The positions of the set bits of the n low bits of a number, ascending. -/
def setBits (x n : Nat) : List Nat := (List.range n).filter (bitAt x)

/-- Count of set bits among the n low bits. -/
def popCount (x n : Nat) : Nat := (setBits x n).length

/-- The lowest set bit among the n low bits, or n. -/
def lowestBit (x n : Nat) : Nat := (setBits x n).headD n

/-- The number with a set bit at each listed position. -/
def maskOf (l : List Nat) : Nat := l.foldl (fun a k => a ||| 2 ^ k) 0

/-- x is newer than y in the 16-bit version window (R128). -/
def newer (x y : Nat) : Bool :=
  let d := (x + 65536 - y) % 65536
  1 ≤ d && d ≤ 32767

/-- x is older than y in the 16-bit version window (R128). -/
def older (x y : Nat) : Bool := x != y && !newer x y

end Sys2Proof.Machine
end

