-- ==== Sys2Proof/Machine/Event.lean ====
section
/-! DEFINITION. The steps of the device as things that can be due: one constructor for each event row of the opcode table (log 3). -/

namespace Sys2Proof.Machine

/-- A step of the device that is due, named as its constructor of Instr is. -/
inductive Event where
  /-- BLOCK_ENTRY (R174). -/
  | blockEntry (node ctx : Nat)
  /-- BLOCK_COMMIT (R177). -/
  | blockCommit (node ctx : Nat)
  /-- PARKING_FAULT (R384). -/
  | parkingFault (node ctx cause : Nat) (addr info : Word)
  /-- VST_RESERVATION (R130). -/
  | vstReservation (node ctx : Nat)
  /-- INVOCATION_COMMIT (R117). -/
  | invocationCommit (node ctx : Nat)
  /-- TUMBLER_FIRE (R40). -/
  | tumblerFire (quad index : Nat)
  /-- DEPARTURE (R117). -/
  | departure (node : Nat)
  /-- HANDLER_MESSAGE_ARRIVAL (R157). -/
  | handlerMessageArrival (m : Packet)
  /-- MATCH_OVERFLOW_MOVE (R159). -/
  | matchOverflowMove (node : Nat)
  /-- SPILL_REFILL (R164). -/
  | spillRefill (node pri : Nat)
  /-- DISPATCH (R165). -/
  | dispatch (node : Nat)
  /-- REPLY_SLOT_FILL (R162). -/
  | replySlotFill (m : Packet)
  /-- ACKNOWLEDGEMENT (R162). -/
  | acknowledgement (m : Packet)
  /-- KEY_SET_REPLY (R162). -/
  | keySetReply (m : Packet)
  /-- BOLT_ARRIVAL (R394). -/
  | boltArrival (m : Packet)
  /-- REMOTE_READ (R229). -/
  | remoteRead (m : Packet)
  /-- REMOTE_WRITE (R229). -/
  | remoteWrite (m : Packet)
  /-- REMOTE_ATOMIC_ADD (R228). -/
  | remoteAtomicAdd (m : Packet)
  /-- REMOTE_ATOMIC_AND (R228). -/
  | remoteAtomicAnd (m : Packet)
  /-- REMOTE_ATOMIC_OR (R228). -/
  | remoteAtomicOr (m : Packet)
  /-- REMOTE_ATOMIC_XOR (R228). -/
  | remoteAtomicXor (m : Packet)
  /-- REMOTE_ATOMIC_MIN (R228). -/
  | remoteAtomicMin (m : Packet)
  /-- REMOTE_ATOMIC_MAX (R228). -/
  | remoteAtomicMax (m : Packet)
  /-- REMOTE_ATOMIC_MINN (R228). -/
  | remoteAtomicMinn (m : Packet)
  /-- REMOTE_ATOMIC_MAXN (R228). -/
  | remoteAtomicMaxn (m : Packet)
  /-- REMOTE_ATOMIC_SWAP (R228). -/
  | remoteAtomicSwap (m : Packet)
  /-- REMOTE_ATOMIC_CAS (R228). -/
  | remoteAtomicCas (m : Packet)
  /-- VERSIONED_READ (R129). -/
  | versionedRead (m : Packet)
  /-- VERSIONED_WRITE (R130). -/
  | versionedWrite (m : Packet)
  /-- VERSION_RETIRE (R131). -/
  | versionRetire (m : Packet)
  /-- TUMBLER_INCREMENT (R167). -/
  | tumblerIncrement (m : Packet)
  /-- TUMBLER_DECREMENT (R167). -/
  | tumblerDecrement (m : Packet)
  /-- TUMBLER_ARM (R249). -/
  | tumblerArm (m : Packet)
  /-- TUMBLER_READ (R250). -/
  | tumblerRead (m : Packet)
  /-- COPY (R233). -/
  | copy (m : Packet)
  /-- COPY_BEAT (R233). -/
  | copyBeat (m : Packet)
  /-- REFUSED_OPERATION (R150). -/
  | refusedOperation (m : Packet)
  /-- GO (R56). -/
  | go (m : Packet)
  /-- EXT (R61). -/
  | ext (m : Packet)
  /-- STOP (R65). -/
  | stop (m : Packet)
  /-- RESUME (R64). -/
  | resume (m : Packet)
  /-- PULL (R71). -/
  | pull (m : Packet)
  /-- INVALID_STREAM_COMMAND (R51). -/
  | invalidStreamCommand (m : Packet)
  /-- STREAM_REQUEST_ISSUE (R50). -/
  | streamRequestIssue (node : Nat)
  /-- LOADER_BEAT_WRITE (R57). -/
  | loaderBeatWrite (node slot : Nat)
  /-- STORER_WRITE (R58). -/
  | storerWrite (node slot : Nat)
  /-- STRM_GO_RESEND (R353). -/
  | strmGoResend (node : Nat) (m : Packet)
  /-- PAGE_WALK_READ (R94). -/
  | pageWalkRead (w : Walk)
  /-- TLBI_RECEIVE (R107). -/
  | tlbiReceive (unit : TlbUnit) (t : Shootdown)
  /-- TLBI_COMPLETE (R107). -/
  | tlbiComplete (t : Shootdown)
  /-- PUSH (R68). -/
  | push (m : Packet)
  /-- POP (R68). -/
  | pop (m : Packet)
  /-- LEN (R68). -/
  | len (m : Packet)
  /-- CREATE (R68). -/
  | create (m : Packet)
  /-- DESTROY (R68). -/
  | destroy (m : Packet)
  /-- INVALID_QUEUE_COMMAND (R68). -/
  | invalidQueueCommand (m : Packet)
  /-- LEASE_REQUEST (R300). -/
  | leaseRequest (m : Packet)
  /-- LEASE_GRANT (R285). -/
  | leaseGrant (cluster : Nat)
  /-- LEASE_IDLE_TIMEOUT (R286). -/
  | leaseIdleTimeout (cluster stamp : Nat)
  /-- ARRAY_CTX (R302). -/
  | arrayCtx (m : Packet)
  /-- ARRAY_PANEL (R291). -/
  | arrayPanel (m : Packet)
  /-- ARRAY_ZERO (R304). -/
  | arrayZero (m : Packet)
  /-- ARRAY_RUN (R293). -/
  | arrayRun (m : Packet)
  /-- ARRAY_DRAIN (R295). -/
  | arrayDrain (m : Packet)
  /-- ARRAY_RAW (R306). -/
  | arrayRaw (m : Packet)
  /-- ARRAY_SORT (R296). -/
  | arraySort (m : Packet)
  /-- ARRAY_REL (R286). -/
  | arrayRel (m : Packet)
  /-- CUSTOM_OPCODE_RESULT (R316). -/
  | customOpcodeResult (node : Nat)
  /-- LATTICE_INSTRUCTION_PERFORM (R339). -/
  | latticeInstructionPerform (node : Nat)
  /-- LATTICE_CLOCK_TICK (R333). -/
  | latticeClockTick (node : Nat)
  /-- BUDGET_EXPIRY (R376). -/
  | budgetExpiry (node ctx : Nat)
  /-- YIELD_INTERVAL_END (R206). -/
  | yieldIntervalEnd (node ctx : Nat)
  /-- SYSTEM_ENTRY_TAKE (R387). -/
  | systemEntryTake (node : Nat)
  /-- TRANSIENT_EVENT (R390). -/
  | transientEvent (node ctx : Nat) (kind : Transient)
  /-- SCRUB (R45). -/
  | scrub (addr : Nat) (found reread : EccState)
  /-- PLACEMENT (R368). -/
  | placement (module : Nat)
  /-- INITIAL_MESSAGE_RELEASE (R370). -/
  | initialMessageRelease (module job : Nat)
  /-- TRIGGER_COUNT (R139). -/
  | triggerCount (m : Packet)
  /-- END_OF_JOB_SWEEP (R381). -/
  | endOfJobSweep (module job : Nat)
  /-- CORE_SAVE (R397). -/
  | coreSave (node : Nat)
  /-- ABSENT_QUEUE_REPLAY (R405). -/
  | absentQueueReplay (die job : Nat)
  /-- CMDTAIL_WRITE (R431). -/
  | cmdtailWrite (module : Nat) (tail : BitVec 32)
  /-- INJTAIL_WRITE (R434). -/
  | injtailWrite (module : Nat) (tail : BitVec 32)
  /-- BAR0_REGISTER_WRITE (R428). -/
  | bar0RegisterWrite (module offset : Nat) (value : Word)
  /-- APERTURE_READ (R430). -/
  | apertureRead (module offset size : Nat)
  /-- APERTURE_WRITE (R430). -/
  | apertureWrite (module offset : Nat) (data : List Byte)
  /-- HOST_PORT_RECEIVE (R435). -/
  | hostPortReceive (m : Packet)
  /-- UNMARKED_MANIFEST_SIGN (R444). -/
  | unmarkedManifestSign (module : Nat)
  /-- LAUNCH (R433). -/
  | launch (module : Nat) (cmd : List Word)
  /-- PREEMPT (R395). -/
  | preempt (module : Nat) (cmd : List Word)
  /-- CANCEL (R400). -/
  | cancel (module : Nat) (cmd : List Word)
  /-- RESTORE (R404). -/
  | restore (module : Nat) (cmd : List Word)
  /-- KILL (R432). -/
  | kill (module : Nat) (cmd : List Word)
  /-- UNKNOWN_HOST_COMMAND (R432). -/
  | unknownHostCommand (module : Nat) (cmd : List Word)
  /-- LOADFW (R469). -/
  | loadfw (module : Nat) (cmd : List Word)
  /-- SWAP (R470). -/
  | swap (module : Nat) (cmd : List Word)
  /-- ATTEST (R471). -/
  | attest (module : Nat) (cmd : List Word)
  /-- SERVICE_FENCE (R472). -/
  | serviceFence (module : Nat) (cmd : List Word)
  /-- UNFENCE (R469). -/
  | unfence (module : Nat) (cmd : List Word)
  /-- RECAL (R473). -/
  | recal (module : Nat) (cmd : List Word)
  /-- RECAL_SCHEDULE (R473). -/
  | recalSchedule (module stack : Nat)
  /-- HEALTH (R471). -/
  | health (module : Nat) (cmd : List Word)
  /-- TRACEOUT (R471). -/
  | traceout (module : Nat) (cmd : List Word)
  /-- SEAL_OPEN_PERFORM (R362). -/
  | sealOpenPerform (m : Packet)
  /-- SEAL_FRAME_PERFORM (R441). -/
  | sealFramePerform (m : Packet)
  /-- SEAL_CLOSE_PERFORM (R443). -/
  | sealClosePerform (m : Packet)
  /-- COLLECTIVE_PERFORM (R439). -/
  | collectivePerform (m : Packet)
  /-- LINK_RETRY (R436). -/
  | linkRetry (module port lane : Nat)
  /-- SKEW_MEASUREMENT (R447). -/
  | skewMeasurement (module die : Nat)
  /-- REPLAY_TIMEOUT (R463). -/
  | replayTimeout (node stamp : Nat)
  /-- POWER_UP (R468). -/
  | powerUp (module : Nat)
  /-- FUNCTION_LEVEL_RESET (R427). -/
  | functionLevelReset (module : Nat)
  /-- THROTTLE (R474). -/
  | throttle (module : Nat) (on : Bool)
  /-- OVER_TEMPERATURE (R474). -/
  | overTemperature (module die : Nat)
  /-- STACK_RECALIBRATION_PAUSE_END (R473). -/
  | stackRecalibrationPauseEnd (module stack : Nat)
  /-- SYSTEM_CONTEXT_RELEASE (R388). -/
  | systemContextRelease (node : Nat) (abandon : Bool)
  /-- DIES_BELOW_95C (R474). -/
  | diesBelow95c (module : Nat)
deriving DecidableEq, Repr

end Sys2Proof.Machine
end

