-- ==== Sys2Proof/Machine/State.lean ====
section
/-! DEFINITION. The state of the machine as plain data, the reasons a step can stop, and the state after reset. -/

namespace Sys2Proof.Machine

/-- Reasons for which the machine stops with a fault.
The specification gives every fault of this hardware an effect, so no meaning raises one of these on an instruction word. -/
inductive Fault where
  /-- A state outside the machine: a walk names a memory that no unit holds. Raised by no meaning; safe. -/
  | outsideMachine
deriving DecidableEq, Repr

/-- Reasons for which an instruction has no meaning here. -/
inductive Refusal where
  /-- The instruction is not modelled yet. Raised only by arms of exec; safe. -/
  | notModelled (mnemonic : String)
deriving DecidableEq, Repr

/-- The state of a g or v register (R182), with the marks that a reply can leave (R35, R129) and the two self-waits (R120, R352). -/
inductive RegState where
  | full
  | empty
  /-- Empty, with the result of an AMO, RAMO, QPOP or other buffered request of this commit interval (R120). -/
  | awaitCommit
  /-- Empty, with the result of a STRM.GO of the open block (R352). -/
  | awaitBlock
  | poisoned
  /-- Poisoned by a refused access (R35). -/
  | refused
  | retired
  /-- Marked by a FormatFault reply (R129). -/
  | malformed
deriving DecidableEq, Repr

/-- A g register (R181). -/
structure Reg where
  val : Word := 0
  st : RegState := .full
deriving DecidableEq, Repr

/-- A v register (R181, R256). -/
structure VReg where
  lanes : Vector Lane 32 := Vector.replicate 32 0
  st : RegState := .full
deriving DecidableEq, Repr

/-- The registers that a block works on and a discard restores (R178, R181, R259). -/
structure Regs where
  g : Vector Reg 32 := Vector.replicate 32 {}
  v : Vector VReg 16 := Vector.replicate 16 {}
  /-- p0 to p7; bit 0 is not read, since p0 reads true. -/
  p : BitVec 8 := 0
  q : Vector Lane 8 := Vector.replicate 8 0
  /-- FPFLAGS: NV, DZ, OF, UF, NX from bit 4 down (Table 15-5). -/
  flags : BitVec 5 := 0
deriving DecidableEq, Repr

/-- What is done with the answer to a request (R162, R241, R246, R352). -/
inductive Answer where
  /-- RLD: size code and sign extension (R230). -/
  | load (size : Nat) (signed : Bool)
  /-- RAMO: size code (R232). -/
  | atomic (size : Nat)
  /-- VLD (R129). -/
  | version
  /-- TRD of another quad (R250). -/
  | tumbler
  /-- SEND.r (R241). -/
  | message
  /-- An engine's reply beat (R352). -/
  | engine
  /-- A store, atomic, version write, retirement, copy or tumbler update without a result: OP, and address for a notice (R35, R43, R235). -/
  | effect (op : Nat) (addr : Word)
  /-- SPAWN (R244). -/
  | spawn
  /-- QPUSH, with its handle (R245). -/
  | push (handle : Word)
  /-- QPOP, with its landing area (R246). -/
  | pop (landing : Nat)
  | popFwd
  | popLen
  /-- STRM.GO: key, .nb, the memory core and the descriptor to send again (R353). -/
  | streamGo (key : Nat) (nb : Bool) (m : Packet)
  /-- COL.RED and COL.BC: key (R355). -/
  | collective (key : Nat)
  /-- MX.LEASE (R300). -/
  | lease (nb : Bool)
  /-- A matrix command, with its slot's notice rules (R294). -/
  | matrix
  /-- MX.RAW.cell and MX.RAW.stat (R306). -/
  | raw (stat : Bool)
  /-- TLBI (R360). -/
  | shootdown
deriving DecidableEq, Repr

/-- A reserved reply slot (R162): the g register it fills, its request's name, and its marks. -/
structure SlotUse where
  reg : Nat
  answer : Answer
  tag : Nat
  /-- The reply is dropped on arrival (R178, R204). -/
  dropped : Bool := false
  /-- Reserved by the open block (R182). -/
  inBlock : Bool := true
  /-- The request has left the core (R116, R117). -/
  sent : Bool := false
deriving DecidableEq, Repr

/-- A buffered access to memory by virtual address, or to a version cell of the own quad (R103, R229). -/
structure MemEffect where
  /-- OP of Table 10-3. -/
  op : Nat
  /-- Virtual address, or local address of a version cell. -/
  addr : Word
  /-- The address is virtual. -/
  virt : Bool
  /-- FPFLAGS at issue, which the header carries in XF (R149). -/
  xf : BitVec 5 := 0
  /-- Physical address as translated at issue (R103). -/
  pa : Nat
  /-- Size code of word 1 [7:6]. -/
  size : Nat
  payload : List Word
  opcode : Nat
  slot : Option Nat := none
  /-- Release scope of a VST: 0 .q, 1 .m, 2 .d (R235). -/
  scope : Option Nat := none
  /-- Marked by a shootdown for retranslation (R107). -/
  marked : Bool := false
  /-- The name of the reservation that a VST holds (R130). -/
  reservation : Option Nat := none
  /-- The job under which it was translated (R101). -/
  job : Nat := 0
deriving DecidableEq, Repr

/-- One piece of an RCPY that crosses no page: source and destination physical addresses and length (R233). -/
structure Piece where
  src : Nat
  dst : Nat
  len : Nat
deriving DecidableEq, Repr

/-- A buffered effect of the retire buffer, or an entry of the departure queue (R113, R117). -/
inductive Effect where
  /-- Local writes, in the order in which the drain performs them (R224 to R227). -/
  | store (chunks : List (Nat × List Byte)) (entries : Nat)
  /-- AMO: local address, operation, size code, operand, expected value, destination (R228). -/
  | amo (la op size : Nat) (b expect : Word) (d : Nat)
  /-- A tumbler operation on the own quad: OP of Table 10-3, index, amount or TARM word (R248, R249). -/
  | tumbler (op index : Nat) (arg : Word)
  | mem (e : MemEffect)
  /-- RCPY (R233). -/
  | copy (dst src : Word) (len : Nat) (pieces : List Piece) (marked : Bool) (job : Nat) (xf : BitVec 5)
  /-- A message, reply, task-queue command, tumbler operation on another quad or engine command (R239 to R248). -/
  | msg (m : Packet) (slot : Option Nat) (answer : Answer) (scope : Option Nat)
  | fence (scope : Nat)
  | qfence (mask : Nat)
  | tlbi (t : Shootdown)
  | keyf (mask : Word)
  /-- A bolt of a hinge commit or save (R394). -/
  | bolt (m : Packet)
deriving DecidableEq, Repr

/-- The exit that a block has taken (R176, R202). -/
inductive Exit where
  | done
  | target (addr : Word) (link : Bool)
deriving DecidableEq, Repr

/-- A TRAP, BKPT or watchpoint match that parks the context after its block's commit (R207, R457). -/
structure SoftTrap where
  cause : Nat
  addr : Word
  info : Word
deriving DecidableEq, Repr

/-- An effect of a system instruction at its block's commit (R356, R359, R364, R365, R325). -/
inductive AtCommit where
  | mts (reg : Nat) (val : Word)
  | tresume (ctx : Nat)
  | tkill (ctx : Nat)
  /-- TRETRY: the target core's node where the entry moves, and the status that was given. -/
  | tretry (ctx : Nat) (target : Option Nat) (status : Nat)
  | resumeHead (pri : Nat)
  | killHead (pri : Nat)
  | traceControl (w : Word)
  | traceMark (val : Word) (code : Nat)
  | watch (n : Nat) (addr ctl : Word)
deriving DecidableEq, Repr

/-- A watchpoint (R365). -/
structure Watchpoint where
  addr : Word := 0
  ctl : Word := 0
deriving DecidableEq, Repr

/-- A match of a watchpoint in the open block (R456). -/
structure WatchHit where
  watch : Nat
  write : Bool
  addr : Word
  opcode : Nat
deriving DecidableEq, Repr

/-- How a lattice image transfer that a block waits for stands (R348). -/
inductive Transfer where
  | waiting
  | done
  | failed (cause : Nat) (addr info : Option Word)
deriving DecidableEq, Repr

/-- A block that is entered and not yet committed (R173 to R178). -/
structure OpenBlock where
  header : Nat
  words : List (BitVec 32)
  /-- The first word that has not issued, the words after it that have, and the word that a slot has selected (R175). -/
  pos : Nat := 0
  ahead : List Nat := []
  cursor : Nat := 0
  /-- The registers at block entry (R178). -/
  entry : Regs := {}
  effects : List Effect := []
  /-- Immediate requests, sent at the commit (R113). -/
  requests : List Packet := []
  /-- Keys that the block allocated, with the KEYRING bit each had (R252). -/
  keys : List (Nat × Bool) := []
  taken : Option Exit := none
  /-- Number of the exit taken (R451). -/
  exit : Nat := 0
  commit : Bool := false
  /-- Argument of the last YIELD (R206). -/
  yield : Option Nat := none
  trap : Option SoftTrap := none
  acts : List AtCommit := []
  hits : List WatchHit := []
  /-- A lattice image transfer of the next instruction, with its name in the lattice queue (R339, R348). -/
  transfer : Option (Nat × Transfer) := none
  /-- Counted matrix commands that the block has issued (R287). -/
  counted : Nat := 0
  /-- Exception flags that the block has raised (R260). -/
  raised : BitVec 5 := 0
  /-- FPMODE at the block's entry (R258). -/
  fpmode : BitVec 8 := 0
  /-- The watchpoints and the trace control that govern it: those at the issue of its first instruction (R458). -/
  watch : Vector Watchpoint 4 := Vector.replicate 4 {}
  traceCtl : Word := 0
deriving DecidableEq, Repr

/-- The state of a handler or system context (Table 7-5). -/
inductive CtxState where
  | free
  | live
  | parked
  | draining
deriving DecidableEq, Repr

/-- The trap registers (R357). -/
structure TrapRegs where
  cause : Word := 0
  addr : Word := 0
  blk : Word := 0
  info : Word := 0
deriving DecidableEq, Repr

/-- An entry of a handler queue: a plain message or a match, input 0 first (R164). -/
structure QEntry where
  inputs : List Packet
  /-- Head handler index of Table 7-4. -/
  head : Nat
  /-- The orphan entry runs it (R160). -/
  orphan : Bool := false
  /-- First tag and length of the matched run (R155, R158). -/
  tag : Nat := 0
  run : Nat := 1
  /-- Moves by TRETRY so far (R359). -/
  retries : Nat := 0
  /-- Its handler entry was poisoned on arrival (Table 2-8). -/
  unrouted : Bool := false
  stamp : Nat := 0
  /-- Clk of its arrival (R454). -/
  since : Nat := 0
  /-- A popped program task (R247). -/
  task : Bool := false
  /-- The poison of its handler-table entry has paused dispatch at its priority (Table 2-8, R359). -/
  stuck : Bool := false
deriving DecidableEq, Repr

/-- What a context's invocation was dispatched from (R155, R166). -/
structure Invocation where
  entry : QEntry
  handler : Nat
  /-- Its entry block is not entered yet (R179). -/
  fresh : Bool := true
  arity : Nat := 0
  /-- The BUDGET field of its handler, in clk (R376). -/
  budget : Nat := 0
  /-- A number of its entry in the replay log (R461). -/
  logged : Option Nat := none
  hinge : Bool := false
  source : Bool := false
  retry : Nat := 0
  /-- Its dispatching message is consumed: it has passed a commit (R117, R119). -/
  consumed : Bool := false
  /-- It has committed its DONE (R207). -/
  finished : Bool := false
  /-- It handles an entry of the system queue that is no message (R219). -/
  keyless : Bool := false
deriving DecidableEq, Repr

/-- A translation that a context waits for, or the fault that its walk ended in (R102, R104). -/
inductive Miss where
  | walking (job : Nat) (va : Word)
  | failed (job : Nat) (va : Word) (cause level : Nat) (poison : Bool)
deriving DecidableEq, Repr

/-- A commit that waits for its turn (R117). -/
structure Commit where
  done : Bool
  /-- Header of the block that holds the DONE or COMMIT (R108). -/
  block : Nat
  /-- Where the invocation goes on, and the TRAP or BKPT that acts then (R205, R207). -/
  next : Nat
  trap : Option SoftTrap := none
  /-- The trace control that governs its block (R458). -/
  traceCtl : Word := 0
  /-- A reservation was sent to the cell of each VST, in program order (R130). -/
  reserved : Bool := false
  /-- A fault that a reservation found: cause and cell address (R235). -/
  failed : Option (Nat × Word) := none
deriving DecidableEq, Repr

/-- The hasp of a context (R287, Table 12-5). -/
inductive Hasp where
  | none
  | requested
  | held
  | lost
deriving DecidableEq, Repr

/-- A handler context, or the system context (R154, R181, R357). -/
structure Ctx where
  status : CtxState := .free
  regs : Regs := {}
  pc : Nat := 0
  block : Option OpenBlock := none
  retire : List Effect := []
  trap : TrapRegs := {}
  jobid : Nat := 0
  fpmode : BitVec 8 := 0
  invser : Word := 0
  budgetLeft : Nat := 0
  budgetOn : Bool := false
  slots : List (Nat × SlotUse) := []
  /-- Keys allocated since the last commit (R251). -/
  held : List Nat := []
  hasp : Hasp := .none
  haspCnt : Nat := 0
  /-- A matrix report that waits for the next MX instruction: its TRAPINFO (Table 12-4). -/
  report : Option Word := none
  /-- Clk in which the context's yield interval ends, and whether it then ranks last (R206). -/
  yieldEnd : Option Nat := none
  rankLast : Bool := false
  invocation : Option Invocation := none
  commit : Option Commit := none
  miss : Option Miss := none
  /-- Reply slots of VLDs that hold later immediate reads (R129). -/
  acquire : List Nat := []
  /-- Custom opcodes of the context whose results have not arrived (R317). -/
  results : Nat := 0
  /-- Parity errors of the invocation, by block (R390). -/
  parity : List (Nat × Nat) := []
deriving DecidableEq, Repr

/-- Allocation of a key (R251). -/
inductive KeyAlloc where
  | free
  | held
  | owned
deriving DecidableEq, Repr

/-- A key of a core (R251, R253). -/
structure Key where
  /-- Its KEYRING bit. -/
  bit : Bool := false
  alloc : KeyAlloc := .free
  owner : BitVec 4 := 0xF
  /-- Commands that have left the core and whose key-set replies are to come: the key is In flight while there is one (R251). -/
  flight : Nat := 0
  /-- It is freed when its key-set reply arrives (R114, R253). -/
  freeOnSet : Bool := false
deriving DecidableEq, Repr

/-- A request that has left the core and is not yet answered, or not yet performed (R111, R124, R125). -/
structure Pending where
  tag : Nat
  ctx : Nat
  /-- Class of the destination: 0 own quad, 1 own module, 2 another module (R148). -/
  aclass : Nat
  /-- Endpoint class of a command (R124). -/
  engine : Option Nat := none
  answer : Answer
  addr : Word := 0
  /-- The job under which its address was translated (R107). -/
  job : Option Nat := none
  acked : Bool := false
  performed : Bool := false
  /-- An immediate read: no release waits for it (R126). -/
  read : Bool := false
  /-- Answers still to come, and the first STATUS that was not 0: an RCPY has one for each piece (R233). -/
  left : Nat := 1
  worst : Nat := 0
  /-- Destination nodes of an RCPY, which no later effect may reach before it (R121). -/
  copyTo : List Nat := []
deriving DecidableEq, Repr

/-- A waiting entry of the matching store, or an end-of-stream marker (R158, R160). -/
structure Waiting where
  head : Nat
  input : Nat
  msg : Packet
  /-- First tag and length of its run. -/
  tag : Nat
  run : Nat
  stamp : Nat
  marker : Bool := false
  /-- Clk at which it began to wait (R454). -/
  since : Nat := 0
deriving DecidableEq, Repr

/-- An entry of the system queue (R156, R384). -/
inductive SysEntry where
  /-- The trap of a parked context, on this core or on a fenced one (R391). -/
  | trap (node ctx : Nat)
  /-- A notice, with the inputs of a bad-handler or scaled-mismatch trap (R386, R358). -/
  | notice (cause ctx : Nat) (addr info : Word) (inputs : List Packet)
  | message (m : Packet)
deriving DecidableEq, Repr

/-- An entry of a TLB (R99). -/
structure TlbEntry where
  job : Nat
  /-- First virtual address of the page. -/
  base : Nat
  /-- Level of the leaf, 0 to 3: pages of 4 GiB, 256 MiB, 2 MiB and 64 KiB. -/
  level : Nat
  pte : Word
deriving DecidableEq, Repr

/-- An arrival that is recorded and not performed (R398). -/
structure Recorded where
  msg : Packet
  channel : Nat
deriving DecidableEq, Repr

/-- The marks of hinge pre-emption at a core (R394 to R398, Table 15-6). -/
structure HingeState where
  arm : Bool := false
  src : Bool := false
  saved : Bool := false
  landed : Bool := false
  /-- Incoming channels whose bolt has arrived. -/
  closed : List Nat := []
  /-- Outgoing channels that have carried a bolt since arming. -/
  bolted : List Nat := []
  recorded : List Recorded := []
deriving DecidableEq, Repr

/-- The handler queues and matching store of a core (R157 to R166). -/
structure CoreQueues where
  depth : Vector Nat 4 := Vector.replicate 4 0
  queue : Vector (List QEntry) 4 := Vector.replicate 4 []
  /-- Spill lists at the base die (R164). -/
  spill : Vector (List QEntry) 4 := Vector.replicate 4 []
  /-- A refill is in flight (R164). -/
  refill : Vector (Option QEntry) 4 := Vector.replicate 4 none
  /-- Entries that TRETRY has moved here and that wait for room in the queue region (R70, R164, R359). -/
  moved : List QEntry := []
  /-- Dispatch is paused by handler-entry poison (Table 2-8). -/
  paused : Vector Bool 4 := Vector.replicate 4 false
  store : List Waiting := []
  /-- The match-overflow list at the base die (R159). -/
  overflow : List Waiting := []
  age : Nat := 0
  stamp : Nat := 0
deriving DecidableEq, Repr

/-- The debug and replay state of a core (R364, R365, R449, R452, R454, R459). -/
structure CoreDebug where
  traceCtl : Word := 0
  /-- Records that wait for the trace unit, 32 bytes each (R452). -/
  traceBuf : List (List Word) := []
  traceLost : Nat := 0
  watch : Vector Watchpoint 4 := Vector.replicate 4 {}
  /-- Wait-time histogram buckets by handler index × 16 + bucket (R454). -/
  hist : List (Nat × Nat) := []
  replayctl : Word := 0
  /-- Position in the replay log, and the clk at which the replay began to wait (R462, R463). -/
  replayPos : Nat := 0
  replayWait : Option Nat := none
deriving DecidableEq, Repr

/-! The integrator lattice (R329 to R347). -/

/-- What a result of the patch or the lattice fills: the context, and whether its block is still open or the result is dropped (R178, R316, R339). -/
structure Awaited where
  ctx : Nat
  inBlock : Bool := true
  dropped : Bool := false
deriving DecidableEq, Repr

/-- A lattice cell: its state of R329 and its network entry (Table 14-4). Increments are -1, 0 and 1; a latch that holds nothing holds 0. -/
structure LatCell where
  y : BitVec 32 := 0
  q : Nat := 0
  z : BitVec 32 := 0
  dz : Int := 0
  latch : Vector Int 5 := Vector.replicate 5 0
  net : Word := 0
deriving DecidableEq, Repr

/-- A step clock (R332); `divm` is DIV - 1. -/
structure LatClock where
  instr : Bool := false
  run : Bool := false
  divm : Nat := 0
  ph : Nat := 0
  tk : Nat := 0
deriving DecidableEq, Repr

/-- An injection register (R335). -/
structure LatInj where
  n : Int := 0
  clk : Nat := 0
  dl : Int := 0
deriving DecidableEq, Repr

/-- An instruction in the lattice queue (R339). -/
structure LatOp where
  /-- Its name in the queue. -/
  id : Nat
  op : Nat
  a : Word := 0
  b : Word := 0
  /-- Field f of LAT.SET, LAT.GET and LAT.RDV, and 1 for LAT.STAT.clr. -/
  f : Nat := 0
  /-- The register that takes the result. -/
  reg : Nat := 0
  dest : Awaited
  /-- Clk of its issue. -/
  issued : Nat
  /-- Ticks of a LAT.STEP, or clk of a transfer, still to come. -/
  left : Nat := 0
  /-- A transfer has done its work and holds the lattice (R339). -/
  started : Bool := false
deriving DecidableEq, Repr

/-- The lattice of a core (R329 to R337). -/
structure Lattice where
  /-- Width code: 0, 1, 2 for 16, 24, 32 (Table 14-2). -/
  wsel : Nat := 0
  /-- Cells that are not all zero. -/
  cells : List (Nat × LatCell) := []
  clocks : Vector LatClock 4 := Vector.replicate 4 {}
  inj : Vector LatInj 8 := Vector.replicate 8 {}
  isat : Bool := false
  fc : Nat := 0
  fcell : Nat := 0
  fclk : Nat := 0
  fsrc : Nat := 0
  ftk : Nat := 0
  queue : List LatOp := []
  nextId : Nat := 0
  /-- Clk of the last fault: nothing more is performed in it (R336). -/
  faultAt : Option Nat := none
  fenced : Bool := false
deriving DecidableEq, Repr

/-! The patch (R308 to R318). -/

/-- A residency slot: the words of its graph image, and ROT. -/
structure PatchSlot where
  image : Option (List Word) := none
  rot : Nat := 0
deriving DecidableEq, Repr

/-- A carried bank, with the clk in which the last write to each lane is performed (R315). -/
structure PatchBank where
  lanes : Vector Lane 32 := Vector.replicate 32 0
  tag : Nat := 0
  ready : Vector Nat 32 := Vector.replicate 32 0
deriving DecidableEq, Repr

/-- The results of a custom opcode that are still to be written (R316). -/
structure PatchResult where
  /-- Clk of the write. -/
  due : Nat
  use : Awaited
  d : Nat
  first : Vector Lane 32
  second : Option (Vector Lane 32)
  flags : BitVec 5
  enabled : BitVec 5
  header : Nat
  serial : Word
deriving DecidableEq, Repr

/-- The patch of a core; OPMAP stands among the core's registers. Banks by 8 × node + bank. -/
structure Patch where
  slots : Vector PatchSlot 4 := Vector.replicate 4 {}
  banks : List (Nat × PatchBank) := []
  /-- Clk in which the last beat entered (R315). -/
  last : Option Nat := none
  results : List PatchResult := []
  fenced : Bool := false
deriving DecidableEq, Repr

/-- A core (R1, R154, R357). -/
structure Core where
  ctxs : Vector Ctx 11 := Vector.replicate 11 {}
  keys : Vector Key 64 := Vector.replicate 64 {}
  plbase : Word := 0
  wkdesc : Word := 0
  /-- FPFIRST (Table 11-2). -/
  fpfirst : Word := 0
  /-- OPMAP (Table 13-5), and the address of the job's opcode-map image (R309). -/
  opmap : Word := 0
  opmapAddr : Nat := 0
  /-- FLG of MXSTAT (Table 12-5). -/
  mxflags : BitVec 5 := 0
  q : CoreQueues := {}
  sent : Nat := 0
  recv : Nat := 0
  serial : Word := 0
  sysq : List SysEntry := []
  /-- Notices and records of the core's own units that wait for one of the 22 ordinary entries of the system queue, in order (R156, R388; log 93). -/
  sysHeld : List SysEntry := []
  departure : List (Nat × Effect) := []
  pending : List Pending := []
  nextTag : Nat := 1
  /-- Counters 0 to 9 of Table 15-9; 5 and 6 hold what the cluster's and the quad's counts were at the job's load (R366). -/
  counters : Vector Nat 10 := Vector.replicate 10 0
  /-- A context waited on an empty register in this clk (counter 3). -/
  emptyWait : Bool := false
  itlb : List TlbEntry := []
  dtlb : List TlbEntry := []
  /-- Shootdowns that wait for accesses of this core, with their waiting tags (R107). -/
  draining : List (Shootdown × List Nat) := []
  /-- Last context selected in the scalar and in the vector slot (R374). -/
  lastScalar : Nat := 10
  lastVector : Nat := 10
  hinge : HingeState := {}
  dbg : CoreDebug := {}
  lattice : Lattice := {}
  patch : Patch := {}
  fenced : Bool := false
  /-- Clk of recent transient events (R390). -/
  transients : List Nat := []
deriving DecidableEq, Repr

/-- A tumbler (R167). -/
structure Tumbler where
  count : Nat := 0
  target : Nat := 0
  arm : Bool := false
  ovs : Bool := false
deriving DecidableEq, Repr

/-- A watch for a version, or a versioned read that waits for a watch (R129, R132). -/
structure CellWatch where
  cell : Nat
  version : Nat
  request : Packet
deriving DecidableEq, Repr

/-- A slot of a version cell that is reserved for a VST of a context (R130). -/
structure Reservation where
  cell : Nat
  slot : Nat
  node : Nat
  ctx : Nat
  /-- The name of its VST at the core. -/
  tag : Nat
  /-- Its commit has taken its turn: it is no longer given back (R130). -/
  taken : Bool := false
deriving DecidableEq, Repr

/-- An action record (Table 2-6). -/
structure ActionRecord where
  hdr : Word
  key : Word
  ctl : Word
  ptr : Word
deriving DecidableEq, Repr

/-- A tumbler operation of a commit drain: the committing core and context, OP of Table 10-3, the index, and the amount or TARM word (R136, R168, R410). -/
structure LocalUpdate where
  node : Nat
  ctx : Nat
  op : Nat
  index : Nat
  arg : Word
deriving DecidableEq, Repr

/-- A quad (R30 to R45, R130, R132, R167, R169). -/
structure Quad where
  job : Option Nat := none
  /-- Arrivals still go to the absent queue: the job is being restored (R404, R405). -/
  restoring : Bool := false
  /-- The quad is out of service (R472). -/
  fenced : Bool := false
  tumblers : List (Nat × Tumbler) := []
  /-- Tumbler operations of atomic messages that wait for the tumbler file, in arrival order (R136). -/
  updates : List Packet := []
  /-- Tumbler operations of commit drains that the file has still to perform, in order (R136, R410). -/
  drains : List LocalUpdate := []
  /-- Tumblers that have filled and not fired, with the action record that was read at the fill; none where it was invalid (R40, R136). -/
  fires : List (Nat × Option ActionRecord) := []
  watches : List CellWatch := []
  waitingReads : List CellWatch := []
  reservations : List Reservation := []
  waitingReservations : List Reservation := []
  corrected : Nat := 0
  poisonLog : List Nat := []
  /-- Fenced cores of the quad, and where their arrivals go (R391). -/
  redirect : List (Nat × Nat) := []
  /-- The instruction cache: words of code that have been fetched, by job × 2^48 + virtual address (R180, R107; log 67). -/
  icache : List (Nat × BitVec 32) := []
deriving DecidableEq, Repr

/-- A byte-addressed memory: cells in rising address order, none holding what an unlisted address reads as. -/
abbrev Memory := List Host.Cell

/-- A copy under way at the node that reads its source (R233). -/
structure CopyJob where
  tag : Nat
  request : Packet
  /-- Beats not yet acknowledged, and the first status that was not 0. -/
  left : Nat
  worst : Nat
deriving DecidableEq, Repr

/-- What a context's turn is: to enter or commit a block, to issue, or, once its slot has issued in the clk, to show only whether it waits on an empty register (R177, R366, R374). -/
inductive TurnKind where
  | block
  | issue
  | probe
deriving DecidableEq, Repr

/-- An arrival that waits at a quad, and whether it is still to be tried again in this clk. -/
structure WaitingArrival where
  m : Packet
  due : Bool := false
deriving DecidableEq, Repr

/-- A context whose turn is due in this clk; the flag is the vector slot (R192, R374). -/
structure Turn where
  node : Nat
  ctx : Nat
  vector : Bool
  kind : TurnKind := .issue
  /-- Words of the context that its slot has tried in this clk and that wait (R374). -/
  tried : List Nat := []
deriving DecidableEq, Repr

/-- A request that waits in a slot: a LEASE, or a chain with the index of its first poisoned record (R284, R297). -/
inductive MxRequest where
  | lease (m : Packet)
  | chain (records : List Packet) (bad : Option Nat)
deriving DecidableEq, Repr

/-- A requester slot of a matrix array (R284, R288, R294). -/
structure MxSlot where
  /-- Sticky flags (Table 12-5). -/
  flags : BitVec 5 := 0
  /-- Format context (Table 12-1). -/
  format : Word := 0x66
  /-- Requests in arrival order. -/
  waiting : List MxRequest := []
deriving DecidableEq, Repr

/-- The active lease of a matrix array (R285, R286, R291). -/
structure MxLease where
  slot : Nat
  /-- Core and context of the holder; none for a chain. -/
  holder : Option (Nat × Nat)
  /-- INVSER of the holder's invocation (R286, R294). -/
  inv : Word := 0
  /-- Counted commands performed. -/
  count : Nat := 0
  panelA : Option Word := none
  panelB : Option Word := none
  /-- Records of a chain that are still to be performed. -/
  chain : List Packet := []
  /-- Name of the lease, and the clk of the holder's last command (R286). -/
  name : Nat
  touched : Nat
deriving DecidableEq, Repr

/-- A miss that a walker serves or that waits for one: the region's job and first virtual address, and every requester that merged into it (R102). -/
structure WalkMiss where
  job : Nat
  va : Word
  who : List Walker
deriving DecidableEq, Repr

/-- Walkers and their queue: the misses whose walks are under way, and those that wait, in arrival order (R102). -/
structure WalkUnit where
  busy : List WalkMiss := []
  queue : List WalkMiss := []
deriving DecidableEq, Repr

/-- How a stream stands (R63 to R65, R106). -/
inductive StreamStatus where
  | running
  /-- A translation is walked: its virtual address, element index and tile. -/
  | walking (va elem tile : Nat)
  /-- Parked, with the CAUSE of its fault record. -/
  | parked (cause : Nat)
deriving DecidableEq, Repr

/-- A complete tile of a load, and how many of its beats have been written (R57). -/
structure StreamTile where
  index : Nat
  data : List Byte
  /-- Beats that carry poison (R72). -/
  poison : List Nat
  next : Nat := 0
deriving DecidableEq, Repr

/-- A write of a storer that is under way, which holds one miss entry (R49, R58): `bad` lists the offsets of its poisoned bytes (R72), and the flag marks the last write of a tile. -/
structure StreamWrite where
  pa : Nat
  data : List Byte
  bad : List Nat
  last : Bool
deriving DecidableEq, Repr

/-- A write of a compressing store that has not been issued: virtual bytes of one 64-byte line (R49, R61). -/
structure StagedWrite where
  va : Nat
  data : List Byte
  bad : List Nat
  last : Bool
deriving DecidableEq, Repr

/-- A stream in its slot (R49, R52 to R65, R71). -/
structure Stream where
  /-- The 16 words of its descriptor. -/
  desc : List Word
  status : StreamStatus := .running
  limit : Nat := 0
  /-- Selected entries of a gather, and the virtual address of the row's first flag byte (R60); or the ADDR that a failed check of the table gave (R92). -/
  sel : Option (List Nat × Nat) := none
  tableBad : Option Nat := none
  /-- Tile being read or stored, and its next element. -/
  tile : Nat := 0
  elem : Nat := 0
  /-- Bytes of the tile that have arrived, the beats of it that carry poison, and how many of its beats have been written. -/
  part : List Byte := []
  bad : List Nat := []
  sent : Nat := 0
  ready : List StreamTile := []
  /-- Requests whose data is not delivered yet: the tile, and the byte of it at which each ends (R50). -/
  ahead : List (Nat × Nat) := []
  writes : List StreamWrite := []
  /-- Lines read for the block table, or for the chunk that a loader expands: address, and each byte with its poison (R49, R50, R62, R92). -/
  fetched : List (Nat × List (Byte × Bool)) := []
  /-- Writes of the chunk that a storer compresses, and whether its overflow marker has been formed (R61). -/
  staged : List StagedWrite := []
  marked : Bool := false
  /-- STOPs that wait for the stream's writes (R65). -/
  stops : List Packet := []
  /-- Tiles complete at every quad, or stored. -/
  done : Nat := 0
  /-- First poisoned element: virtual address, linear index, tile (R72). -/
  first : Option (Nat × Nat × Nat) := none
  /-- Offset of the next chunk of a compressing store (R61). -/
  off : Nat := 0
  /-- PULLs not served yet: sender and key; and the count of PULLs issued (R71). -/
  pulls : List (Nat × Nat) := []
  pulled : Nat := 0
deriving DecidableEq, Repr

/-- A memory core (R49). -/
structure MemCore where
  /-- Its stack is being recalibrated (R473). -/
  paused : Bool := false
  /-- Errors that the HBM beats have had corrected (R48). -/
  corrected : Nat := 0
  tlb : List TlbEntry := []
  /-- Its walker, with a walk queue of 64 misses (R102). -/
  walks : WalkUnit := {}
  /-- Arrivals that wait on VN0 while its stack is paused, in order (R473). -/
  held : List Packet := []
  /-- Reads of walkers that wait while its stack is paused, in arrival order: the first eight fill its walk queue, and those behind them wait on VN0 (R102, R473). -/
  walkReads : List Walk := []
  slots : Vector (Option Stream) 16 := Vector.replicate 16 none
  gens : Vector Nat 16 := Vector.replicate 16 0
  /-- GOs that wait in the command queue for a slot (R51). -/
  waiting : List Packet := []
  /-- Slot that issued the last request (R50). -/
  last : Nat := 15
deriving DecidableEq, Repr

/-- A cluster: its second-level TLB, its walkers and its matrix array (R99, R102, R282). -/
structure Cluster where
  tlb : List TlbEntry := []
  /-- Its four walkers, with a walk queue of 64 misses (R102). -/
  walks : WalkUnit := {}
  /-- Multi-size events (R100). -/
  multi : Nat := 0
  slots : Vector MxSlot 16 := Vector.replicate 16 {}
  /-- Slot of the last lease (R285). -/
  last : Nat := 15
  lease : Option MxLease := none
  /-- The array is out of service (R472). -/
  fenced : Bool := false
  /-- Count of leases granted. -/
  leases : Nat := 0
  /-- Messages of the array's last command that their destinations have not accepted, and that command with the words of its reply: it is performed, and the next one begins, once they have (R111, R413). -/
  awaited : Nat := 0
  finishing : Option (Packet × List Word) := none
  /-- Queues of commands by 16 × node + context (R123, R290). -/
  queues : List (Nat × List Packet) := []
  /-- Cells that are not ACC = +0 with KB = 0, by 256 × row + column: ACC, KB (R282). -/
  cells : List (Nat × Nat × Nat) := []
  /-- Parity errors of cells that no report has told yet: row, column, KB (R392; log 91). -/
  parity : List (Nat × Nat × Nat) := []
deriving DecidableEq, Repr

/-- The absent queue of a job at a base die, with destinations in job-relative form, and its count in RECV (R170, R405). -/
structure AbsentQueue where
  entries : List Packet := []
  recv : Nat := 0
deriving DecidableEq, Repr

/-- A program task queue (R67, R68, R244). -/
structure TaskQueue where
  job : Nat
  cap : Nat
  /-- Entries with their TASK flags, head first. -/
  entries : List (Packet × Bool) := []
  /-- Pushes with HOLD that wait for a slot (R244). -/
  held : List Packet := []
deriving DecidableEq, Repr

/-- The base die of a stack and the trace unit beside it (R66, R448, R459). -/
structure Die where
  /-- Queue region (R66), entries of hardware lists held in it beside the head and tail that the base-die SRAM holds, and slots reserved by task queues (R68, R70). -/
  regionBase : Nat := 0
  regionSize : Nat := 0
  listed : Nat := 0
  /-- A push to a hardware list waits for a slot, so that no later one takes it (R70). -/
  starved : Bool := false
  reserved : Nat := 0
  /-- The notice of an empty pool has been raised and the pool is still empty (R70). -/
  noticed : Bool := false
  /-- Program task queues by number (R67). -/
  tasks : List (Nat × TaskQueue) := []
  /-- Absent queues by job (R405). -/
  absent : List (Nat × AbsentQueue) := []
  /-- Ranges of HBM that no leaf may map: base and size of the queue region, trace ring and replay area (R96). -/
  closedRanges : List (Nat × Nat) := []
  /-- Clk at which the die was released from reset (R446). -/
  start : Nat := 0
  /-- Trace ring in HBM: base, size, and bytes written and freed since bring-up (R448). -/
  ringBase : Nat := 0
  ringSize : Nat := 0
  ringIn : Nat := 0
  ringOut : Nat := 0
  /-- Records dropped since the last LOST record of the unit (R448, R451). -/
  ringLost : Nat := 0
  /-- Replay area: base, and the size of each log (R459). -/
  replayBase : Nat := 0
  logSize : Nat := 0
  /-- SKEW0 to SKEW7 and, at die 0, MSKEW0 to MSKEW5 (R447). -/
  skews : List Word := List.replicate 8 0xFF000000
  mskews : List Word := List.replicate 6 0xFF000000
deriving DecidableEq, Repr

/-- A job record (Table 7-1). -/
structure JobRecord where
  job : Nat := 0
  mx : Bool := false
  nmod : Nat := 0
  wx : Nat := 0
  wy : Nat := 0
  nchan : Nat := 0
  need : Nat := 0
  ptroot : Nat := 0
  wkd : Word := 0
  htab : Nat := 0
  init : Nat := 0
  ninit : Nat := 0
  qdepth : List Nat := []
  prod : Nat := 0
  trign : Nat := 0
  tumb : Nat := 0
  chan : Nat := 0
  live : Nat := 0
  nlive : Nat := 0
  opmap : Nat := 0
  ntumb : Nat := 0
  modmap : List Nat := []
deriving DecidableEq, Repr

/-- A channel of the channel table (Table 17-3): source and destination, job-relative. -/
structure Channel where
  sx : Nat
  sy : Nat
  sm : Nat
  sc : Nat
  dx : Nat
  dy : Nat
  dm : Nat
  dc : Nat
deriving DecidableEq, Repr

/-- Where a job stands (R141, R169, R395, R399, R404). -/
inductive JobStatus where
  | waiting
  | resident
  | saved
  /-- Its image is written back; its quads are not resident on dies that still replay (R404, R405). -/
  | restoring
  /-- It is being ended from outside: its contexts drain before its quads are freed (R169, R432). -/
  | ending
  | ended
deriving DecidableEq, Repr

/-- An entry of the tumbler initial table (R143). -/
structure TumblerInit where
  index : Nat
  jx : Nat
  jy : Nat
  jm : Nat
  value : Tumbler
deriving DecidableEq, Repr

/-- A live region (Table 17-4). -/
structure Region where
  off : Nat
  sel : Nat
  all : Bool
  qx : Nat
  qy : Nat
  qm : Nat
  len : Nat
deriving DecidableEq, Repr

/-- What the sweep of one module found (R172). -/
structure Sweep where
  sent : Nat
  recv : Nat
  idle : Bool
deriving DecidableEq, Repr

/-- A pre-emption under way: its area, the first free byte of it, the records written, and the quiescence violations (R395, R402). -/
structure Snapshot where
  base : Nat
  size : Nat
  next : Nat
  cores : List (Nat × Nat) := []
  quads : List (Nat × Nat) := []
  violations : Nat := 0
deriving DecidableEq, Repr

/-- A job that a management core knows (R141 to R144, R169, R172, R395 to R406). -/
structure Job where
  record : JobRecord := {}
  status : JobStatus := .waiting
  /-- PLBASE and MODMAP of its last placement (R169, R405). -/
  plbase : Word := 0
  placed : List Nat := []
  channels : List Channel := []
  tumblers : List TumblerInit := []
  regions : List Region := []
  /-- Frozen by a replay divergence (R465). -/
  frozen : Bool := false
  /-- The module whose command ring brought the record. -/
  port : Nat := 0
  /-- Physical base of the image of a record that is to be restored (R404). -/
  image : Option Nat := none
  /-- Its initial messages may be released, and the next of the list for each module (R144, R370). -/
  released : Bool := false
  initNext : List (Nat × Nat) := []
  /-- TRIGGERs performed (R139). -/
  trigger : Nat := 0
  /-- Messages that host ports and management cores have sent, and host ports received, for the job (R170). -/
  hostSent : Nat := 0
  hostRecv : Nat := 0
  /-- Results of the running round of sweeps by module, and the equal sums of the last round that found every core idle (R172). -/
  sweeps : List (Nat × Sweep) := []
  sums : Option (Nat × Nat) := none
  /-- The equal sums of the last round that found every core saved (R399). -/
  savedSums : Option (Nat × Nat) := none
  snapshot : Option Snapshot := none
deriving DecidableEq, Repr

/-! Modules: the host port, the management core, the seal engine and the collective unit. -/

/-- A ring in host memory (R428, R429). -/
structure Ring where
  base : Nat := 0
  size : Nat := 0
  tail : Nat := 0
  head : Nat := 0
deriving DecidableEq, Repr

/-- A firmware image in its slot: security version, sealed-output policy and the SHA-256 of its code (R467). -/
structure Firmware where
  sv : Nat
  sealed : Bool
  hash : List Byte
deriving DecidableEq, Repr

/-- An open segment: job, manifest buffer, time of opening and frame entries (R362, R443). -/
structure Segment where
  job : Nat
  va : Nat
  opened : Nat
  frames : List (List Byte) := []
deriving DecidableEq, Repr

/-- The seal engine (R362, R363, R441 to R445). -/
structure SealEngine where
  segments : Vector (Option Segment) 64 := Vector.replicate 64 none
  gens : Vector Nat 64 := Vector.replicate 64 0
  /-- Manifests signed, and the hash of the last. -/
  seq : Nat := 0
  prev : List Byte := List.replicate 32 0
  /-- Pending unmarked records, and the clk of the oldest. -/
  records : List (List Byte) := []
  oldest : Nat := 0
  /-- Commands that wait behind a frame without room (R441). -/
  waiting : List Packet := []
  /-- Manifest buffers that jobs have opened: job and virtual address (R440). -/
  buffers : List (Nat × Nat) := []
deriving DecidableEq, Repr

/-- A module outside its cores (R427 to R435, R438, R467 to R474). -/
structure Module where
  /-- HPSTAT. -/
  sealed : Bool := false
  running : Bool := false
  cmd : Ring := {}
  cpl : Ring := {}
  rx : Ring := {}
  frm : Ring := {}
  umbase : Nat := 0
  umNext : Nat := 0
  injTail : Nat := 0
  injHead : Nat := 0
  /-- Bytes of the injection slots, by offset in BAR0. -/
  inject : Memory := []
  /-- WIN registers (Table 23-3). -/
  windows : List (Nat × Word) := []
  /-- TLB of the host port (R430). -/
  tlb : List TlbEntry := []
  /-- Completions of host reads in order; none is a Completer Abort (R430). -/
  reads : List (Option (List Byte)) := []
  /-- Dropped writes and dropped slots (R430, R434). -/
  droppedWrites : Nat := 0
  droppedSlots : Nat := 0
  /-- MSI-X vectors raised, in order (R429). -/
  interrupts : List Nat := []
  /-- Completion entries that wait for room, and arrivals held on VN0 (R429, R435). -/
  completions : List (List Word) := []
  held : List Packet := []
  /-- Firmware slots A and B; B runs (R467 to R470). -/
  slotA : Option Firmware := none
  slotB : Option Firmware := none
  second : Bool := false
  /-- Lanes out of use: port and lane (R472). -/
  lanes : List (Nat × Nat) := []
  /-- Closed to LAUNCH and RESTORE after over-temperature (R474). -/
  hot : Bool := false
  /-- Commands taken from the ring and not yet begun, and a KILL that still drains (R432, R474). -/
  commands : List Event := []
  killing : Bool := false
  throttled : Bool := false
  /-- Records that wait for placement: job and overtakings (R368, R369). -/
  waiting : List (Nat × Nat) := []
  /-- Stacks under recalibration, with the job fields of the RECALs that end with it (R473). -/
  recal : List (Nat × List Nat) := []
  /-- Stacks whose memory cores have drained, with the clk in which the pause ends (R473). -/
  recalEnd : List (Nat × Nat) := []
  /-- Actions of the host that wait, in arrival order: for an earlier injected message at a quad, for a paused stack, or behind such an action (R431, R473). -/
  hostWait : List (Event × Bool) := []
  engine : SealEngine := {}
  /-- Collectives that the module's unit has accepted and that are not complete, and descriptors that wait on VN0 for one of its 16 places, in arrival order (R438). -/
  collectives : List Packet := []
  colWaiting : List Packet := []
deriving DecidableEq, Repr

/-- A notice to the Xiulaov management core of a module. -/
inductive MgmtNotice where
  /-- A fault of a system context, with its trap registers (R388). -/
  | systemFault (node : Nat) (cause addr blk info : Word)
  /-- An arrival for a job that is neither resident nor saved (R405). -/
  | unknownJob (node job : Nat)
deriving DecidableEq, Repr

/-- The load-store domain and the host (R1, R111). -/
structure State where
  /-- Physical memory of every module (R21), and the units of it that hold poison: 8 bytes in stores (R42), 32 bytes in HBM (R48). -/
  mem : Memory
  poison : List Nat
  /-- Host memory, in which the rings lie (R428). -/
  hostMem : Memory
  cores : List (Nat × Core)
  quads : List (Nat × Quad)
  clusters : List (Nat × Cluster)
  memCores : List (Nat × MemCore)
  dies : List (Nat × Die)
  modules : List (Nat × Module)
  /-- Domain presence map (R16). -/
  present : BitVec 64
  /-- Jobs by identifier. -/
  jobs : List (Nat × Job)
  /-- Notices that management cores have received, in order. -/
  mgmt : List MgmtNotice
  /-- Events due, in order (log 3). -/
  agenda : List Event
  /-- Events that fall due in a later clk (log 3). -/
  later : List (Nat × Event)
  /-- Arrivals that wait on VN0 at a quad's network interface or at a base die, in arrival order: for room in a system queue or in the queue region, for a job that is away, or behind such an arrival (R69, R70, R121, R156, R406). -/
  arrivals : List WaitingArrival
  /-- Copies under way, and the count of copies begun. -/
  copies : List CopyJob
  copyCount : Nat
  /-- Contexts still to be selected in this clk (log 4). -/
  turn : List Turn
  /-- The contexts of this clk have been put into turn (log 4). -/
  picked : Bool
  /-- Shootdowns under way, with the units that have not acknowledged (R107). -/
  shootdowns : List (Shootdown × List TlbUnit)
  clk : Nat
  /-- The core and context that the instruction to be executed belongs to. -/
  cur : Nat
  curCtx : Nat
  /-- The last attempt was passed over (R374). -/
  stalled : Bool
  /-- Count of open values used (log 5). -/
  free : Nat
deriving DecidableEq, Repr

/-- The state after reset. -/
def State.reset : State where
  mem := []
  poison := []
  hostMem := []
  cores := []
  quads := []
  clusters := []
  memCores := []
  dies := []
  modules := []
  present := 1
  jobs := []
  mgmt := []
  agenda := []
  later := []
  arrivals := []
  copies := []
  copyCount := 0
  turn := []
  picked := false
  shootdowns := []
  clk := 0
  cur := 0
  curCtx := 0
  stalled := false
  free := 0

end Sys2Proof.Machine
end

