-- ==== Sys2Proof/Machine/Memory.lean ====
section
/-! DEFINITION. The physical memory, its map, and the node addresses (R13 to R23, R42, R47, R48). -/

namespace Sys2Proof.Machine

/-- What an unlisted address reads as (R468 clears the quad stores; log 2 for HBM and host memory). -/
def Memory.unlisted : Byte := 0

/-- Every listed address is above n, addresses rise, and no entry holds what an unlisted address reads as. -/
def Memory.above (n : Nat) : Memory → Bool
  | [] => true
  | (a, b) :: r => decide (n ≤ a) && (b != Memory.unlisted) && Memory.above (a + 1) r

/-- The canonical form of a memory. -/
def Memory.wf (m : Memory) : Bool := Memory.above 0 m

/-- The byte at an address. -/
def Memory.read : Memory → Nat → Byte
  | [], _ => Memory.unlisted
  | (k, b) :: r, a => if k = a then b else Memory.read r a

/-- The memory with one byte written, in canonical form. -/
def Memory.write : Memory → Nat → Byte → Memory
  | [], a, b => if b = Memory.unlisted then [] else [(a, b)]
  | (k, c) :: r, a, b =>
    if a < k then (if b = Memory.unlisted then (k, c) :: r else (a, b) :: (k, c) :: r)
    else if k = a then (if b = Memory.unlisted then r else (a, b) :: r)
    else (k, c) :: Memory.write r a b

/-- n bytes from an address upward. -/
def Memory.readN (m : Memory) (a : Nat) : Nat → List Byte
  | 0 => []
  | n + 1 => Memory.read m a :: Memory.readN m (a + 1) n

/-- The memory with a run of bytes written from an address upward. -/
def Memory.writeN (m : Memory) (a : Nat) : List Byte → Memory
  | [] => m
  | b :: r => Memory.writeN (Memory.write m a b) (a + 1) r

/-- The memory with n bytes from an address cleared. -/
def Memory.clear (m : Memory) (a n : Nat) : Memory := m.filter (fun c => c.1 < a || a + n ≤ c.1)

/-- The little-endian word at an address. -/
def Memory.word (m : Memory) (a : Nat) : Word := wordOf (natOfBytes (Memory.readN m a 8))

/-- The memory with a little-endian word written. -/
def Memory.writeWord (m : Memory) (a : Nat) (w : Word) : Memory := Memory.writeN m a (bytesOfWord w)

/-! Node addresses (R13 to R16). -/

/-- Module of a node address (R13). -/
def nodeModule (n : Nat) : Nat := bits n 21 16

/-- A service endpoint, not a core (R13). -/
def nodeIsEnd (n : Nat) : Bool := bitAt n 15

def nodeX (n : Nat) : Nat := bits n 14 8
def nodeY (n : Nat) : Nat := bits n 7 2
def nodeCore (n : Nat) : Nat := bits n 1 0
def nodeDie (n : Nat) : Nat := bits n 14 12
def nodeClass (n : Nat) : Nat := bits n 11 8
def nodeIndex (n : Nat) : Nat := bits n 7 0

/-- The node address of a core (R13). -/
def coreNode (m x y c : Nat) : Nat := m * 65536 + x * 256 + y * 4 + c

/-- The node address of a service endpoint (R13, R15). -/
def endNode (m die cls idx : Nat) : Nat := m * 65536 + 32768 + die * 4096 + cls * 256 + idx

/-- The address of core 0 of a core's quad, by which the model names the quad. -/
def quadOf (n : Nat) : Nat := n / 4 * 4

/-- The die of a core (R14). -/
def dieOf (n : Nat) : Nat := nodeY n / 30 * 4 + nodeX n / 20

/-- The cluster of a core on its die (R14). -/
def clusterIndex (n : Nat) : Nat := nodeY n % 30 / 2 * 10 + nodeX n % 20 / 2

/-- The matrix-array endpoint of a core's cluster (R14, R15). -/
def clusterOf (n : Nat) : Nat := endNode (nodeModule n) (dieOf n) 7 (clusterIndex n)

/-- The module-wide quad index (R14). -/
def quadIndex (n : Nat) : Nat := nodeY n * 80 + nodeX n

/-- The quad of a module-wide quad index. -/
def quadOfIndex (m q : Nat) : Nat := coreNode m (q % 80) (q / 80) 0

/-- The index ranges of Table 1-1: class, largest die and largest index. -/
def endpointRange : Nat → Option (Nat × Nat)
  | 0 => some (7, 159)
  | 1 => some (0, 5)
  | 2 => some (0, 0)
  | 3 => some (0, 0)
  | 4 => some (7, 0)
  | 5 => some (0, 0)
  | 6 => some (7, 0)
  | 7 => some (7, 149)
  | _ => none

/-- The destination check of R16 against a presence map. -/
def goodNode (present : BitVec 64) (n : Nat) : Bool :=
  bitAt present.toNat (nodeModule n) &&
  (if nodeIsEnd n then
    match endpointRange (nodeClass n) with
    | some (d, i) => decide (nodeDie n ≤ d) && decide (nodeIndex n ≤ i)
    | none => false
  else decide (nodeX n ≤ 79) && decide (nodeY n ≤ 59))

/-! The physical map (R21, R22, R47). -/

def storeWindows : Nat := 0x100000000000

/-- Store selects of a local address: 0 G, 1 W, 2 A, 3 C (R27). -/
def storeSize (sel : Nat) : Nat := if sel = 0 ∨ sel = 3 then 0x40000 else 0x80000

/-- Window offset of a store (Table 1-4). -/
def storeBase : Nat → Nat
  | 0 => 0
  | 1 => 0x80000
  | 2 => 0x100000
  | _ => 0x40000

/-- First physical address of a quad's window (R21, R22). -/
def quadBase (quad : Nat) : Nat := nodeModule quad * 2 ^ 46 + storeWindows + quadIndex quad * 0x200000

/-- Physical address of a local address of a quad (R22, R27). -/
def localPhys (quad la : Nat) : Nat := quadBase quad + storeBase (la / 0x100000 % 4) + la % 0x100000

/-- The owner of a physical address (R21, R22, R47). -/
inductive Place where
  /-- HBM, with the memory core that owns the granule. -/
  | hbm (core : Nat)
  /-- A quad store: quad, store select and offset. -/
  | store (quad sel off : Nat)
  | reserved
deriving DecidableEq, Repr

/-- Where a physical address lies (Table 1-3, Table 1-4). -/
def placeOf (pa : Nat) : Place :=
  let m := pa / 2 ^ 46 % 64
  let l := pa % 2 ^ 46
  if l < 2 ^ 39 then .hbm (endNode m (l / 2 ^ 36) 0 (l % 2 ^ 36 / 256 % 160))
  else if storeWindows ≤ l ∧ l < storeWindows + 4800 * 0x200000 then
    let q := (l - storeWindows) / 0x200000
    let o := (l - storeWindows) % 0x200000
    let quad := quadOfIndex m q
    if o < 0x40000 then .store quad 0 o
    else if o < 0x80000 then .store quad 3 (o - 0x40000)
    else if o < 0x100000 then .store quad 1 (o - 0x80000)
    else if o < 0x180000 then .store quad 2 (o - 0x100000)
    else .reserved
  else .reserved

/-- The node that owns a physical address: a quad, or a memory core (R111). -/
def ownerOf (pa : Nat) : Option Nat :=
  match placeOf pa with
  | .hbm c => some c
  | .store q _ _ => some q
  | .reserved => none

/-- The address lies in a G store. -/
def inG (pa : Nat) : Bool :=
  match placeOf pa with
  | .store _ 0 _ => true
  | _ => false

/-- The unit of memory that carries one poison mark: an 8-byte word of a store, a 32-byte beat of HBM (R42, R48). -/
def poisonUnit (pa : Nat) : Nat :=
  if pa % 2 ^ 46 < 2 ^ 39 then pa / 32 * 32 else pa / 8 * 8

/-- Bytes in the poison unit of an address. -/
def poisonSize (pa : Nat) : Nat := if pa % 2 ^ 46 < 2 ^ 39 then 32 else 8

/-- A number put into a rising list. -/
def insertSorted (n : Nat) : List Nat → List Nat
  | [] => [n]
  | k :: r => if n < k then n :: k :: r else if n = k then k :: r else k :: insertSorted n r

/-- The address lies in a poisoned unit. -/
def isPoisoned (s : State) (pa : Nat) : Bool := s.poison.contains (poisonUnit pa)

/-- Some byte of a run lies in a poisoned unit. -/
def anyPoison (s : State) (pa n : Nat) : Bool := s.poison.any (fun u => decide (u < pa + n) && decide (pa < u + poisonSize u))

/-- The last eight of a log with one more entry (R45). -/
def lastEight (l : List Nat) (n : Nat) : List Nat := (l ++ [n]).drop (l.length + 1 - 8)

/-- The quads with a poisoned word of a store entered in its quad's log (R45). -/
def logPoison (quads : List (Nat × Quad)) (pa : Nat) : List (Nat × Quad) :=
  match placeOf pa with
  | .store q sel off =>
    let x := agetD quads q {}
    aset quads q { x with poisonLog := lastEight x.poisonLog (sel * 0x100000 + off / 8 * 8) }
  | _ => quads

/-- The state with the unit of an address poisoned (R42), and the word of a store in its quad's log (R45). -/
def State.addPoison (s : State) (pa : Nat) : State :=
  { s with poison := insertSorted (poisonUnit pa) s.poison, quads := logPoison s.quads pa }

/-- The state with no poison mark in a run of bytes. -/
def State.dropPoison (s : State) (pa n : Nat) : State :=
  { s with poison := s.poison.filter (fun u => !(decide (pa ≤ u) && decide (u + poisonSize u ≤ pa + n))) }

/-- One access that writes bytes: whole units are written and lose their poison; bytes of a poisoned unit that is written in part are discarded (R44, R48).
Answers the state and every unit whose bytes were discarded. -/
def writeUnits (s : State) (pa : Nat) (bs : List Byte) : State × List Nat :=
  if anyPoison s pa bs.length then
    let s1 := s.dropPoison pa bs.length
    let keep := (List.range bs.length).filter (fun k => !isPoisoned s1 (pa + k))
    let lost := (List.range bs.length).filter (fun k => isPoisoned s1 (pa + k))
    ({ s1 with mem := keep.foldl (fun m k => Memory.write m (pa + k) (bs.getD k 0)) s1.mem },
      (lost.map (fun k => poisonUnit (pa + k))).eraseDups)
  else ({ s with mem := Memory.writeN s.mem pa bs }, [])

end Sys2Proof.Machine
end

