-- ==== Sys2Proof/Machine/Ops.lean ====
section
/-! DEFINITION. Access to the parts of the state, keys, discards, taking a fault and raising a notice (R114, R178, R251, R384 to R388). -/

namespace Sys2Proof.Machine

/-- The outcome of a step of this machine. -/
abbrev Out := Host.Outcome State Fault Refusal

/-! Parts of the state. -/

def State.core (s : State) (n : Nat) : Core := agetD s.cores n {}
def State.setCore (s : State) (n : Nat) (c : Core) : State := { s with cores := aset s.cores n c }
def State.quad (s : State) (n : Nat) : Quad := agetD s.quads (quadOf n) {}
def State.setQuad (s : State) (n : Nat) (q : Quad) : State := { s with quads := aset s.quads (quadOf n) q }

/-- The cluster of a matrix-array node (R14). -/
def State.cluster (s : State) (n : Nat) : Cluster := agetD s.clusters n {}
def State.setCluster (s : State) (n : Nat) (c : Cluster) : State := { s with clusters := aset s.clusters n c }

def Cluster.slot (c : Cluster) (k : Nat) : MxSlot := c.slots[k]?.getD {}
def Cluster.setSlot (c : Cluster) (k : Nat) (x : MxSlot) : Cluster := { c with slots := c.slots.setIfInBounds k x }

/-- The memory core of a node (R49). -/
def State.memCore (s : State) (n : Nat) : MemCore := agetD s.memCores n {}
def State.setMemCore (s : State) (n : Nat) (m : MemCore) : State := { s with memCores := aset s.memCores n m }

/-- The base die of a queue-logic node (R15). -/
def State.die (s : State) (n : Nat) : Die := agetD s.dies n {}

/-- Slots of a base die's region that no list and no task queue holds (R66, R70). -/
def Die.room (d : Die) : Nat := d.regionSize / 288 - d.listed - d.reserved

/-- Entries of a list of n that stand in the region: all but its head and tail (R66). -/
def regionEntries (n : Nat) : Nat := n - 2

/-- A hardware list has gone from one length to another (R66). -/
def Die.relist (d : Die) (old new : Nat) : Die := { d with listed := d.listed + regionEntries new - regionEntries old }

/-- A push to a hardware list of n entries is accepted: none waits before it, and where an entry goes to the region, there is a slot (R66, R70). -/
def Die.accepts (d : Die) (n : Nat) : Bool := !d.starved && (regionEntries (n + 1) == regionEntries n || d.room != 0)

/-- The host port and management core of a module (R427). -/
def State.module (s : State) (n : Nat) : Module := agetD s.modules n {}
def State.setModule (s : State) (n : Nat) (x : Module) : State := { s with modules := aset s.modules n x }

/-! Rings in host memory (R429). -/

/-- Entries of a ring. -/
def Ring.used (r : Ring) : Nat := (r.tail + 2 ^ 32 - r.head) % 2 ^ 32
def Ring.isFull (r : Ring) : Bool := decide (r.size ≤ r.used)

/-- Completion entries are written while the ring has room, each with interrupt vector 0 (R429, R432). -/
def State.flushCompletions (s : State) (n : Nat) : State :=
  (s.module n).completions.foldl (fun (t : State) (e : List Word) =>
    let x := t.module n
    if x.cpl.isFull then t
    else
      { t.setModule n { x with cpl := { x.cpl with tail := (x.cpl.tail + 1) % 2 ^ 32 }, completions := x.completions.drop 1, interrupts := x.interrupts ++ [0] } with
        hostMem := Memory.writeN t.hostMem (x.cpl.base + x.cpl.tail % x.cpl.size * 16) (bytesOfWords e) }) s

/-- A completion entry or a notice to the host (R432). -/
def State.complete (s : State) (n op job status reason : Nat) (value : Word) : State :=
  let x := s.module n
  (s.setModule n { x with completions := x.completions ++
    [[wordOf (op % 256 + job % 4096 * 2 ^ 8 + status % 256 * 2 ^ 20 + reason % 256 * 2 ^ 28), value]] }).flushCompletions n

/-- The state with a base die changed; a pool with room again will raise its notice anew (R70). -/
def State.setDie (s : State) (n : Nat) (d : Die) : State := { s with dies := aset s.dies n { d with noticed := d.noticed && d.room == 0 } }

def Core.ctx (c : Core) (k : Nat) : Ctx := c.ctxs[k]?.getD {}
def Core.setCtx (c : Core) (k : Nat) (x : Ctx) : Core := { c with ctxs := c.ctxs.setIfInBounds k x }

def State.ctx (s : State) (n k : Nat) : Ctx := (s.core n).ctx k
def State.setCtx (s : State) (n k : Nat) (x : Ctx) : State := s.setCore n ((s.core n).setCtx k x)

/-- The context whose instruction is executed. -/
def State.me (s : State) : Ctx := s.ctx s.cur s.curCtx
def State.setMe (s : State) (x : Ctx) : State := s.setCtx s.cur s.curCtx x
def State.myCore (s : State) : Core := s.core s.cur
def State.setMyCore (s : State) (c : Core) : State := s.setCore s.cur c

/-- The system context is context 10 (R357). -/
def State.isSystem (s : State) : Bool := s.curCtx == 10

def State.regs (s : State) : Regs := s.me.regs
def State.setRegs (s : State) (r : Regs) : State := s.setMe { s.me with regs := r }

def Regs.greg (r : Regs) (n : Nat) : Reg := r.g[n]?.getD {}
def Regs.vreg (r : Regs) (n : Nat) : VReg := r.v[n]?.getD {}
def Regs.qreg (r : Regs) (n : Nat) : Lane := r.q[n]?.getD 0
def Regs.putReg (r : Regs) (n : Nat) (x : Reg) : Regs := { r with g := r.g.setIfInBounds n x }
def Regs.putV (r : Regs) (n : Nat) (x : VReg) : Regs := { r with v := r.v.setIfInBounds n x }
def Regs.putQ (r : Regs) (n : Nat) (x : Lane) : Regs := { r with q := r.q.setIfInBounds n x }

/-- A predicate; p0 reads true (R181). -/
def Regs.pred (r : Regs) (n : Nat) : Bool := n == 0 || bitAt r.p.toNat n

/-- A write of a predicate; a write of p0 is discarded (R181). -/
def Regs.setPred (r : Regs) (n : Nat) (b : Bool) : Regs :=
  if n = 0 then r else { r with p := if b then r.p ||| (1#8 <<< n) else r.p &&& ~~~(1#8 <<< n) }

/-- The value of a g register; g0 reads 0 (R181). -/
def Regs.gval (r : Regs) (n : Nat) : Word := if n = 0 then 0 else (r.greg n).val

/-- A write of a g register, which becomes full; a write of g0 is discarded (R181, R182). -/
def Regs.setG (r : Regs) (n : Nat) (w : Word) : Regs := if n = 0 then r else r.putReg n ⟨w, .full⟩

/-- A g register that keeps its value and takes a state (R182, R184); g0 is never empty (R181). -/
def Regs.markG (r : Regs) (n : Nat) (st : RegState) : Regs := if n = 0 then r else r.putReg n ⟨(r.greg n).val, st⟩

/-- A write of a v register, which becomes full (R182). -/
def Regs.setV (r : Regs) (n : Nat) (l : Vector Lane 32) : Regs := r.putV n ⟨l, .full⟩

def Regs.markV (r : Regs) (n : Nat) (st : RegState) : Regs := r.putV n ⟨(r.vreg n).lanes, st⟩

/-- The open block of the current context; an empty one where none is open. -/
def State.block (s : State) : OpenBlock := s.me.block.getD { header := 0, words := [] }

/-- The state with the open block of the current context changed. -/
def State.onBlock (s : State) (f : OpenBlock → OpenBlock) : State := s.setMe { s.me with block := s.me.block.map f }

/-- The first word after a position that has not issued; n bounds the search. -/
def firstLeft (ahead : List Nat) : Nat → Nat → Nat
  | p, 0 => p
  | p, n + 1 => if ahead.contains p then firstLeft ahead (p + 1) n else p

/-- The selected word has issued: the first word of the block that is left follows, or the word joins those that have issued before an earlier one (R175). -/
def OpenBlock.advance (b : OpenBlock) : OpenBlock :=
  if b.cursor = b.pos then
    let n := firstLeft b.ahead (b.pos + 1) b.ahead.length
    { b with pos := n, ahead := b.ahead.filter (fun p => decide (n < p)) }
  else { b with ahead := b.ahead ++ [b.cursor] }

/-- The selected instruction of the block has issued. -/
def State.advance (s : State) : State := s.onBlock OpenBlock.advance

/-- The selected context cannot issue in this clk (R374). -/
def State.passOver (s : State) : State := { s with stalled := true }

/-- The count of open values raised by one (log 5). -/
def State.useOpen (s : State) : State := { s with free := s.free + 1 }

/-- A step of the device that is now due (log 3). -/
def State.due (s : State) (e : Event) : State := { s with agenda := s.agenda ++ [e] }

/-- A step of the device that falls due n clk from now (log 3). -/
def State.after (s : State) (n : Nat) (e : Event) : State := { s with later := s.later ++ [(s.clk + n, e)] }

/-- Steps of the device that come before every other (log 3). -/
def State.dueFirst (s : State) (l : List Event) : State := { s with agenda := l ++ s.agenda }

def State.dueAll (s : State) (l : List Event) : State := { s with agenda := s.agenda ++ l }

/-- A notice to the management core of a module. -/
def State.tell (s : State) (n : MgmtNotice) : State := { s with mgmt := s.mgmt ++ [n] }

/-- An empty pool raises its notice once (R70). -/
def State.poolNotice (s : State) (die : Nat) : State :=
  let d := s.die die
  if d.room ≠ 0 ∨ d.noticed then s
  else (s.setDie die { d with noticed := true }).complete (nodeModule die) 0x85 0 0 0 (wordOf (nodeDie die))

/-- A push waits for a slot: those that follow in this clk wait as well (R70). -/
def State.poolEmpty (s : State) (die : Nat) : State := (s.setDie die { s.die die with starved := true }).poolNotice die

/-! Counters (R366). -/

def Core.count (c : Core) (n k : Nat) : Core :=
  { c with counters := c.counters.setIfInBounds n (((c.counters[n]?.getD 0) + k) % 2 ^ 64) }

def State.count (s : State) (node n k : Nat) : State := s.setCore node ((s.core node).count n k)

/-! Keys (R251 to R253). -/

def Core.key (c : Core) (k : Nat) : Key := c.keys[k]?.getD {}
def Core.setKey (c : Core) (k : Nat) (x : Key) : Core := { c with keys := c.keys.setIfInBounds k x }

/-- A key becomes Free; its KEYRING bit stays (R251). One in flight is freed when it is set (R114, R253). -/
def Key.release (k : Key) : Key :=
  if k.flight ≠ 0 then { k with freeOnSet := true } else { k with alloc := .free, owner := 0xF, freeOnSet := false }

/-- KEYRING (R251). -/
def Core.keyring (c : Core) : Word := wordOf (maskOf ((List.range 64).filter (fun k => (c.key k).bit)))

/-- KEYOWN g (Table 15-4). -/
def Core.keyown (c : Core) (g : Nat) : Word :=
  wordOf ((List.range 16).foldl (fun a j => a + (c.key (16 * g + j)).owner.toNat * 16 ^ j) 0)

/-- The listed keys are released. -/
def Core.releaseKeys (c : Core) (l : List Nat) : Core := l.foldl (fun c k => c.setKey k (c.key k).release) c

/-! Reply slots (R162). -/

/-- The reply slots of a context with the replies of some dropped (R120, R162). -/
def dropReplies (p : SlotUse → Bool) (l : List (Nat × SlotUse)) : List (Nat × SlotUse) :=
  l.map (fun e => if p e.2 then (e.1, { e.2 with dropped := true }) else e)

/-- The slots that are left when requests that will never depart are taken away and the replies of the others are dropped; `going` lists the slots whose requests stand in the departure queue (R114, R178). -/
def dropSlots (p : SlotUse → Bool) (going : List Nat) (l : List (Nat × SlotUse)) : List (Nat × SlotUse) :=
  dropReplies p (l.filter (fun e => !(p e.2 && !e.2.sent && !going.contains e.1)))

/-- The reply slot that an effect's answer fills. -/
def Effect.slot : Effect → Option Nat
  | .mem e => e.slot
  | .msg _ z _ _ => z
  | _ => none

/-- The slots of a context whose requests stand in the departure queue (R117). -/
def Core.going (c : Core) (k : Nat) : List Nat := (c.departure.filter (fun e => e.1 == k)).filterMap (fun e => e.2.slot)

/-! Discards (R114, R178). -/

/-- The context with its open block discarded (R178). -/
def Ctx.discardBlock (x : Ctx) : Ctx :=
  match x.block with
  | none => x
  | some b =>
    { x with
      regs := b.entry
      block := none
      slots := dropSlots (fun u => u.inBlock) [] x.slots
      haspCnt := x.haspCnt - b.counted
      held := x.held.filter (fun k => !(b.keys.any (fun e => e.1 == k))) }

/-- Every result of the lattice and of the patch that is still to come, changed (R316, R339). -/
def Core.mapAwaited (c : Core) (f : Awaited → Awaited) : Core :=
  { c with
    lattice := { c.lattice with queue := c.lattice.queue.map (fun (o : LatOp) => { o with dest := f o.dest }) }
    patch := { c.patch with results := c.patch.results.map (fun (r : PatchResult) => { r with use := f r.use }) } }

/-- Results of a context are dropped: those of its open block, or all (R178, R317, R339). -/
def Core.dropAwaited (c : Core) (k : Nat) (all : Bool) : Core :=
  c.mapAwaited (fun a => if a.ctx = k ∧ (all ∨ a.inBlock) then { a with dropped := true } else a)

/-- The core with the open block of a context discarded: registers, keys, reply slots and results to come as R178 gives. -/
def Core.discardBlock (c : Core) (k : Nat) : Core :=
  match (c.ctx k).block with
  | none => c
  | some b =>
    let c1 := b.keys.foldl (fun c e => c.setKey e.1 { bit := e.2 }) c
    ((c1.setCtx k (c.ctx k).discardBlock).dropAwaited k false).count 2 1

/-- The context becomes Draining while a reply slot is reserved or a custom opcode's results are to come, and Free otherwise (R154, R204, R317). -/
def Ctx.leave (x : Ctx) : Ctx :=
  { x with
    status := if x.slots.isEmpty ∧ x.results = 0 then .free else .draining
    invocation := none
    commit := none
    miss := none
    acquire := []
    parity := []
    yieldEnd := none
    rankLast := false }

/-- The invocation's uncommitted effects are lost, its Held keys freed and its replies dropped (R114). -/
def Core.dropInvocation (c : Core) (k : Nat) : Core :=
  let c1 := c.discardBlock k
  let x := c1.ctx k
  let c2 := c1.releaseKeys x.held
  c2.setCtx k { x with retire := [], held := [], slots := dropSlots (fun _ => true) (c2.going k) x.slots, commit := none }

/-- Reservations of a context's commit are given back (R130). -/
def Quad.giveBack (q : Quad) (node ctx : Nat) : Quad :=
  { q with
    reservations := q.reservations.filter (fun r => !(r.node == node && r.ctx == ctx && !r.taken))
    waitingReservations := q.waitingReservations.filter (fun r => !(r.node == node && r.ctx == ctx)) }

/-- Every reservation of a context's commit is given back at its cell's quad (R130). -/
def State.giveBack (s : State) (node ctx : Nat) : State :=
  { s with quads := s.quads.map (fun e => (e.1, e.2.giveBack node ctx)) }

/-! Taking a fault (R384 to R388). -/

/-- TRAPCAUSE (Table 15-6). -/
def trapCause (cause ctx : Nat) (note : Bool) : Word := wordOf (cause % 256 + ctx % 16 * 256 + bitNat note * 4096)

/-- Entries of the system queue of a core that are not traps of its own contexts (R156). -/
def ordinaryEntries (node : Nat) (l : List SysEntry) : Nat :=
  (l.filter (fun e => match e with
    | .trap n _ => n != node
    | _ => true)).length

/-- The system queue has no room for an ordinary entry, or another waits for it (R156). -/
def Core.sysFull (c : Core) (node : Nat) : Bool := decide (22 ≤ ordinaryEntries node c.sysq) || !c.sysHeld.isEmpty

/-- An ordinary entry joins the system queue of a core, or waits for one of its 22 ordinary entries (R156, R384; log 93). -/
def State.sysEntry (s : State) (node : Nat) (e : SysEntry) : State :=
  let c := s.core node
  s.setCore node (if c.sysFull node then { c with sysHeld := c.sysHeld ++ [e] } else { c with sysq := c.sysq ++ [e] })

/-- The system queue without its head; what waited for room enters it (R156). -/
def Core.takeSys (c : Core) (node : Nat) : Core :=
  let q := c.sysq.drop 1
  let n := 22 - ordinaryEntries node q
  { c with sysq := q ++ c.sysHeld.take n, sysHeld := c.sysHeld.drop n }

/-- A notice: a trap record in the system queue that parks nothing (R384, R386). -/
def State.notice (s : State) (node cause ctx : Nat) (addr info : Word) : State :=
  s.sysEntry node (.notice cause ctx addr info [])

/-- A context parks with its trap registers written, and its trap goes to the system queue (R384, R388).
The open block is discarded first; `blk` is the header that TRAPBLK takes. -/
def State.park (s : State) (node k cause blk : Nat) (addr info : Word) : State :=
  let c := (s.core node).discardBlock k
  let x := c.ctx k
  let c1 := c.setCtx k { x with status := .parked, pc := blk, miss := none, trap := ⟨trapCause cause k false, addr, wordOf blk, info⟩ }
  if k = 10 then { s.setCore node c1 with mgmt := s.mgmt ++ [.systemFault node (trapCause cause k false) addr (wordOf blk) info] }
  else s.setCore node { c1 with sysq := c1.sysq ++ [.trap node k] }

/-- Taking a parking fault that is precise at the current block of a context (R384). -/
def State.takeFault (s : State) (node k cause : Nat) (addr info : Word) : State :=
  let x := s.ctx node k
  s.park node k cause ((x.block.map (fun b => b.header)).getD x.pc) addr info

/-- Why an instruction does not complete. -/
inductive Stop where
  /-- It cannot issue in this clk (R374). -/
  | wait
  /-- It waits on an empty register, which counter 3 counts (R183). -/
  | waitEmpty
  /-- A parking fault with the TRAPADDR and TRAPINFO of its rule; none where the rule gives no value (log 6). -/
  | trap (cause : Nat) (addr info : Option Word)
  /-- A translation misses every TLB (R102). -/
  | walk (w : Walk)
  /-- It stops after n lookups that hit more than one entry, which the cluster counts (R100). -/
  | counted (n : Nat) (why : Stop)
deriving DecidableEq, Repr

/-- A value, or why there is none. -/
abbrev Res (α : Type) := Except Stop α

/-! Walkers (R102). -/

/-- Misses of one job to one 64 KiB region merge (R102). -/
def WalkMiss.same (m : WalkMiss) (job : Nat) (va : Word) : Bool := m.job == job && m.va.toNat / 65536 == va.toNat / 65536

/-- A miss merges into one that is known, is taken by a free walker, or joins the walk queue; the flag says that its walk begins. None where the walk queue is full (R102). -/
def WalkUnit.join (u : WalkUnit) (walkers : Nat) (w : Walk) : Option (WalkUnit × Bool) :=
  let add (m : WalkMiss) : WalkMiss := if m.same w.job w.va then { m with who := m.who ++ [w.who] } else m
  if (u.busy ++ u.queue).any (fun m => m.same w.job w.va) then some ({ busy := u.busy.map add, queue := u.queue.map add }, false)
  else if u.busy.length < walkers then some ({ u with busy := u.busy ++ [⟨w.job, w.va, [w.who]⟩] }, true)
  else if u.queue.length < 64 then some ({ u with queue := u.queue ++ [⟨w.job, w.va, [w.who]⟩] }, false)
  else none

/-- A walk has ended: its requesters, and the unit with the next miss of its queue, if any, taken by the free walker (R102). -/
def WalkUnit.finish (u : WalkUnit) (job : Nat) (va : Word) : List Walker × WalkUnit × Option WalkMiss :=
  let who := (u.busy.filter (fun m => m.same job va)).flatMap (fun m => m.who)
  let rest := u.busy.filter (fun m => !m.same job va)
  match u.queue with
  | m :: r => (who, ⟨rest ++ [m], r⟩, some m)
  | [] => (who, ⟨rest, []⟩, none)

/-- A miss of a core goes to its cluster's walkers; none where it waits at the core (R102). -/
def State.coreMiss (s : State) (node : Nat) (w : Walk) : Option State :=
  let n := clusterOf node
  match (s.cluster n).walks.join 4 w with
  | none => none
  | some (u, starts) =>
    let t := s.setCluster n { s.cluster n with walks := u }
    some (if starts then t.due (.pageWalkRead w) else t)

/-- A miss of a memory core goes to its walker; none where its walk queue is full (R102). -/
def State.memMiss (s : State) (node : Nat) (w : Walk) : Option State :=
  match (s.memCore node).walks.join 1 w with
  | none => none
  | some (u, starts) =>
    let t := s.setMemCore node { s.memCore node with walks := u }
    some (if starts then t.due (.pageWalkRead w) else t)

/-- Lookups of a cluster that hit more than one entry (R100). -/
def State.multiCount (s : State) (node : Nat) : Nat := (s.cluster (clusterOf node)).multi

/-- n more of them. -/
def State.countMulti (s : State) (node n : Nat) : State :=
  let k := clusterOf node
  let c := s.cluster k
  s.setCluster k { c with multi := (c.multi + n) % 2 ^ 64 }

/-- What follows a lookup of an instruction; where it stops, the lookups that the states before and after differ in are counted all the same (R100). -/
def State.afterLookup {α : Type} (s t : State) : Res α → Res α
  | .ok v => .ok v
  | .error e => if t.multiCount s.cur = s.multiCount s.cur then .error e else .error (.counted (t.multiCount s.cur + 2 ^ 64 - s.multiCount s.cur) e)

/-- A value that a rule gives, or an open one (log 6). -/
def State.given (s : State) (k : Nat) (v : Option Word) : Word := v.getD (Config.openWord (s.free + k))

/-- What becomes of an instruction that does not complete (R100, R102, R374, R384). -/
def State.stop (s : State) : Stop → State
  | .wait => s.passOver
  | .waitEmpty => { s.setMyCore { s.myCore with emptyWait := true } with stalled := true }
  | .trap cause addr info =>
    let s1 := { s with free := s.free + 2 }
    s1.takeFault s.cur s.curCtx cause (s.given 0 addr) (s.given 1 info)
  | .walk w =>
    match s.coreMiss s.cur w with
    | some t => (t.setMe { t.me with miss := some (.walking w.job w.va) }).passOver
    | none => s.passOver
  | .counted n e => State.stop (s.countMulti s.cur n) e

/-- What becomes of an instruction (R177). -/
def State.settle (s : State) : Res State → State
  | .ok t => t.advance
  | .error e => s.stop e

end Sys2Proof.Machine
end

