-- ==== Sys2Proof/Machine/Operands.lean ====
section
/-! DEFINITION. Qualification, reading and writing of operands, and the common course of an instruction (R175, R182 to R187, R200). -/

namespace Sys2Proof.Machine

/-- A register operand: a g or a v register; the flag is its empty-trap bit (R183). -/
inductive Operand where
  | g (n : Nat) (trap : Bool)
  | v (n : Nat) (trap : Bool)
deriving DecidableEq, Repr

/-- A g source that waits while empty. -/
def gsrc {n : Nat} (x : BitVec n) : Operand := .g x.toNat false

/-- A g source of format A with its ea or eb bit. -/
def gsrcE {n : Nat} (x : BitVec n) (e : BitVec 1) : Operand := .g x.toNat (e == 1)

def vsrc {n : Nat} (x : BitVec n) : Operand := .v x.toNat false

def vsrcE {n : Nat} (x : BitVec n) (e : BitVec 1) : Operand := .v x.toNat (e == 1)

/-- The state of an operand; g0 is always full (R181). -/
def Regs.stateOf (r : Regs) : Operand → RegState
  | .g n _ => if n = 0 then .full else (r.greg n).st
  | .v n _ => (r.vreg n).st

/-- TRAPINFO of the empty-register and self-wait faults (R183, R475). -/
def regInfo (op : Nat) : Operand → Word
  | .g n _ => wordOf (n + op * 256)
  | .v n _ => wordOf (n + 32 + op * 256)

/-- The register is empty, whatever its result waits for (R182). -/
def RegState.isEmpty : RegState → Bool
  | .empty | .awaitCommit | .awaitBlock => true
  | _ => false

/-- The register holds a result of the same commit interval (R120, R352). -/
def RegState.isOwn : RegState → Bool
  | .awaitCommit | .awaitBlock => true
  | _ => false

/-- A read of one operand (R182, R183). -/
def Regs.checkSource (r : Regs) (op : Nat) (o : Operand) : Res Unit :=
  match r.stateOf o with
  | .full => .ok ()
  | .empty =>
    match o with
    | .g _ true | .v _ true => .error (.trap 0x28 none (some (regInfo op o)))
    | _ => .error .waitEmpty
  | .awaitCommit | .awaitBlock => .error (.trap 0x29 none (some (regInfo op o)))
  | .poisoned => .error (.trap 0x2A none (some 0))
  | .refused => .error (.trap 0x2A none (some 1))
  | .retired => .error (.trap 0x2B none none)
  | .malformed => .error (.trap 0x2C none none)

/-- Every source can be read; the self-wait fault comes before a wait and before every other fault (R183). -/
def Regs.checkSources (r : Regs) (op : Nat) (l : List Operand) : Res Unit :=
  match l.find? (fun o => (r.stateOf o).isOwn) with
  | some o => .error (.trap 0x29 none (some (regInfo op o)))
  | none => l.forM (r.checkSource op)

/-- No destination is empty (R182). -/
def Regs.checkDests (r : Regs) (l : List Operand) : Res Unit :=
  if l.any (fun o => (r.stateOf o).isEmpty) then .error .waitEmpty else .ok ()

/-- The predicate qualifier pq (R186). -/
def Regs.qualified (r : Regs) (p : BitVec 4) : Bool :=
  r.pred (p.toNat % 8) != bitAt p.toNat 3

/-- The lanes that a lane-mask qualifier selects (Table 8-3). -/
def Regs.laneMask (r : Regs) (p : BitVec 4) : Lane :=
  if p = 0 then 0xFFFFFFFF
  else if p = 8 then r.qreg 0
  else if bitAt p.toNat 3 then ~~~(r.qreg (p.toNat % 8)) else r.qreg (p.toNat % 8)

/-- The course of a predicate-qualified instruction: sources, its own work, destinations (R175, R186, R200). -/
def State.issue (s : State) (p : BitVec 4) (op : Nat) (srcs dsts : List Operand) (body : State → Res State) : Out :=
  if s.regs.qualified p then
    .next (s.settle (do
      s.regs.checkSources op srcs
      let t ← body s
      s.regs.checkDests dsts
      pure t))
  else .next s.advance

/-- The course of a lane-masked instruction, whose work is given the active lanes (R187). -/
def State.issueLanes (s : State) (p : BitVec 4) (op : Nat) (srcs dsts : List Operand) (body : Lane → State → Res State) : Out :=
  if s.regs.laneMask p = 0 then .next s.advance
  else
    .next (s.settle (do
      s.regs.checkSources op srcs
      let t ← body (s.regs.laneMask p) s
      s.regs.checkDests dsts
      pure t))

/-- The course of a privileged instruction: in a handler context it raises the privilege fault (R195, R351). -/
def State.issuePriv (s : State) (p : BitVec 4) (op : Nat) (srcs dsts : List Operand) (body : State → Res State) : Out :=
  if s.regs.qualified p ∧ !s.isSystem then .next (s.settle (.error (.trap 0x02 none none)))
  else s.issue p op srcs dsts body

/-- An instruction whose only effect is one write of a g register, computed from the machine's registers. -/
def State.issueG (s : State) (p : BitVec 4) (op : Nat) (srcs : List Operand) (d : BitVec 5) (f : State → Word) : Out :=
  s.issue p op srcs [.g d.toNat false] (fun s => .ok (s.setRegs (s.regs.setG d.toNat (f s))))

/-- An instruction whose only effect is one write of a predicate. -/
def State.issueP (s : State) (p : BitVec 4) (op : Nat) (srcs : List Operand) (d : BitVec 3) (f : State → Bool) : Out :=
  s.issue p op srcs [] (fun s => .ok (s.setRegs (s.regs.setPred d.toNat (f s))))

/-- Whether a lane is active. -/
def laneOn (mask : Lane) (k : Nat) : Bool := bitAt mask.toNat k

/-- The active lanes, ascending. -/
def activeLanes (mask : Lane) : List Nat := setBits mask.toNat 32

/-- The lanes of a v register with the active ones replaced (R187). -/
def mergeLanes (mask : Lane) (old : Vector Lane 32) (f : Nat → Lane) : Vector Lane 32 :=
  Vector.ofFn (fun k : Fin 32 => if laneOn mask k.val then f k.val else old[k])

/-- A lane of a v register. -/
def Regs.lane (r : Regs) (v k : Nat) : Lane := (r.vreg v).lanes[k]?.getD 0

/-- Immediate reads and requests wait while a VLD of the context is unanswered (R129). -/
def Ctx.checkAcquire (x : Ctx) : Res Unit := if x.acquire.isEmpty then .ok () else .error .wait

/-- The lowest free reply slot (R162). -/
def Ctx.freeSlot (x : Ctx) : Option Nat := (List.range 16).find? (fun z => (aget x.slots z).isNone)

/-- A reply slot is reserved for a g register, or the instruction waits (R162). -/
def Ctx.reserve (x : Ctx) (reg tag : Nat) (answer : Answer) (sent : Bool) : Res (Nat × Ctx) :=
  match x.freeSlot with
  | some z => .ok (z, { x with slots := aset x.slots z { reg := reg, answer := answer, tag := tag, sent := sent } })
  | none => .error .wait

/-! The retire buffer (R116). -/

/-- Payload beats of a message (R146). -/
def beatsOf (m : Packet) : Nat := fieldOf m.w0 18 15

/-- Retire-buffer entries of an effect (Table 6-2). -/
def Effect.entries : Effect → Nat
  | .store _ n => n
  | .msg _ _ (.pop _) _ => 1
  | .msg _ _ .popFwd _ => 1
  | .msg _ _ .popLen _ => 1
  | .msg m _ _ _ => 1 + beatsOf m
  | _ => 1

def entriesOf (l : List Effect) : Nat := (l.map Effect.entries).sum

/-- An effect joins the block's buffered effects, or overflows the retire buffer (R116). -/
def State.buffer (s : State) (e : Effect) : Res State :=
  if entriesOf s.me.retire + entriesOf s.block.effects + e.entries > 512 then .error (.trap 0x12 none none)
  else .ok (s.onBlock (fun b => { b with effects := b.effects ++ [e] }))

end Sys2Proof.Machine
end

