-- ==== Sys2Proof/Machine/Keys.lean ====
section
/-! DEFINITION. Work keys, relocation of destinations, and the payloads of an invocation (R17 to R19, R145, R155, R185). -/

namespace Sys2Proof.Machine

/-! WKDESC (Table 7-2, R217). -/

/-- W bits of a number from bit lo. -/
def bitsW (x lo w : Nat) : Nat := x / 2 ^ lo % 2 ^ w

def wkLevels (d : Word) : Nat := fieldOf d 44 42

def wkWidth (d : Word) (l : Nat) : Nat := bitsW d.toNat (7 * l) 7

/-- lo(L): the sum of the widths of the levels inner to L. -/
def wkLow (d : Word) (l : Nat) : Nat := (((List.range (wkLevels d + 1)).filter (fun k => l < k)).map (wkWidth d)).sum

/-- The width of the iteration tag (R145). -/
def wkTagWidth (d : Word) : Nat := wkWidth d (wkLevels d)

/-- The iteration tag of a work key. -/
def wkTag (d : Word) (key : Word) : Nat := bitsW key.toNat 0 (wkTagWidth d)

/-- A number with w bits from bit lo replaced. -/
def insertW (x lo w v : Nat) : Nat := x - bitsW x lo w * 2 ^ lo + v % 2 ^ w * 2 ^ lo

/-- A work key with its iteration tag replaced (R155). -/
def wkPutTag (d key : Word) (t : Nat) : Word := wordOf (insertW key.toNat 0 (wkTagWidth d) t)

/-- A layout is valid (R145). -/
def wkValid (d : Word) : Bool :=
  let n := wkLevels d
  decide (n ≤ 5) && decide (d.toNat < 2 ^ 45) &&
  (List.range 6).all (fun l => if l ≤ n then decide (1 ≤ wkWidth d l) && decide (wkWidth d l ≤ 64) else wkWidth d l == 0) &&
  decide (((List.range 6).map (wkWidth d)).sum ≤ 64) && decide (5 ≤ wkTagWidth d)

/-! Relocation (R17 to R19). -/

def plBX (w : Word) : Nat := fieldOf w 6 0
def plBY (w : Word) : Nat := fieldOf w 13 8
def plWX (w : Word) : Nat := fieldOf w 22 16
def plWY (w : Word) : Nat := fieldOf w 29 24

/-- The record of a job, if a management core holds one. -/
def State.record (s : State) (job : Nat) : Option JobRecord := (aget s.jobs job).map (fun j => j.record)

/-- The PLBASE meets R18; the parity rule binds a job that uses matrix arrays. -/
def plGood (w : Word) (mx : Bool) : Bool :=
  decide (plBX w + plWX w ≤ 80) && decide (plBY w + plWY w ≤ 60) &&
  (!mx || (plBX w % 2 == 0 && plBY w % 2 == 0 && plWX w % 2 == 0 && plWY w % 2 == 0))

/-- The absolute module of a job-relative module number (R19). -/
def relocModule (r : JobRecord) (jm : Nat) : Option Nat :=
  if jm ≤ r.nmod then some (r.modmap.getD jm 0) else none

/-- Relocation of a core destination (R19): x, y and module. -/
def relocCore (pl : Word) (r : JobRecord) (jx jy jm : Nat) : Option (Nat × Nat × Nat) :=
  if jx < plWX pl ∧ jy < plWY pl ∧ plGood pl r.mx then
    (relocModule r jm).map (fun m => (plBX pl + jx, plBY pl + jy, m))
  else none

/-- The record of the job under which the current context runs; an empty one where none is held. -/
def State.myRecord (s : State) : JobRecord := (s.record s.me.jobid).getD {}

/-- NODE (R218): the node address, or the address as far as it was formed. -/
def State.formNode (s : State) (a b c : Nat) : Except Nat Nat :=
  let core := c % 4
  let jm := bits c 13 8
  let die := bits c 18 16
  if c - core - jm * 256 - bits c 15 15 * 32768 - die * 65536 ≠ 0 then .error 0
  else if bitAt c 15 then
    if core ≠ 0 ∨ a > 15 ∨ b > 255 then .error 0
    else
      match (if s.isSystem then some jm else if plGood s.myCore.plbase s.myRecord.mx then relocModule s.myRecord jm else none) with
      | none => .error 0
      | some m =>
        let n := endNode m die a b
        if goodNode s.present n then .ok n else .error n
  else if die ≠ 0 then .error 0
  else
    match (if s.isSystem then some (a, b, jm) else relocCore s.myCore.plbase s.myRecord a b jm) with
    | none => .error 0
    | some (x, y, m) =>
      let n := coreNode m (x % 128) (y % 64) core
      if goodNode s.present n ∧ x < 128 ∧ y < 64 then .ok n else .error n

/-- The bad-destination fault (R16). -/
def badDestination (node : Nat) : Stop := .trap 0x10 none (some (wordOf (node % 2 ^ 22)))

/-! Payloads (R185, R219). -/

/-- The messages that the current context reads by MOVM and VLDM. -/
def State.inputs (s : State) : List Packet := (s.me.invocation.map (fun i => i.entry.inputs)).getD []

/-- An input that an instruction may read: none above the handler's ARITY, and input 0 alone of an orphan invocation (R185, R219). -/
def State.input (s : State) (i : Nat) : Option Packet :=
  match s.me.invocation with
  | some v => if v.arity < i ∨ (v.entry.orphan ∧ i ≠ 0) then none else v.entry.inputs[i]?
  | none => none

/-- Payload word w of an input; zero at or beyond its BEATS (R185). -/
def payloadWord (m : Packet) (w : Nat) : Word := if w < 4 * beatsOf m then m.payload.getD w 0 else 0

/-- The beat of payload word w was poisoned (R185). -/
def payloadPoison (m : Packet) (w : Nat) : Bool := decide (w < 4 * beatsOf m) && m.poison.getD (w / 4) false

/-- The work key of an input, with its tag replaced by the first tag of the matched run; zero for an entry of the system queue that is no message (R219). -/
def State.inputKey (s : State) (m : Packet) : Word :=
  match s.me.invocation with
  | some i => if i.keyless then 0 else if s.isSystem then m.w1 else wkPutTag s.myCore.wkdesc m.w1 i.entry.tag
  | none => m.w1

/-- Header word 0 of an input, with RUN set to the matched run length less one for a vector message; zero for an entry of the system queue that is no message (R219). -/
def State.inputHeader (s : State) (m : Packet) : Word :=
  match s.me.invocation with
  | some i => if i.keyless then 0 else if flagOf m.w0 14 ∧ !s.isSystem then putField m.w0 13 9 (i.entry.run - 1) else m.w0
  | none => m.w0

end Sys2Proof.Machine
end

