-- ==== Sys2Proof/Machine/Local.lean ====
section
/-! DEFINITION. Access to the own quad's stores: checks, reads that see buffered writes, and opcodes 0x50 to 0x5F (R27, R28, R34 to R37, R115, R224 to R228). -/

namespace Sys2Proof.Machine

/-- The engines and paths of Table 2-3. -/
inductive Engine where
  | scalar | vector | rmw | versioned | remoteRead | remoteWrite | copyDest | payload
  | streamIn | streamOut | matrixRead | matrixWrite | config | dispatcher | snapshot
deriving DecidableEq, Repr

/-- Table 2-3: may the engine read, and may it write, the store of a select (0 G, 1 W, 2 A, 3 C)? -/
def rights : Engine → Nat → Bool × Bool
  | .scalar, 0 => (true, true) | .scalar, 1 => (true, false) | .scalar, 2 => (true, true) | .scalar, _ => (true, false)
  | .vector, 0 => (true, false) | .vector, 1 => (true, false) | .vector, _ => (true, true)
  | .rmw, 1 => (false, false) | .rmw, _ => (true, true)
  | .versioned, 0 => (true, true) | .versioned, _ => (false, false)
  | .remoteRead, _ => (true, false)
  | .remoteWrite, 1 => (false, false) | .remoteWrite, _ => (true, true)
  | .copyDest, _ => (false, true)
  | .payload, 1 => (false, false) | .payload, _ => (true, false)
  | .streamIn, 0 => (false, false) | .streamIn, _ => (false, true)
  | .streamOut, 0 => (false, false) | .streamOut, 1 => (false, false) | .streamOut, _ => (true, false)
  | .matrixRead, 1 => (true, false) | .matrixRead, 2 => (true, false) | .matrixRead, _ => (false, false)
  | .matrixWrite, 3 => (false, true) | .matrixWrite, _ => (false, false)
  | .config, 0 => (true, true) | .config, _ => (false, false)
  | .dispatcher, 0 => (true, false) | .dispatcher, _ => (false, false)
  | .snapshot, _ => (true, true)

/-- An engine may make the access. -/
def allowed (e : Engine) (sel : Nat) (write : Bool) : Bool := if write then (rights e sel).2 else (rights e sel).1

/-- Store select of a local address (R27). -/
def laSel (la : Nat) : Nat := la / 0x100000 % 4

/-- Byte offset of a local address in its store (R27). -/
def laOff (la : Nat) : Nat := la % 0x100000

/-- STACKBASE of a context (R37). -/
def stackBase (node ctx : Nat) : Nat := 0x2A000 + (nodeCore node * 11 + ctx) * 0x800

/-- The region rules of Table 2-4 for one byte of G, for a handler context. -/
def regionFault (node ctx off : Nat) (write : Bool) : Option Nat :=
  if off < 0x28000 then none
  else if off < 0x2A000 then (if write then some 0x02 else none)
  else if stackBase node ctx ≤ off ∧ off < stackBase node ctx + 0x800 then none
  else some 0x09

/-- The checks of a local access in the order of R223: range, rights, alignment, region. -/
def State.checkLocal (s : State) (op : Nat) (e : Engine) (la size : Nat) (write : Bool) (align : Nat) : Res Unit :=
  if 2 ^ 22 ≤ la ∨ storeSize (laSel la) < laOff la + size then .error (.trap 0x06 none none)
  else if !allowed e (laSel la) write then .error (.trap 0x07 (some (wordOf la)) (some (wordOf (laSel la + op * 256))))
  else if la % align ≠ 0 then .error (.trap 0x08 none none)
  else if laSel la = 0 ∧ !s.isSystem then
    match regionFault s.cur s.curCtx (laOff la) write with
    | some c => .error (.trap c none none)
    | none =>
      match regionFault s.cur s.curCtx (laOff la + size - 1) write with
      | some c => .error (.trap c none none)
      | none => .ok ()
  else .ok ()

/-- The checks of an image or save area of the configuration loader, in the order of R324 and R348: range, rights, alignment, and that it lies wholly in the job region, where no region rule fails. -/
def State.checkJobRegion (s : State) (op la size : Nat) (write : Bool) (align : Nat) : Res Unit :=
  match s.checkLocal op .config la size write align with
  | .error (.trap c x i) => .error (.trap (if c = 0x02 ∨ c = 0x09 then 0x08 else c) x i)
  | .error e => .error e
  | .ok _ => if 0x24000 < laOff la + size then .error (.trap 0x08 none none) else .ok ()

/-! Buffered writes (R115). -/

/-- The byte that the latest of a list of chunks holds for a local address. -/
def chunkByte (l : List (Nat × List Byte)) (a : Nat) : Option Byte :=
  l.foldl (fun r c => if c.1 ≤ a ∧ a < c.1 + c.2.length then c.2[a - c.1]? else r) none

/-- The latest buffered local write to a byte. -/
def bufferedByte (l : List Effect) (a : Nat) : Option Byte :=
  l.foldl (fun r e => match e with
    | .store cs _ => (chunkByte cs a).or r
    | _ => r) none

/-- A buffered AMO touches the run of bytes. -/
def amoTouches (l : List Effect) (la n : Nat) : Bool :=
  l.any (fun e => match e with
    | .amo a _ z _ _ _ => decide (a < la + n) && decide (la < a + 2 ^ z)
    | _ => false)

/-- The effects that the invocation holds since its last commit. -/
def State.held (s : State) : List Effect := s.me.retire ++ s.block.effects

/-- A local read by R115: the bytes, and whether a byte taken from the store was poisoned. -/
def State.readLocal (s : State) (op la n : Nat) : Res (List Byte × Bool) :=
  if amoTouches s.held la n then .error (.trap 0x29 (some (wordOf la)) (some (wordOf (op * 256))))
  else
    let one (k : Nat) : Byte × Bool :=
      match bufferedByte s.held (la + k) with
      | some b => (b, false)
      | none =>
        let pa := localPhys s.cur la + k
        (Memory.read s.mem pa, isPoisoned s pa)
    let l := (List.range n).map one
    .ok (l.map (·.1), l.any (·.2))

/-- A watchpoint matches an access (R365, R456). -/
def watchMatches (w : Watchpoint) (write virt : Bool) (addr size : Nat) : Bool :=
  flagOf w.ctl 0 && flagOf w.ctl (if write then 2 else 1) && (flagOf w.ctl 3 == virt) &&
  decide (w.addr.toNat < addr + size) && decide (addr < w.addr.toNat + 2 ^ fieldOf w.ctl 8 4)

/-- The watchpoints that an access of a handler context matches, of those that govern its block, are noted in the block (R456, R458). -/
def State.noteAccess (s : State) (op : Nat) (write virt : Bool) (addr size : Nat) : State :=
  if s.isSystem then s
  else
    match (List.range 4).find? (fun k => watchMatches (s.block.watch[k]?.getD {}) write virt addr size) with
    | some k => s.onBlock (fun b => { b with hits := b.hits ++ [⟨k, write, wordOf addr, op⟩] })
    | none => s

/-- Each active lane of a vector access is compared (R456). -/
def State.noteLanes (s : State) (op : Nat) (write : Bool) (mask : Lane) (addr : Nat → Nat) : State :=
  (activeLanes mask).foldl (fun t k => t.noteAccess op write false (addr k) 4) s

/-- A payload or descriptor that an instruction reads at issue is compared (R456). -/
def State.notePayload (s : State) (op la n : Nat) : State := if n = 0 then s else s.noteAccess op false false la n

/-! Loads and stores. -/

def destOf (m : Packet) : Nat := fieldOf m.w0 63 42

/-- The destination nodes of an effect: the owner of the location that it writes, or the endpoint (R111). -/
def Effect.dests : Effect → List Nat
  | .mem e => (ownerOf e.pa).toList
  | .msg m _ _ _ => [if nodeIsEnd (destOf m) then destOf m else quadOf (destOf m)]
  | .bolt m => [quadOf (destOf m)]
  | .copy _ _ _ ps _ _ _ => ps.flatMap (fun p => (ownerOf p.dst).toList)
  | _ => []

/-- An effect of the departure queue goes to the node, or an RCPY that has departed still writes at it; an immediate read does not overtake it (R121, R233). -/
def Core.departs (c : Core) (node : Nat) : Bool := c.departure.any (fun e => e.2.dests.contains node) || c.pending.any (fun p => p.copyTo.contains node)

/-- The arrivals that wait at the network interface of a node's quad, in order. -/
def State.netWait (s : State) (node : Nat) : List Packet :=
  (s.arrivals.map (·.m)).filter (fun e => !nodeIsEnd (destOf e) && quadOf (destOf e) == quadOf node)

/-- An effect of the current core on its own quad waits in the departure queue or at the quad's network interface (R121). -/
def State.behindOwn (s : State) : Bool := s.myCore.departs (quadOf s.cur) || (s.netWait s.cur).any (fun e => e.src == s.cur)

/-- A local read is an immediate read (Table 6-1): it waits for a VLD of its context, and for every effect on the own quad that its core has appended to its departure queue (R121, R129). -/
def State.readyLocal (s : State) : Res Unit := do
  s.me.checkAcquire
  if s.behindOwn then .error .wait

/-- A g register takes loaded data; poisoned data marks it, and it keeps the value that it held (R43, R184). -/
def Regs.loadG (r : Regs) (d : Nat) (w : Word) (bad : Bool) : Regs := if bad then r.markG d .poisoned else r.setG d w

/-- A v register takes loaded data; poisoned data marks it, and it keeps the value that it held (R43, R184). -/
def Regs.loadV (r : Regs) (d : Nat) (l : Vector Lane 32) (bad : Bool) : Regs := if bad then r.markV d .poisoned else r.setV d l

/-- The effective address of format M (R189). -/
def State.offAddr (s : State) (b : BitVec 5) (o : BitVec 10) (size : Nat) : Nat :=
  (s.regs.gval b.toNat + wordOfInt (o.toInt * size)).toNat

/-- A scalar load (R224). -/
def State.loadScalar (s : State) (p : BitVec 4) (op : Nat) (d b : BitVec 5) (o : BitVec 10) (size : Nat) (signed : Bool) : Out :=
  s.issue p op [gsrc b] [.g d.toNat false] (fun s => do
    s.readyLocal
    let la := s.offAddr b o size
    s.checkLocal op .scalar la size false size
    let (bs, bad) ← s.readLocal op la size
    let v := natOfBytes bs
    let w := if signed then wordOfInt (signExt v (8 * size)) else wordOf v
    pure ((s.setRegs (s.regs.loadG d.toNat w bad)).noteAccess op false false la size))

/-- A scalar store (R224). -/
def State.storeScalar (s : State) (p : BitVec 4) (op : Nat) (d b : BitVec 5) (o : BitVec 10) (size : Nat) : Out :=
  s.issue p op [gsrc d, gsrc b] [] (fun s => do
    let la := s.offAddr b o size
    s.checkLocal op .scalar la size true size
    let t ← s.buffer (.store [(la, bytesOfNat size (s.regs.gval d.toNat).toNat)] 1)
    pure (t.noteAccess op true false la size))

/-- LD.n8 (R224). -/
def execLdN8 (p : BitVec 4) (d b : BitVec 5) (o : BitVec 10) (s : State) : Out := s.loadScalar p 0x50 d b o 1 false
/-- LD.n16 (R224). -/
def execLdN16 (p : BitVec 4) (d b : BitVec 5) (o : BitVec 10) (s : State) : Out := s.loadScalar p 0x51 d b o 2 false
/-- LD.n32 (R224). -/
def execLdN32 (p : BitVec 4) (d b : BitVec 5) (o : BitVec 10) (s : State) : Out := s.loadScalar p 0x52 d b o 4 false
/-- LD.n64 (R224). -/
def execLdN64 (p : BitVec 4) (d b : BitVec 5) (o : BitVec 10) (s : State) : Out := s.loadScalar p 0x53 d b o 8 false
/-- LDS.i8 (R224). -/
def execLdsI8 (p : BitVec 4) (d b : BitVec 5) (o : BitVec 10) (s : State) : Out := s.loadScalar p 0x54 d b o 1 true
/-- LDS.i16 (R224). -/
def execLdsI16 (p : BitVec 4) (d b : BitVec 5) (o : BitVec 10) (s : State) : Out := s.loadScalar p 0x55 d b o 2 true
/-- LDS.i32 (R224). -/
def execLdsI32 (p : BitVec 4) (d b : BitVec 5) (o : BitVec 10) (s : State) : Out := s.loadScalar p 0x56 d b o 4 true
/-- ST.n8 (R224). -/
def execStN8 (p : BitVec 4) (d b : BitVec 5) (o : BitVec 10) (s : State) : Out := s.storeScalar p 0x57 d b o 1
/-- ST.n16 (R224). -/
def execStN16 (p : BitVec 4) (d b : BitVec 5) (o : BitVec 10) (s : State) : Out := s.storeScalar p 0x58 d b o 2
/-- ST.n32 (R224). -/
def execStN32 (p : BitVec 4) (d b : BitVec 5) (o : BitVec 10) (s : State) : Out := s.storeScalar p 0x59 d b o 4
/-- ST.n64 (R224). -/
def execStN64 (p : BitVec 4) (d b : BitVec 5) (o : BitVec 10) (s : State) : Out := s.storeScalar p 0x5A d b o 8

/-- LDV: the rights cover the whole access; only active lanes are read (R225). -/
def execLdv (p : BitVec 4) (d : BitVec 4) (b : BitVec 5) (o : BitVec 10) (s : State) : Out :=
  s.issueLanes p 0x5B [gsrc b] [.v d.toNat false] (fun mask s => do
    s.readyLocal
    let la := s.offAddr b o 128
    s.checkLocal 0x5B .vector la 128 false 128
    let got ← (List.range 32).mapM (fun k =>
      if laneOn mask k then s.readLocal 0x5B (la + 4 * k) 4 else .ok ([], false))
    let l := mergeLanes mask (s.regs.vreg d.toNat).lanes (fun k => .ofNat 32 (natOfBytes ((got.getD k ([], false)).1)))
    pure ((s.setRegs (s.regs.loadV d.toNat l (got.any (·.2)))).noteLanes 0x5B false mask (fun k => la + 4 * k)))

/-- The chunks of an STV: one for each 8-byte word with an active lane, the whole word where both its lanes are active. -/
def lanePairs (mask : Lane) (la : Nat) (l : Nat → Lane) : List (Nat × List Byte) :=
  (List.range 16).flatMap (fun w =>
    let lo := bytesOfNat 4 (l (2 * w)).toNat
    let hi := bytesOfNat 4 (l (2 * w + 1)).toNat
    if laneOn mask (2 * w) ∧ laneOn mask (2 * w + 1) then [(la + 8 * w, lo ++ hi)]
    else if laneOn mask (2 * w) then [(la + 8 * w, lo)]
    else if laneOn mask (2 * w + 1) then [(la + 8 * w + 4, hi)] else [])

/-- STV (R225). -/
def execStv (p : BitVec 4) (d : BitVec 4) (b : BitVec 5) (o : BitVec 10) (s : State) : Out :=
  s.issueLanes p 0x5C [vsrc d, gsrc b] [] (fun mask s => do
    let la := s.offAddr b o 128
    s.checkLocal 0x5C .vector la 128 true 128
    let t ← s.buffer (.store (lanePairs mask la (s.regs.lane d.toNat)) 5)
    pure (t.noteLanes 0x5C true mask (fun k => la + 4 * k)))

/-- LDP (R226). -/
def execLdp (p : BitVec 4) (d a b : BitVec 5) (x y : BitVec 1) (s : State) : Out :=
  s.issue p 0x5D [gsrcE a x, gsrcE b y] [.g d.toNat false, .g (d.toNat + 1) false] (fun s => do
    s.readyLocal
    let la := (s.regs.gval a.toNat + s.regs.gval b.toNat).toNat
    s.checkLocal 0x5D .scalar la 16 false 16
    let (lo, bad0) ← s.readLocal 0x5D la 8
    let (hi, bad1) ← s.readLocal 0x5D (la + 8) 8
    let r := (s.regs.loadG d.toNat (wordOf (natOfBytes lo)) bad0).loadG (d.toNat + 1) (wordOf (natOfBytes hi)) bad1
    pure ((s.setRegs r).noteAccess 0x5D false false la 16))

/-- STP (R226). -/
def execStp (p : BitVec 4) (d a b : BitVec 5) (x y : BitVec 1) (s : State) : Out :=
  s.issue p 0x5D [gsrcE a x, gsrcE b y, gsrc d, .g (d.toNat + 1) false] [] (fun s => do
    let la := (s.regs.gval a.toNat + s.regs.gval b.toNat).toNat
    s.checkLocal 0x5D .scalar la 16 true 16
    let t ← s.buffer (.store [(la, bytesOfWord (s.regs.gval d.toNat)), (la + 8, bytesOfWord (s.regs.gval (d.toNat + 1)))] 1)
    pure (t.noteAccess 0x5D true false la 16))

/-- The local address of a lane (R227). -/
def State.laneAddr (s : State) (a : BitVec 5) (b : BitVec 4) (k : Nat) : Nat :=
  (s.regs.gval a.toNat + wordOf (s.regs.lane b.toNat k).toNat).toNat

/-- LDX: every active lane is checked before any lane acts (R227). -/
def execLdx (p : BitVec 4) (d : BitVec 4) (a : BitVec 5) (b : BitVec 4) (x y : BitVec 1) (s : State) : Out :=
  s.issueLanes p 0x5E [gsrcE a x, vsrcE b y] [.v d.toNat false] (fun mask s => do
    s.readyLocal
    (activeLanes mask).forM (fun k => s.checkLocal 0x5E .vector (s.laneAddr a b k) 4 false 4)
    let got ← (List.range 32).mapM (fun k =>
      if laneOn mask k then s.readLocal 0x5E (s.laneAddr a b k) 4 else .ok ([], false))
    let l := mergeLanes mask (s.regs.vreg d.toNat).lanes (fun k => .ofNat 32 (natOfBytes ((got.getD k ([], false)).1)))
    let t := s.setRegs (s.regs.loadV d.toNat l (got.any (·.2)))
    pure (t.noteLanes 0x5E false mask (s.laneAddr a b)))

/-- STX: the lanes are drained in ascending order (R227). -/
def execStx (p : BitVec 4) (d : BitVec 4) (a : BitVec 5) (b : BitVec 4) (x y : BitVec 1) (s : State) : Out :=
  s.issueLanes p 0x5E [gsrcE a x, vsrcE b y, vsrc d] [] (fun mask s => do
    (activeLanes mask).forM (fun k => s.checkLocal 0x5E .vector (s.laneAddr a b k) 4 true 4)
    let t ← s.buffer (.store ((activeLanes mask).map (fun k =>
      (s.laneAddr a b k, bytesOfNat 4 (s.regs.lane d.toNat k).toNat))) 9)
    pure (t.noteLanes 0x5E true mask (s.laneAddr a b)))

/-- AMO: sub [3:0] the operation, sub [4] the size (R228). -/
def execAmo (p : BitVec 4) (d a b : BitVec 5) (t : BitVec 5) (s : State) : Out :=
  let kind := t.toNat % 16
  let z := if bitAt t.toNat 4 then 3 else 2
  s.issue p 0x5F ([gsrc a, gsrc b] ++ (if kind = 9 then [gsrc d] else [])) [.g d.toNat false] (fun s => do
    let la := (s.regs.gval a.toNat).toNat
    s.checkLocal 0x5F .rmw la (2 ^ z) true (2 ^ z)
    let t ← s.buffer (.amo la kind z (s.regs.gval b.toNat) (s.regs.gval d.toNat) d.toNat)
    let t := t.setRegs (t.regs.markG d.toNat .awaitCommit)
    pure ((t.noteAccess 0x5F false false la (2 ^ z)).noteAccess 0x5F true false la (2 ^ z)))

end Sys2Proof.Machine
end

