-- ==== Sys2Proof/Machine/Translate.lean ====
section
/-! DEFINITION. Address translation: page tables, TLBs and walks (R24, R25, R93 to R106). -/

namespace Sys2Proof.Machine

/-- The kinds of access of Table 5-5. -/
inductive AccessKind where
  | fetch | read | write | atomic | copySource | copyDest
deriving DecidableEq, Repr

def AccessKind.code : AccessKind → Nat
  | .fetch => 0 | .read => 1 | .write => 2 | .atomic => 3 | .copySource => 4 | .copyDest => 5

/-- Low bit of the index field, and of the page size, of a level (Table 5-1). -/
def levelShift : Nat → Nat
  | 0 => 32
  | 1 => 28
  | 2 => 21
  | _ => 16

/-- Index(va, lvl) (Table 5-1). -/
def levelIndex (va lvl : Nat) : Nat :=
  match lvl with
  | 0 => bits va 47 32
  | 1 => bits va 31 28
  | 2 => bits va 27 21
  | _ => bits va 20 16

def pageSize (lvl : Nat) : Nat := 2 ^ levelShift lvl

/-- A physical address in the HBM range of Table 1-3. -/
def inHbm (pa : Nat) : Bool := decide (pa < 2 ^ 52) && decide (pa % 2 ^ 46 < 2 ^ 39)

/-- Field ADDR of an entry, as an address (Table 5-2). -/
def pteAddr (e : Word) : Nat := fieldOf e 51 8 * 256

/-- Two runs of addresses meet. -/
def overlap (a n b m : Nat) : Bool := decide (0 < n) && decide (0 < m) && decide (a < b + m) && decide (b < a + n)

/-- The HBM ranges that no leaf may map (R96). -/
def State.closedRanges (s : State) : List (Nat × Nat) := s.dies.flatMap (fun d => d.2.closedRanges)

/-- Invalid(e, lvl) (R96). -/
def State.pteInvalid (s : State) (e : Word) (lvl : Nat) : Bool :=
  let leaf := flagOf e 1
  let n := pageSize lvl
  let a := pteAddr e
  flagOf e 7 || (fieldOf e 63 52 != 0) ||
  (if leaf then
    (a % n != 0) ||
    (decide (lvl < 3) && overlap (a % 2 ^ 46) n storeWindows 0x400000000) ||
    (flagOf e 3 && !flagOf e 2) ||
    (flagOf e 4 && overlap (a % 2 ^ 46) n storeWindows 0x400000000) ||
    (flagOf e 5 && flagOf e 6) ||
    s.closedRanges.any (fun r => overlap a n r.1 r.2)
  else (fieldOf e 6 2 != 0) || (lvl == 3) || !inHbm a)

/-- The permissions of Table 5-3. -/
def permitted (e : Word) : AccessKind → Bool
  | .fetch => flagOf e 4
  | .read | .copySource => flagOf e 2
  | .write | .copyDest => flagOf e 3
  | .atomic => flagOf e 2 && flagOf e 3

/-- What one entry of a page table leads to (R94). -/
inductive WalkStep where
  | leaf (e : Word)
  | next (table : Nat)
  /-- Cause code, and whether the entry was poisoned. -/
  | fault (cause : Nat) (poison : Bool)
deriving DecidableEq, Repr

/-- Reads the entry of a walk (R94). -/
def State.walkRead (s : State) (va lvl table : Nat) : WalkStep :=
  let a := table + 8 * levelIndex va lvl
  let e := Memory.word s.mem a
  if isPoisoned s a then .fault 0x22 true
  else if !flagOf e 0 then .fault 0x20 false
  else if s.pteInvalid e lvl then .fault 0x22 false
  else if flagOf e 1 then .leaf e
  else .next (pteAddr e)

/-! TLBs (R99, R100). -/

def TlbEntry.size (e : TlbEntry) : Nat := pageSize e.level

/-- The entry holds the address for the job (R100). -/
def TlbEntry.hits (e : TlbEntry) (job va : Nat) : Bool :=
  e.job == job && decide (e.base ≤ va) && decide (va < e.base + e.size)

/-- The entry that a lookup uses: the smallest page, then the lowest position (R100). -/
def tlbPick (l : List TlbEntry) (job va : Nat) : Option TlbEntry :=
  let h := l.filter (fun e => e.hits job va)
  [3, 2, 1, 0].findSome? (fun lvl => h.find? (fun e => e.level == lvl))

/-- More than one entry hits (R100). -/
def tlbMulti (l : List TlbEntry) (job va : Nat) : Bool := decide (1 < (l.filter (fun e => e.hits job va)).length)

/-- An entry is added; the oldest leaves a full TLB (log 9). -/
def tlbAdd (cap : Nat) (l : List TlbEntry) (e : TlbEntry) : List TlbEntry :=
  if l.contains e then l else (if cap ≤ l.length then l.drop 1 else l) ++ [e]

/-- Set of an entry in the second-level TLB: VPN mod 256 (Table 5-4). -/
def TlbEntry.set (e : TlbEntry) : Nat := e.base / e.size % 256

/-- An entry is added to its set of eight ways; the oldest of a full set leaves (Table 5-4, log 9). -/
def tlbAddSet (l : List TlbEntry) (e : TlbEntry) : List TlbEntry :=
  if l.contains e then l
  else
    let same := l.filter (fun x => x.set == e.set)
    (if 8 ≤ same.length then l.erase (same.headD e) else l) ++ [e]

/-- The leaf as an entry of a TLB. -/
def leafEntry (job va lvl : Nat) (e : Word) : TlbEntry := ⟨job, va / pageSize lvl * pageSize lvl, lvl, e⟩

/-- The physical address that a leaf gives (R94). -/
def TlbEntry.phys (e : TlbEntry) (va : Nat) : Nat := pteAddr e.pte + va % e.size

/-- PTROOT of a job; open where no record of the job is held (log 7). -/
def State.ptroot (s : State) (job : Nat) : Nat :=
  match s.record job with
  | some r => r.ptroot
  | none => fieldOf (Config.openWord s.free) 51 8 * 256

/-- TRAPINFO of a translation fault (Table 5-5). -/
def walkInfo (lvl : Nat) (k : AccessKind) (cmt poi : Bool) (op : Nat) : Word :=
  wordOf (lvl + k.code * 4 + bitNat cmt * 32 + bitNat poi * 64 + op * 256)

/-- The translation of an address that a TLB entry gives: permission (R97), then the physical map (R23). -/
def State.useLeaf (e : TlbEntry) (va : Nat) (k : AccessKind) : Except Nat Nat :=
  if !permitted e.pte k then .error 0x21
  else
    match placeOf (e.phys va) with
    | .reserved => .error 0x23
    | _ => .ok (e.phys va)

/-- A core's lookup: its own TLB, then the cluster's, whose hit fills the core's (R99, R100). -/
def State.coreLookup (s : State) (node : Nat) (fetch : Bool) (job va : Nat) : Option TlbEntry × State :=
  let c := s.core node
  let l1 := if fetch then c.itlb else c.dtlb
  let cl := s.cluster (clusterOf node)
  match tlbPick l1 job va with
  | some e => (some e, if tlbMulti l1 job va then s.countMulti node 1 else s)
  | none =>
    match tlbPick cl.tlb job va with
    | some e =>
      let s1 := if tlbMulti cl.tlb job va then s.countMulti node 1 else s
      (some e, s1.setCore node (if fetch then { c with itlb := tlbAdd 16 c.itlb e } else { c with dtlb := tlbAdd 32 c.dtlb e }))
    | none => (none, s)

/-- An ended walk of a job's 64 KiB region has no fault to report any longer, since a TLB holds the region again (R104, R109). -/
def Ctx.forgetMiss (x : Ctx) (job va : Nat) : Ctx :=
  match x.miss with
  | some (.failed j a _ _ _) => if j = job ∧ a.toNat / 65536 = va / 65536 then { x with miss := none } else x
  | _ => x

/-- Translation at issue in the current context (R103, R104): the physical address, a fault, or a walk to wait for. -/
def State.translate (s : State) (k : AccessKind) (op va : Nat) : Res (Nat × State) :=
  let job := s.me.jobid
  let fetch := k == .fetch
  let fail (cause lvl : Nat) (poi : Bool) : Stop := .trap cause (some (wordOf va)) (some (walkInfo lvl k false poi op))
  let walk : Stop :=
    if !inHbm (s.ptroot job) then fail 0x23 0 false
    else .walk ⟨if fetch then .coreFetch s.cur s.curCtx else .coreData s.cur s.curCtx, job, wordOf va, 0, s.ptroot job, false⟩
  match s.coreLookup s.cur fetch job va with
  | (some e, t) =>
    s.afterLookup t (match State.useLeaf e va k with
    | .ok pa => .ok (pa, t.setMe (t.me.forgetMiss job va))
    | .error c => .error (fail c e.level false))
  | (none, _) =>
    match s.me.miss with
    | some (.failed j a cause lvl poi) => if j = job ∧ a.toNat / 65536 = va / 65536 then .error (fail cause lvl poi) else .error walk
    | some (.walking _ _) => .error .wait
    | none => .error walk

/-! A whole walk, as the units outside the cores make it, and a core whose effect departs. -/

/-- A walk from a level and table, of at most n entries: the entry of the leaf, or the cause of the fault. -/
def State.walkFrom (s : State) (job va : Nat) : Nat → Nat → Nat → Except Nat TlbEntry
  | 0, _, _ => .error 0x22
  | n + 1, lvl, table =>
    match s.walkRead va lvl table with
    | .leaf e => .ok (leafEntry job va lvl e)
    | .next t => State.walkFrom s job va n (lvl + 1) t
    | .fault c _ => .error c

/-- A whole walk of a job's tables (R94). -/
def State.walkAll (s : State) (job va : Nat) : Except Nat TlbEntry :=
  if !inHbm (s.ptroot job) then .error 0x23 else s.walkFrom job va 4 0 (s.ptroot job)

/-- A translation by a whole walk, for an access of a kind (R94, R97). -/
def State.walkTo (s : State) (job va : Nat) (k : AccessKind) : Except Nat Nat := do
  let e ← s.walkAll job va
  State.useLeaf e va k

/-- The checks of a virtual address before its translation (R24, R28). -/
def checkVirtual (va align : Nat) : Res Unit :=
  if 2 ^ 48 ≤ va then .error (.trap 0x05 none none)
  else if va % align ≠ 0 then .error (.trap 0x08 none none)
  else .ok ()

end Sys2Proof.Machine
end

