-- ==== Sys2Proof/Machine/Net.lean ====
section
/-! DEFINITION. Messages: headers, remote operations, answers, and the step that performs an arriving message (R146 to R150, R162, R229). -/

namespace Sys2Proof.Machine

/-! Header word 0 (Table 7-3). -/

def Packet.none : Packet := { w0 := 0, w1 := 0 }

/-- Header word 0 from its fields; VN follows from the kind (R146). -/
def msgHeader (node pri hidx job beats : Nat) (vec : Bool) (run : Nat) (sc : Bool) (xf kind : Nat) : Word :=
  wordOf (node % 2 ^ 22 * 2 ^ 42 + bitNat (kind == 1) * 2 ^ 41 + pri % 4 * 2 ^ 39 + hidx % 256 * 2 ^ 31 + job % 4096 * 2 ^ 19 +
    beats % 16 * 2 ^ 15 + bitNat vec * 2 ^ 14 + run % 32 * 2 ^ 9 + bitNat sc * 2 ^ 8 + xf % 32 * 2 ^ 3 + kind % 4)

def priOf (m : Packet) : Nat := fieldOf m.w0 40 39
def hidxOf (m : Packet) : Nat := fieldOf m.w0 38 31
def jobOf (m : Packet) : Nat := fieldOf m.w0 30 19
def vecOf (m : Packet) : Bool := flagOf m.w0 14
def runOf (m : Packet) : Nat := fieldOf m.w0 13 9
def kindOf (m : Packet) : Nat := fieldOf m.w0 1 0
def boltOf (m : Packet) : Bool := flagOf m.w0 2

/-- An end-of-stream marker (Table 7-3). -/
def isMarker (m : Packet) : Bool := !vecOf m && (runOf m == 31)

/-- The run length of a message (Table 7-3). -/
def lengthOf (m : Packet) : Nat := if vecOf m then runOf m + 1 else 1

/-- The payload bytes of a message. -/
def bytesOf (m : Packet) : List Byte := bytesOfWords m.payload

/-- A beat of words, filled with zeros. -/
def beat (l : List Word) : List Word := fit 4 0 l

/-- ACLASS of a destination for an issuing core (R148). -/
def aclassOf (node dest : Nat) : Nat :=
  if nodeModule node ≠ nodeModule dest then 2
  else if !nodeIsEnd dest ∧ quadOf dest = quadOf node then 0 else 1

/-! Atomic messages (R147, R229). -/

def opOf (m : Packet) : Nat := fieldOf m.w1 5 0
def sizeOf (m : Packet) : Nat := fieldOf m.w1 7 6
def addrOf (m : Packet) : Nat := fieldOf m.w1 43 8

/-- Destination node and address field of a physical address (R147). -/
def remoteAddr (pa : Nat) : Nat × Nat :=
  match placeOf pa with
  | .store q sel off => (q, sel * 0x100000 + off)
  | .hbm c => (c, pa % 2 ^ 36 / 256 / 160 * 256 + pa % 256)
  | .reserved => (0, 0)

/-- The physical address that an atomic message names at its destination (R147). -/
def physOf (m : Packet) : Nat :=
  let n := destOf m
  let a := addrOf m
  if nodeIsEnd n then
    nodeModule n * 2 ^ 46 + nodeDie n * 2 ^ 36 + (a / 256 * 160 + nodeIndex n) * 256 + a % 256
  else localPhys (quadOf n) a

/-- A message with FPFLAGS as they stand at the issue of its instruction, in XF (R149). -/
def withFlags (f : BitVec 5) (m : Packet) : Packet := { m with w0 := putField m.w0 7 3 f.toNat }

/-- A remote operation of Table 10-3 on a physical address. -/
def remoteOp (src op size pa hidx job tag : Nat) (payload : List Word) : Packet :=
  let (n, a) := remoteAddr pa
  let b := (payload.length + 3) / 4
  { w0 := msgHeader n 0 hidx job b false 0 false 0 2
    w1 := wordOf (op + size * 64 + a * 256)
    payload := fit (4 * b) 0 payload
    poison := List.replicate b false
    src := src
    aclass := aclassOf src n
    tag := tag }

/-- An engine's answer word (R352). -/
def engineWord (value status detail : Nat) : Word := wordOf (value % 2 ^ 32 + status % 256 * 2 ^ 32 + detail % 256 * 2 ^ 40)

/-- The acknowledgement selector (R162). -/
def ackSelector : Nat := 0xE0

/-- The answer of an effect that gives no result. -/
def plainAnswer : Answer := .effect 0xFF 0

/-! Delivery. -/

/-- The step that performs a message at its destination (R150, R157, R162, R229, Tables 3-1 and 3-6). An endpoint accepts no reply of a REPLY instruction (R150). An engine command for which the endpoint has no command (a matrix, seal or trace code that no table lists) is refused, and every engine command to a management core counts as a TRIGGER: R150 accepts the kind and names no outcome, so both are the model's DESIGN CHOICE (log 109). -/
def route (m : Packet) : Event :=
  let n := destOf m
  let code := numAt (bytesOf m) 0 1
  if kindOf m = 1 then
    if nodeIsEnd n ∧ m.wantAck then .refusedOperation m
    else if hidxOf m = 0xE0 then .acknowledgement m
    else if hidxOf m = 0xF0 then .keySetReply m
    else .replySlotFill m
  else if kindOf m = 2 then
    if !nodeIsEnd n ∨ nodeClass n = 0 then
      match opOf m with
      | 0x00 => .remoteRead m
      | 0x01 => .remoteWrite m
      | 0x02 => .remoteAtomicAdd m
      | 0x03 => .remoteAtomicAnd m
      | 0x04 => .remoteAtomicOr m
      | 0x05 => .remoteAtomicXor m
      | 0x06 => .remoteAtomicMin m
      | 0x07 => .remoteAtomicMax m
      | 0x08 => .remoteAtomicMinn m
      | 0x09 => .remoteAtomicMaxn m
      | 0x0A => .remoteAtomicSwap m
      | 0x0B => .remoteAtomicCas m
      | 0x20 => .copy m
      | 0x21 => .copyBeat m
      | 0x10 => if nodeIsEnd n then .refusedOperation m else .versionedRead m
      | 0x11 => if nodeIsEnd n then .refusedOperation m else .versionedWrite m
      | 0x12 => if nodeIsEnd n then .refusedOperation m else .versionRetire m
      | 0x18 => if nodeIsEnd n then .refusedOperation m else .tumblerIncrement m
      | 0x19 => if nodeIsEnd n then .refusedOperation m else .tumblerDecrement m
      | 0x1A => if nodeIsEnd n then .refusedOperation m else .tumblerArm m
      | 0x1B => if nodeIsEnd n then .refusedOperation m else .tumblerRead m
      | _ => .refusedOperation m
    else .refusedOperation m
  else if !nodeIsEnd n then
    if kindOf m = 3 then .refusedOperation m
    else if boltOf m then .boltArrival m
    else .handlerMessageArrival m
  else if nodeClass n = 3 then .hostPortReceive m
  else if kindOf m = 0 then .refusedOperation m
  else
    match nodeClass n, code with
    | 0, 1 => .go m
    | 0, 2 => .ext m
    | 0, 3 => .stop m
    | 0, 4 => .resume m
    | 0, 5 => .pull m
    | 0, _ => .invalidStreamCommand m
    | 1, _ => .collectivePerform m
    | 2, 1 => .sealOpenPerform m
    | 2, 2 => .sealFramePerform m
    | 2, 3 => .sealClosePerform m
    | 4, 1 => .push m
    | 4, 2 => .pop m
    | 4, 3 => .len m
    | 4, 4 => .create m
    | 4, 5 => .destroy m
    | 4, _ => .invalidQueueCommand m
    | 5, _ => .triggerCount m
    | 7, 0x80 => .leaseRequest m
    | 7, 0x81 => .arrayRel m
    | 7, 0x82 => .arrayCtx m
    | 7, 0x83 => .arrayPanel m
    | 7, 0x84 => .arrayPanel m
    | 7, 0x85 => .arrayRun m
    | 7, 0x86 => .arrayZero m
    | 7, 0x87 => .arrayDrain m
    | 7, 0x88 => .arrayRaw m
    | 7, 0x89 => .arraySort m
    | _, _ => .refusedOperation m

/-- A message travels to its destination. -/
def State.send (s : State) (m : Packet) : State := s.due (route m)

/-- What an arrival does; at a paused memory core it waits on VN0 (R473). -/
def State.unlessPaused (s : State) (m : Packet) (o : Out) : Out :=
  let c := s.memCore (destOf m)
  if c.paused then .next (s.setMemCore (destOf m) { c with held := c.held ++ [m] }) else o

/-- The memory core that owns an address of HBM is paused (R473). -/
def State.pausedAt (s : State) (pa : Nat) : Bool :=
  match placeOf pa with
  | .hbm c => (s.memCore c).paused
  | _ => false

/-- The answer to a request, on VN1 to the sideband address, with an optional payload beat (R148, R162, R229). -/
def answerTo (req : Packet) (status : Nat) (payload : List Word) (poison : Bool) : Packet :=
  let b := (payload.length + 3) / 4
  { w0 := msgHeader req.src 0 (if kindOf req ≤ 1 then ackSelector else hidxOf req) (jobOf req) b false 0 false 0 1
    w1 := wordOf (status % 256 + req.aclass * 2 ^ 14)
    payload := fit (4 * b) 0 payload
    poison := List.replicate b poison
    src := destOf req
    aclass := req.aclass
    tag := req.tag }

/-- The state with the answer to a request under way. -/
def State.answer (s : State) (req : Packet) (status : Nat) (payload : List Word := []) (poison : Bool := false) : State :=
  s.send (answerTo req status payload poison)

/-- An engine accepts a command: the issuer is told so once (R111). -/
def State.acceptCommand (s : State) (m : Packet) : State :=
  if m.counted then s else s.answer { m with w0 := putField m.w0 38 31 ackSelector } 0

/-- STATUS of a reply (R147). -/
def statusOf (m : Packet) : Nat := fieldOf m.w1 7 0

/-- A key-set reply to a core (R147, R162). -/
def keySetTo (node src key : Nat) : Packet :=
  { w0 := msgHeader node 0 0xF0 0 0 false 0 false 0 1, w1 := wordOf (key % 64 * 256), src := src }

/-- The key-set reply for the key of a PULL, which is not in flight: it bears a name (R71, R251). -/
def pullSetTo (node src key : Nat) : Packet := { keySetTo node src key with tag := 1 }

/-- A tumbler operation on the quad of a node (R229, R248). -/
def tumblerOp (src op node index amount hidx job tag : Nat) (payload : List Word) : Packet :=
  let n := if nodeIsEnd node then node else quadOf node
  let b := (payload.length + 3) / 4
  { w0 := msgHeader n 0 hidx job b false 0 false 0 2
    w1 := wordOf (op + (index % 512 + amount % 2 ^ 24 * 512) * 256)
    payload := fit (4 * b) 0 payload
    poison := List.replicate b false
    src := src
    aclass := aclassOf src n
    tag := tag }

/-- A shootdown's range met the effect after its translation (R107). -/
def Effect.isMarked : Effect → Bool
  | .mem e => e.marked
  | .copy _ _ _ _ m _ _ => m
  | _ => false

/-- A new name for a request of a core (log 8). -/
def State.freshTag (s : State) (node : Nat) : Nat × State :=
  let c := s.core node
  (c.nextTag, s.setCore node { c with nextTag := c.nextTag + 1 })

end Sys2Proof.Machine
end

