-- ==== Sys2Proof/Machine/Trace.lean ====
section
/-! DEFINITION. Trace records and the digest of a dispatch (R446, R449 to R453, R460). -/

namespace Sys2Proof.Machine

/-- The base-die node of a core, a quad or an endpoint. -/
def dieNode (n : Nat) : Nat := endNode (nodeModule n) (if nodeIsEnd n then nodeDie n else dieOf n) 4 0

/-- CYCLE of the die of a node (R446). -/
def State.cycle (s : State) (n : Nat) : Nat := (s.clk - (s.die (dieNode n)).start) % 2 ^ 64

/-- A trace record (Table 24-2); ext is empty or four words. -/
def traceRecord (kind job node ctx a time blk b : Nat) (frame : Word) (ext : List Word) : List Word :=
  [wordOf (kind % 16 + job % 4096 * 2 ^ 4 + node % 2 ^ 22 * 2 ^ 16 + ctx % 16 * 2 ^ 38 + a % 2 ^ 22 * 2 ^ 42),
   wordOf time, wordOf (blk % 2 ^ 48 + b % 65536 * 2 ^ 48), frame] ++ (if ext.isEmpty then [] else fit 4 0 ext)

/-- A record joins the core's trace buffer, after a LOST record where records were dropped; a full buffer drops it, except DIVERGE, which waits for room (R451, R452). -/
def Core.emit (c : Core) (r lost : List Word) : Core :=
  let buf := c.dbg.traceBuf
  let add : List (List Word) := if c.dbg.traceLost ≠ 0 then [lost, r] else [r]
  if fieldOf (r.headD 0) 3 0 ≠ 10 ∧ 16 < buf.length + add.length then
    { c with dbg := { c.dbg with traceLost := min (c.dbg.traceLost + 1) (2 ^ 22 - 1) } }
  else { c with dbg := { c.dbg with traceBuf := buf ++ add, traceLost := 0 } }

/-- A record of a core is emitted (R450 to R452). -/
def State.emitTrace (s : State) (node ctx kind a blk b : Nat) (ext : List Word) : State :=
  let x := s.ctx node ctx
  let frame := if ctx < 11 then x.invser else 0
  let own := ((s.quad node).job).getD 0
  let r := traceRecord kind (if ctx < 11 then x.jobid else own) node ctx a (s.cycle node) blk b frame ext
  let l := traceRecord 6 own node 15 (s.core node).dbg.traceLost (s.cycle node) 0 0 0 []
  s.setCore node ((s.core node).emit r l)

/-- Records are emitted whose condition is met; none in the system's unused slots. -/
def State.traceIf (s : State) (c : Bool) (node ctx kind a blk b : Nat) (ext : List Word) : State :=
  if c then s.emitTrace node ctx kind a blk b ext else s

/-- A bit of a core's trace-control word, with EN (R364, R449). -/
def Core.traces (c : Core) (n : Nat) : Bool := flagOf c.dbg.traceCtl 0 && flagOf c.dbg.traceCtl n

/-! The trace unit of a die (R447, R448, R451). -/

/-- A record is written at the end of the die's trace ring, after a LOST record of the unit where records were dropped; a ring without room for both drops it (R448, R451). `sealed` clears bytes 32 to 63 of MARK and MSG records. -/
def State.ringWrite (s : State) (die : Nat) (r : List Word) (sealed : Bool) : State :=
  let d := s.die die
  let kind := fieldOf (r.headD 0) 3 0
  let lost : List Word := if d.ringLost = 0 then [] else
    traceRecord 6 0 (endNode (nodeModule die) (nodeDie die) 6 0) 15 d.ringLost (s.cycle die) 0 0 0 []
  let bs := bytesOfWords (lost ++ (if sealed && (kind == 3 || kind == 4) then r.take 4 ++ List.replicate 4 0 else r))
  if d.ringSize < d.ringIn - d.ringOut + bs.length then s.setDie die { d with ringLost := min (d.ringLost + 1) (2 ^ 22 - 1) }
  else
    { s.setDie die { d with ringIn := d.ringIn + bs.length, ringLost := 0 } with
      mem := (List.range bs.length).foldl (fun m k => Memory.write m (d.ringBase + (d.ringIn + k) % d.ringSize) (bs.getD k 0)) s.mem }

/-- The low halves of up to eight words, two to a word (Table 24-3). -/
def halves (l : List Word) : List Word :=
  (List.range 4).map (fun k => wordOf (fieldOf (l.getD (2 * k) 0) 31 0 + fieldOf (l.getD (2 * k + 1) 0) 31 0 * 2 ^ 32))

/-- The SKEW record of a die's unit, and die 0's MSKEW record (R447, R451). -/
def State.emitSkew (s : State) (die : Nat) : State :=
  let d := s.die die
  let unit := endNode (nodeModule die) (nodeDie die) 6 0
  let s1 := s.ringWrite die (traceRecord 7 0 unit 15 0 (s.cycle die) 0 0 0 (halves d.skews)) false
  if nodeDie die = 0 then s1.ringWrite die (traceRecord 8 0 unit 15 0 (s.cycle die) 0 0 0 (halves d.mskews)) false else s1

/-! CRC-32C (R460). -/

/-- One bit of the reflected CRC with polynomial 0x1EDC6F41, which is 0x82F63B78 reflected. -/
def crcBit (c : Nat) : Nat := if c % 2 = 1 then (c / 2) ^^^ 0x82F63B78 else c / 2

def crcByte (c : Nat) (b : Byte) : Nat := (List.range 8).foldl (fun x _ => crcBit x) (c ^^^ b.toNat)

/-- CRC-32C of a list of bytes (R460). -/
def crc32c (l : List Byte) : Nat := (l.foldl crcByte 0xFFFFFFFF) ^^^ 0xFFFFFFFF

/-- The header word 0 that MOVM HDR returns for an input of an entry (R219). -/
def entryHeader (e : QEntry) (m : Packet) : Word := if vecOf m then putField m.w0 13 9 (e.run - 1) else m.w0

/-- The digest of a dispatch (R460). -/
def digest (wkdesc : Word) (e : QEntry) : Nat :=
  crc32c (e.inputs.flatMap (fun m =>
    bytesOfWord (putField (putField (entryHeader e m) 63 42 0) 2 2 0) ++
    bytesOfWord (wkPutTag wkdesc m.w1 e.tag) ++ (bytesOf m).take (32 * beatsOf m)))

end Sys2Proof.Machine
end

