-- ==== Sys2Proof/Machine/Traps.lean ====
section
/-! DEFINITION. Queues of a core, and the return from a trap: resuming, killing and moving an invocation (R114, R154, R164, R166, R359, R376). -/

namespace Sys2Proof.Machine

/-! Handler queues and spill lists (R164). -/

def CoreQueues.queueAt (q : CoreQueues) (p : Nat) : List QEntry := q.queue[p]?.getD []
def CoreQueues.spillAt (q : CoreQueues) (p : Nat) : List QEntry := q.spill[p]?.getD []
def CoreQueues.refillAt (q : CoreQueues) (p : Nat) : Option QEntry := (q.refill[p]?).getD none
def CoreQueues.depthAt (q : CoreQueues) (p : Nat) : Nat := q.depth[p]?.getD 0
def CoreQueues.pausedAt (q : CoreQueues) (p : Nat) : Bool := q.paused[p]?.getD false
def CoreQueues.setQueue (q : CoreQueues) (p : Nat) (l : List QEntry) : CoreQueues := { q with queue := q.queue.setIfInBounds p l }
def CoreQueues.setSpill (q : CoreQueues) (p : Nat) (l : List QEntry) : CoreQueues := { q with spill := q.spill.setIfInBounds p l }
def CoreQueues.setRefill (q : CoreQueues) (p : Nat) (r : Option QEntry) : CoreQueues := { q with refill := q.refill.setIfInBounds p r }
def CoreQueues.setPaused (q : CoreQueues) (p : Nat) (b : Bool) : CoreQueues := { q with paused := q.paused.setIfInBounds p b }

/-- An entry of priority p goes to the spill list (R164). -/
def CoreQueues.spills (q : CoreQueues) (p : Nat) : Bool :=
  decide (q.depthAt p ≤ (q.queueAt p).length) || !(q.spillAt p).isEmpty || (q.refillAt p).isSome

/-- An entry joins the tail of its priority's queue or spill list; none where the region has no slot for it (R70, R164). -/
def State.enqueue (s : State) (node p : Nat) (e : QEntry) : Option State :=
  let c := s.core node
  if c.q.spills p then
    let d := s.die (dieNode node)
    let n := (c.q.spillAt p).length
    if !d.accepts n then none
    else
      let c1 := { c with q := c.q.setSpill p (c.q.spillAt p ++ [e]) }.count 8 1
      some ((s.setCore node c1).setDie (dieNode node) (d.relist n (n + 1)))
  else some (s.setCore node { c with q := c.q.setQueue p (c.q.queueAt p ++ [e]) })

/-- The priority of an entry: the highest among its inputs (R158). -/
def QEntry.pri (e : QEntry) : Nat := e.inputs.foldl (fun a m => min a (priOf m)) 3

/-- A dispatching entry goes back to the head of its priority's queue (R166). -/
def Core.returnEntry (c : Core) (e : QEntry) : Core :=
  { c with q := c.q.setQueue e.pri (e :: c.q.queueAt e.pri) }

/-! Ends of an invocation. -/

/-- The matrix array slot of a core in its cluster (R284). -/
def slotOf (node : Nat) : Nat := (nodeY node % 2 * 2 + nodeX node % 2) * 4 + nodeCore node

/-- Header word 0 of a command to the matrix array of a core's cluster; the completion reply has its own selector (R289, Table 12-2). -/
def mxHeader (node job : Nat) : Word := msgHeader (clusterOf node) 0 ackSelector job 1 false 0 false 0 3

/-- A command record: code, sub field, reply selector where a completion reply is asked for, and operands (Table 12-2). -/
def mxRecord (code sub : Nat) (sel : Option Nat) (a b c : Word) : List Word :=
  [wordOf (code + sub % 32 * 2 ^ 8 + bitNat sel.isSome * 2 ^ 13 + sel.getD 0 % 256 * 2 ^ 14), a, b, c]

/-- A matrix command of a context (R289). -/
def mxPacket (node ctx job : Nat) (inv : Word) (record : List Word) : Packet :=
  { w0 := mxHeader node job, w1 := 0, payload := record, poison := [false]
    src := node, aclass := aclassOf node (clusterOf node), ctx := ctx, inv := inv }

/-- The release of a hasp, as a command of the context to its array (R286, R301). -/
def releaseCommand (node ctx : Nat) (x : Ctx) : Packet := mxPacket node ctx x.jobid x.invser (mxRecord 0x81 0 none 0 0 0)

/-! Fields of a command record (Table 12-2). -/

def mxCode (m : Packet) : Nat := fieldOf (m.payload.headD 0) 7 0
def mxSub (m : Packet) : Nat := fieldOf (m.payload.headD 0) 12 8
def mxReplies (m : Packet) : Bool := flagOf (m.payload.headD 0) 13
def mxSel (m : Packet) : Nat := fieldOf (m.payload.headD 0) 21 14
def mxA (m : Packet) : Word := m.payload.getD 1 0
def mxB (m : Packet) : Word := m.payload.getD 2 0
def mxC (m : Packet) : Word := m.payload.getD 3 0

/-- The message is a command to a matrix array. -/
def isMatrix (m : Packet) : Bool := kindOf m == 3 && nodeIsEnd (destOf m) && nodeClass (destOf m) == 7

/-- Rows and columns of a window word: first and count (R299). -/
def winRow (w : Word) : Nat := fieldOf w 6 0
def winRows (w : Word) : Nat := fieldOf w 14 8 + 1
def winCol (w : Word) : Nat := fieldOf w 23 16
def winCols (w : Word) : Nat := fieldOf w 31 24 + 1

/-- Columns that one message of a drain carries (R295). -/
def drainGroup (sub : Nat) : Nat := if bitAt sub 0 then 128 else 64

/-- Messages that a command record sends and SENT counts: those whose template names a system entry it does not (R170, R295, R296, R305, R307). -/
def recordMessages (m : Packet) : Nat :=
  if 0xE0 ≤ fieldOf (mxB m) 38 31 then 0
  else if mxCode m = 0x87 ∧ bitAt (mxSub m) 1 then winRows (mxA m) * (winCols (mxA m) / drainGroup (mxSub m))
  else if mxCode m = 0x89 then fieldOf (mxA m) 39 32 / 32 + 1 else 0

def mxMessages (m : Packet) : Nat := if isMatrix m then recordMessages m else 0

/-- The hasp state after a committed effect: a LEASE requests, a REL gives up (R300, R301). -/
def haspAfter (h : Hasp) : Effect → Hasp
  | .msg m _ _ _ => if isMatrix m then (if mxCode m = 0x80 then .requested else if mxCode m = 0x81 then .none else h) else h
  | _ => h

/-- The hasp of a context ends with its invocation: a release follows its last command, and a pending report becomes a notice (R286, R294). -/
def State.endHasp (s : State) (node ctx : Nat) : State :=
  let x := s.ctx node ctx
  let c := s.core node
  let s1 := s.setCore node (if x.hasp = .requested ∨ x.hasp = .held
    then { c with departure := c.departure ++ [(ctx, .msg (releaseCommand node ctx x) none plainAnswer none)] } else c)
  let s2 := s1.setCtx node ctx { s1.ctx node ctx with hasp := .none, haspCnt := 0, report := none }
  match x.report with
  | some r => s2.notice node 0x4A ctx 0 r
  | none => s2

/-- The base address of a core's replay log is its die's (R459); index k of R67. -/
def coreIndex (n : Nat) : Nat := (nodeY n % 30 * 20 + nodeX n % 20) * 4 + nodeCore n

/-- An invocation that is discarded before its first commit is marked withdrawn in the replay log (R461). -/
def State.withdraw (s : State) (node ctx : Nat) : State :=
  let x := s.ctx node ctx
  match x.invocation with
  | some i =>
    match i.logged with
    | some a => if i.consumed then s else { s with mem := Memory.writeWord s.mem a (Memory.word s.mem a ||| wordOf (2 ^ 54)) }
    | none => s
  | none => s

/-- The invocation is discarded: its uncommitted effects are lost and its Held keys freed (R114), its reservations are given back (R130). -/
def State.dropInvocation (s : State) (node ctx : Nat) : State :=
  let s1 := (s.withdraw node ctx).giveBack node ctx
  (s1.setCore node ((s1.core node).dropInvocation ctx)).endHasp node ctx

/-- The context leaves its invocation, and results still to come are dropped (R154, R317, R339). -/
def State.leaveCtx (s : State) (node ctx : Nat) : State :=
  let c := (s.core node).dropAwaited ctx true
  s.setCore node (c.setCtx ctx (c.ctx ctx).leave)

/-- TKILL (R359): the invocation ends, and its message is consumed. -/
def State.killCtx (s : State) (node ctx : Nat) : State := (s.dropInvocation node ctx).leaveCtx node ctx

/-- TRESUME (R207, R359): an invocation that has finished, or whose TRAP or BKPT left TRAPBLK 0, ends; a waiting commit is tried again, a block is run again or TRAPBLK entered. -/
def State.resumeCtx (s : State) (node ctx : Nat) : State :=
  let x := s.ctx node ctx
  let cause := x.trap.cause.toNat % 256
  if x.commit.isNone ∧ ((x.invocation.map (fun i => i.finished)).getD false ∨ ((cause = 0x70 ∨ cause = 0x71) ∧ x.trap.blk = 0)) then s.leaveCtx node ctx
  else
    let left := if cause = 0x68 then ((x.invocation.map (fun i => i.budget)).getD 0) else x.budgetLeft
    s.setCtx node ctx { x with
      status := .live
      pc := x.trap.blk.toNat
      budgetLeft := left
      commit := x.commit.map (fun c => { c with reserved := false, failed := none }) }

/-- The cores of a slot's place in a cluster (R284). -/
def slotCore (node slot : Nat) : Nat :=
  coreNode (nodeModule node) (nodeX node / 2 * 2 + slot / 4 % 2) (nodeY node / 2 * 2 + slot / 8 % 2) (slot % 4)

/-- A core of the cluster can take a moved entry (R359). -/
def State.canTake (s : State) (node slot job : Nat) : Bool :=
  let t := slotCore node slot
  slot != slotOf node && !(s.core t).fenced && (s.quad t).job == some job

/-- The target of a TRETRY: the named slot, or the first able slot after the core's own (R359). -/
def State.retryTarget (s : State) (node job slot : Nat) (auto : Bool) : Option Nat :=
  if auto then (((List.range 15).map (fun k => (slotOf node + 1 + k) % 16)).find? (fun z => s.canTake node z job)).map (slotCore node)
  else if s.canTake node slot job then some (slotCore node slot) else none

/-- An entry enters a core's queue, behind those that wait to (R164). -/
def State.enterEntry (s : State) (node : Nat) (e : QEntry) : Option State :=
  if (s.core node).q.moved.isEmpty then s.enqueue node e.pri e else none

/-- An entry enters a core's queue or waits to, with the notice of an empty pool (R70, R164, R359). -/
def State.enterOrWait (s : State) (node : Nat) (e0 : QEntry) : State :=
  let e := { e0 with stuck := false }
  match s.enterEntry node e with
  | some t => t
  | none =>
    let c := s.core node
    let t := s.setCore node { c with q := { c.q with moved := c.q.moved ++ [e] } }
    if c.q.moved.isEmpty then t.poolNotice (dieNode node) else t

/-- The entries that wait to enter the queues of a core enter as there is room, in their order; those that find none wait on, and so does every later one of their priority (R70, R164). -/
def State.enterEach (s : State) (node : Nat) : List QEntry → List Nat → State
  | [], _ => s
  | e :: r, full =>
    match if full.contains e.pri then none else s.enqueue node e.pri e with
    | some t => t.enterEach node r full
    | none => (s.setCore node { s.core node with q := { (s.core node).q with moved := (s.core node).q.moved ++ [e] } }).enterEach node r (e.pri :: full)

/-- What waits to enter the queues of a core enters as there is room (R70). -/
def State.enterMoved (s : State) (node : Nat) : State :=
  let c := s.core node
  (s.setCore node { c with q := { c.q with moved := [] } }).enterEach node c.q.moved []

/-- The dispatching entry of a context enters a core's queue as an arrival does, with its retry count raised; without room in the queue region it waits (R70, R164, R166, R359). -/
def State.moveEntry (s : State) (node ctx target : Nat) : State :=
  match (s.ctx node ctx).invocation with
  | some i =>
    let e := { i.entry with retries := i.entry.retries + 1 }
    s.enterOrWait target e
  | none => s

end Sys2Proof.Machine
end

