-- ==== Sys2Proof/Machine/Arrays.lean ====
section
/-! DEFINITION. The queues of a matrix array, and what it does next (R123, R285, R290, R299, R413). -/

namespace Sys2Proof.Machine

/-! The queues of an array (R123, R285, R290). -/

/-- The queue of a command's context. -/
def mxQueue (m : Packet) : Nat := 16 * m.src + m.ctx

def Cluster.queue (c : Cluster) (k : Nat) : List Packet := agetD c.queues k []
def Cluster.setQueue (c : Cluster) (k : Nat) (l : List Packet) : Cluster :=
  { c with queues := if l.isEmpty then adel c.queues k else aset c.queues k l }

/-- A command of the lease's holder. -/
def MxLease.holds (l : MxLease) (m : Packet) : Bool := l.holder == some (m.src, m.ctx)

/-- A LEASE that waits in its slot. -/
def Cluster.waits (c : Cluster) (m : Packet) : Bool := (c.slot (slotOf m.src)).waiting.contains (.lease m)

/-- The head of a queue can be performed: a command that needs no hasp, or one of the holder (R285). -/
def Cluster.performable (c : Cluster) (m : Packet) : Bool :=
  if mxCode m = 0x80 then !c.waits m
  else if mxCode m ≤ 0x82 then true
  else (c.lease.map (fun (l : MxLease) => l.holds m)).getD false

/-- The command that the array performs next: a record of its chain, or the first head that can be performed. -/
def Cluster.nextCommand (c : Cluster) : Option Packet :=
  match c.lease.bind (fun (l : MxLease) => l.chain.head?) with
  | some m => some m
  | none => (c.queues.filterMap (fun (e : Nat × List Packet) => e.2.head?)).find? c.performable

/-- A slot has a waiting request. -/
def Cluster.anyWaiting (c : Cluster) : Bool := c.slots.any (fun (x : MxSlot) => !x.waiting.isEmpty)

/-- The array takes up its next command, or grants a lease; while messages of a command are not accepted it takes up nothing (R111, R413). -/
def State.pump (s : State) (node : Nat) : State :=
  let c := s.cluster node
  if c.finishing.isSome then s
  else
  match c.nextCommand with
  | some m => s.dueFirst [route { m with counted := true }]
  | none => if c.lease.isNone ∧ c.anyWaiting then s.dueFirst [.leaseGrant node] else s

/-- The completion reply of a command that asks for one (R299). -/
def State.replyMx (s : State) (m : Packet) (pay : List Word) : State :=
  if mxReplies m then
    let r := answerTo m 0 pay false
    s.send { r with w0 := putField r.w0 38 31 (mxSel m) }
  else s

end Sys2Proof.Machine
end

