-- ==== Sys2Proof/Machine/Hinge.lean ====
section
/-! DEFINITION. Channels, bolts, landing and recording of hinge pre-emption (R393 to R398). -/

namespace Sys2Proof.Machine

/-- The record and channels of a job. -/
def State.job (s : State) (j : Nat) : Job := (aget s.jobs j).getD {}

/-- The record of a job with the MODMAP of its last placement, which a record that waits to be restored does not hold (R405). -/
def Job.placedRecord (x : Job) : JobRecord := { x.record with nmod := x.placed.length - 1, modmap := x.placed }

/-- The absolute core that job-relative coordinates name under a PLBASE (R19). -/
def placedCore (pl : Word) (r : JobRecord) (jx jy jm c : Nat) : Nat :=
  coreNode (r.modmap.getD jm 0) (plBX pl + jx) (plBY pl + jy) c

def Channel.source (c : Channel) (pl : Word) (r : JobRecord) : Nat := placedCore pl r c.sx c.sy c.sm c.sc
def Channel.dest (c : Channel) (pl : Word) (r : JobRecord) : Nat := placedCore pl r c.dx c.dy c.dm c.dc

/-- The channels of a core's resident job, numbered. -/
def State.channelsOf (s : State) (node : Nat) : List (Nat × Channel) :=
  match (s.quad node).job with
  | some j => (List.range (s.job j).channels.length).filterMap (fun i => ((s.job j).channels[i]?).map (fun c => (i, c)))
  | none => []

/-- The record of a core's resident job. -/
def State.residentRecord (s : State) (node : Nat) : JobRecord := (((s.quad node).job).bind s.record).getD {}

/-- The outgoing channels of a core that have carried no bolt since arming (R395, R397). -/
def State.unbolted (s : State) (node : Nat) : List (Nat × Channel) :=
  let c := s.core node
  (s.channelsOf node).filter (fun e => e.2.source c.plbase (s.residentRecord node) == node && !c.hinge.bolted.contains e.1)

/-- The incoming channels whose destination quad is the core's and whose bolt names the core (R396). -/
def State.incoming (s : State) (node : Nat) : List Nat :=
  let c := s.core node
  ((s.channelsOf node).filter (fun e => e.2.dest c.plbase (s.residentRecord node) == node)).map (·.1)

/-- A bolt (R394). -/
def boltPacket (node dest job channel : Nat) : Packet :=
  { w0 := msgHeader dest 0 0 job 0 false 0 false 0 0 + 4, w1 := wordOf channel, src := node, aclass := aclassOf node dest }

/-- Bolts join the departure queue, one for each outgoing channel that has carried none (R117, R395, R397). -/
def State.sendBolts (s : State) (node ctx : Nat) : State :=
  let l := s.unbolted node
  let c := s.core node
  let r := s.residentRecord node
  s.setCore node { c with
    departure := c.departure ++ l.map (fun e => (ctx, Effect.bolt (boltPacket node (e.2.dest c.plbase r) r.job e.1)))
    hinge := { c.hinge with bolted := c.hinge.bolted ++ l.map (·.1) } }

/-- What landing does to one context of the job (R396). -/
def State.landCtx (s : State) (node k : Nat) : State :=
  let x := s.ctx node k
  let past := (x.invocation.map (fun i => i.consumed)).getD false
  if x.status = .live ∨ x.status = .parked then
    if past then (if x.status = .parked then s.notice node 0x78 k 0 0 else s)
    else
      let s1 := s.dropInvocation node k
      let s2 := match x.invocation with
        | some i => s1.setCore node ((s1.core node).returnEntry i.entry)
        | none => s1
      s2.leaveCtx node k
  else s

/-- A core lands: it dispatches no more, and its contexts end as R396 gives. -/
def State.land (s : State) (node : Nat) : State :=
  let c := s.core node
  if c.hinge.landed ∨ !c.hinge.arm then s
  else
    let s1 := s.setCore node { c with hinge := { c.hinge with landed := true } }
    (List.range 10).foldl (fun t k => t.landCtx node k) s1

/-- A core lands once the bolts of all its incoming channels have arrived; one without such a channel lands at arming (R396). -/
def State.landIfClosed (s : State) (node : Nat) : State :=
  if (s.incoming node).all (fun i => (s.core node).hinge.closed.contains i) then s.land node else s

/-- The channel on which an arrival comes: its source core and the quad of its destination (R393). -/
def State.channelOf (s : State) (m : Packet) : Option Nat :=
  let node := destOf m
  let c := s.core node
  let r := s.residentRecord node
  ((s.channelsOf node).find? (fun e => e.2.source c.plbase r == m.src && quadOf (e.2.dest c.plbase r) == quadOf node)).map (·.1)

/-- The core at which an arrival for a core acts: its own destination, or the target to which its quad redirects a fenced core's arrivals (R391). -/
def State.actingCore (s : State) (node : Nat) : Nat := agetD (s.quad node).redirect node node

/-- RECV counts a message once: one that is not for a system entry, and every task that a queue sends on (R170, R247, R424). -/
def countsReceived (m : Packet) : Bool :=
  !m.counted && (decide (hidxOf m < 0xE0) || (nodeIsEnd m.src && nodeClass m.src == 4))

/-! Arrivals that wait (R69, R70, R121, R156). -/

/-- The arrivals that wait and came before one: those before it where it is one of them, tried again; else all of them. -/
def State.heldBefore (s : State) (m : Packet) : List Packet := (s.arrivals.takeWhile (fun e => e != ⟨m, true⟩)).map (·.m)

/-- An arrival of the same source, or another handler message for the same core, came before and still waits at the quad, or an operation of the source waits for the tumbler file (R121, R156). -/
def State.waitsBehind (s : State) (m : Packet) : Bool :=
  let q := quadOf (destOf m)
  (s.heldBefore m).any (fun e => !nodeIsEnd (destOf e) && quadOf (destOf e) == q && (e.src == m.src || (destOf e == destOf m && kindOf m == 0 && kindOf e == 0))) ||
  (s.quad q).updates.any (fun e => e.src == m.src)

/-- An arrival waits as a packet `p`, behind those that do; one that waits keeps its place (R69, R70, R121, R156). -/
def State.holdAs (s : State) (m p : Packet) : State :=
  { s with arrivals := if s.arrivals.contains ⟨m, true⟩ then s.arrivals.replace ⟨m, true⟩ ⟨p, false⟩ else s.arrivals ++ [⟨p, false⟩] }

/-- An arrival waits (R69, R70, R121, R156). -/
def State.hold (s : State) (m : Packet) : State := s.holdAs m m

/-- An arrival that has been performed waits no longer. -/
def State.unheld (s : State) (m : Packet) : State := { s with arrivals := s.arrivals.erase ⟨m, true⟩ }

/-- Arrivals that come before every other (R404). -/
def State.holdFirst (s : State) (l : List Packet) : State := { s with arrivals := l.map (fun m => ⟨m, false⟩) ++ s.arrivals }

/-- An arrival after arming is recorded and not performed (R398): the channel that it takes in the record, and whether that is a violation. -/
def State.recordAs (s : State) (m : Packet) : Option (Nat × Bool) :=
  let c := s.core (s.actingCore (destOf m))
  if !c.hinge.arm then none
  else
    match s.channelOf m with
    | some i => if c.hinge.closed.contains i ∨ c.hinge.saved then some (i, false) else none
    | none => if c.hinge.saved then some (0x7F, true) else none

/-- A quiescence violation of a job is counted for its snapshot (R402). -/
def State.violation (s : State) (j : Nat) : State :=
  match aget s.jobs j with
  | some x => { s with jobs := aset s.jobs j { x with snapshot := x.snapshot.map (fun (p : Snapshot) => { p with violations := p.violations + 1 }) } }
  | none => s

/-- Recording an arrival (R398). -/
def State.recordArrival (s : State) (m : Packet) (channel : Nat) (violation : Bool) : State :=
  let node := s.actingCore (destOf m)
  let c := s.core node
  let n := c.hinge.recorded.length
  let s1 := (s.setDie (dieNode node) ((s.die (dieNode node)).relist n (n + 1))).setCore node
    { c with recv := c.recv + bitNat (countsReceived m), hinge := { c.hinge with recorded := c.hinge.recorded ++ [⟨m, channel⟩] } }
  if violation then (s1.violation (jobOf m)).notice node 0x79 15 0 (wordOf (m.src % 2 ^ 22)) else s1

/-- A bolt closes its channel; one for no channel of the core is a quiescence violation (R394, R396). -/
def State.closeChannel (s : State) (m : Packet) : State :=
  let node := s.actingCore (destOf m)
  let i := m.w1.toNat % 64
  let c := s.core node
  if (s.quad node).job ≠ some (jobOf m) ∨ !(s.incoming node).contains i then (s.violation (jobOf m)).notice node 0x79 15 0 0
  else
    let s1 := s.setCore node { c with hinge := { c.hinge with closed := if c.hinge.closed.contains i then c.hinge.closed else c.hinge.closed ++ [i] } }
    if c.hinge.arm then s1.landIfClosed node else s1

/-- BOLT_ARRIVAL (R394): pair order holds it behind what its source has sent to the quad before (R121). -/
def execBoltArrival (m : Packet) (s : State) : Out := .next (if s.waitsBehind m then s.hold m else (s.closeChannel m).unheld m)

end Sys2Proof.Machine
end

