-- ==== Sys2Proof/Machine/Remote.lean ====
section
/-! DEFINITION. Remote accesses, versioned accesses and fences: opcodes 0x60 to 0x68 (R229 to R237). -/

namespace Sys2Proof.Machine

/-- The address a + b of format A. -/
def State.sumAddr (s : State) (a b : BitVec 5) : Nat := (s.regs.gval a.toNat + s.regs.gval b.toNat).toNat

/-- The low bytes of a value at a size code. -/
def cutTo (z : Nat) (w : Word) : Word := wordOf (w.toNat % 2 ^ (8 * 2 ^ z))

/-- An immediate read departs: its reply slot is reserved, its destination is empty, and the request is under way (R121, R162, R230). -/
def State.requestRead (s : State) (op pa size : Nat) (payload : List Word) (d : Nat) (ans : Answer) (acquire : Bool) (addr : Nat) (job : Option Nat) : Res State := do
  s.me.checkAcquire
  if s.myCore.departs ((remoteAddr pa).1) then .error .wait
  else
    let (tag, s1) := s.freshTag s.cur
    let (z, x) ← s1.me.reserve d tag ans true
    let s2 := s1.setMe { x with
      regs := x.regs.markG d .empty
      acquire := if acquire then z :: x.acquire else x.acquire }
    let m := withFlags s.regs.flags (remoteOp s.cur op size pa (s.curCtx * 16 + z) s.me.jobid tag payload)
    let c := s2.myCore
    let pend : Pending := { tag := tag, ctx := s.curCtx, aclass := m.aclass, answer := ans, addr := wordOf addr, job := job, read := true }
    pure ((s2.setMyCore { c with pending := c.pending ++ [pend] }).send m)

/-- The translation of an access, whose owner is then checked as its destination (R16, R103). -/
def State.reach (s : State) (k : AccessKind) (op va : Nat) : Res (Nat × State) := do
  let (pa, t) ← s.translate k op va
  s.afterLookup t (match ownerOf pa with
    | some n => if goodNode s.present n then .ok (pa, t) else .error (badDestination n)
    | none => .ok (pa, t))

/-- RLD: size s [1:0], sign extension s [2] (R230). -/
def execRld (p : BitVec 4) (d a b : BitVec 5) (x y : BitVec 1) (t : BitVec 3) (s : State) : Out :=
  let z := t.toNat % 4
  s.issue p 0x60 [gsrcE a x, gsrcE b y] [.g d.toNat false] (fun s => do
    let va := s.sumAddr a b
    checkVirtual va (2 ^ z)
    let (pa, s1) ← s.reach .read 0x60 va
    let s2 ← s.afterLookup s1 (s1.requestRead 0x00 pa z [] d.toNat (.load z (bitAt t.toNat 2)) false va (some s.me.jobid))
    pure (s2.noteAccess 0x60 false true va (2 ^ z)))

/-- RST (R231). -/
def execRst (p : BitVec 4) (d a b : BitVec 5) (x y : BitVec 1) (t : BitVec 2) (s : State) : Out :=
  let z := t.toNat
  s.issue p 0x61 [gsrcE a x, gsrcE b y, gsrc d] [] (fun s => do
    let va := s.sumAddr a b
    checkVirtual va (2 ^ z)
    let (pa, s1) ← s.reach .write 0x61 va
    let s2 ← s.afterLookup s1 (s1.buffer (.mem { op := 0x01, addr := wordOf va, virt := true, pa := pa, size := z,
                                                 payload := [cutTo z (s.regs.gval d.toNat)], opcode := 0x61, job := s.me.jobid, xf := s.regs.flags }))
    pure (s2.noteAccess 0x61 true true va (2 ^ z)))

/-- The destination of a buffered request: a reply slot, and the register empty until the commit (R120, R162). Without a destination, none. -/
def State.bufferedResult (s : State) (d : Nat) (ans : Answer) : Res (Option Nat × State) :=
  if d = 0 then .ok (none, s)
  else do
    let (tag, s1) := s.freshTag s.cur
    let (z, x) ← s1.me.reserve d tag ans false
    pure (some z, s1.setMe { x with regs := x.regs.markG d .awaitCommit })

/-- RAMO: sub as for AMO (R232). -/
def execRamo (p : BitVec 4) (d a b : BitVec 5) (t : BitVec 5) (s : State) : Out :=
  let kind := t.toNat % 16
  let z := if bitAt t.toNat 4 then 3 else 2
  s.issue p 0x62 ([gsrc a, gsrc b] ++ (if kind = 9 then [gsrc d] else [])) [.g d.toNat false] (fun s => do
    let va := (s.regs.gval a.toNat).toNat
    checkVirtual va (2 ^ z)
    let (pa, s1) ← s.reach .atomic 0x62 va
    let (slot, s2) ← s.afterLookup s1 (s1.bufferedResult d.toNat (.atomic z))
    let s3 ← s.afterLookup s1 (s2.buffer (.mem { op := 0x02 + kind, addr := wordOf va, virt := true, pa := pa, size := z,
                                                 payload := [cutTo z (s.regs.gval b.toNat), cutTo z (if kind = 9 then s.regs.gval d.toNat else 0)],
                                                 opcode := 0x62, slot := slot, job := s.me.jobid, xf := s.regs.flags }))
    pure ((s3.noteAccess 0x62 false true va (2 ^ z)).noteAccess 0x62 true true va (2 ^ z)))

/-! RCPY (R233). -/

/-- The first address of a run, and the first address of each later 64 KiB page that it touches (R103). -/
def pageStarts (va len : Nat) : List Nat :=
  (List.range ((va + len - 1) / 65536 - va / 65536 + 1)).map (fun k => if k = 0 then va else (va / 65536 + k) * 65536)

/-- The pages of a run, translated in ascending order (R103). -/
def State.translatePages (s : State) (k : AccessKind) (op : Nat) : List Nat → Res (List (Nat × Nat) × State)
  | [] => .ok ([], s)
  | v :: r => do
    let (pa, s1) ← s.reach k op v
    let (l, s2) ← s.afterLookup s1 (State.translatePages s1 k op r)
    pure ((v, pa) :: l, s2)

/-- The physical address of a virtual address by a list of translated page starts. -/
def physIn (l : List (Nat × Nat)) (va : Nat) : Nat :=
  match l.find? (fun e => e.1 / 65536 == va / 65536) with
  | some (v, pa) => pa + va - v
  | none => 0

/-- The offsets at which the source or the destination enters a page. -/
def pieceCuts (dst src len : Nat) : List Nat :=
  (List.range (len / 32)).filterMap (fun k =>
    if k = 0 ∨ (src + 32 * k) % 65536 = 0 ∨ (dst + 32 * k) % 65536 = 0 then some (32 * k) else none)

/-- The pieces between the cuts, in ascending order (R233). -/
def piecesOf (sp dp : List (Nat × Nat)) (dst src len : Nat) : List Nat → List Piece
  | [] => []
  | c :: r => ⟨physIn sp (src + c), physIn dp (dst + c), (r.headD len) - c⟩ :: piecesOf sp dp dst src len r

/-- The translations and pieces of a copy: source pages first, then destination pages (R103, R233). -/
def State.splitCopy (s : State) (dst src len : Nat) : Res (List Piece × State) := do
  let (sp, s1) ← s.translatePages .copySource 0x63 (pageStarts src len)
  let (dp, s2) ← s.afterLookup s1 (s1.translatePages .copyDest 0x63 (pageStarts dst len))
  pure (piecesOf sp dp dst src len (pieceCuts dst src len), s2)

/-- RCPY (R233). R24 speaks of the bits of a register alone; that a range which runs past 2^48 raises the non-canonical-address fault too, after the alignment check, is the model's DESIGN CHOICE (log 92). -/
def execRcpy (p : BitVec 4) (a b c : BitVec 5) (s : State) : Out :=
  s.issue p 0x63 [gsrc a, gsrc b, gsrc c] [] (fun s => do
    let dst := (s.regs.gval a.toNat).toNat
    let src := (s.regs.gval b.toNat).toNat
    let len := (s.regs.gval c.toNat).toNat
    if 2 ^ 48 ≤ src ∨ 2 ^ 48 ≤ dst then .error (.trap 0x05 none none)
    else if src % 32 ≠ 0 ∨ dst % 32 ≠ 0 ∨ len % 32 ≠ 0 ∨ len < 32 ∨ 65536 < len then .error (.trap 0x08 none none)
    else if 2 ^ 48 < src + len ∨ 2 ^ 48 < dst + len then .error (.trap 0x05 none none)
    else
      let (ps, s1) ← s.splitCopy dst src len
      let s2 ← s.afterLookup s1 (s1.buffer (.copy (wordOf dst) (wordOf src) len ps false s.me.jobid s.regs.flags))
      pure ((s2.noteAccess 0x63 false true src len).noteAccess 0x63 true true dst len))

/-! Version cells (R29, R234 to R236). -/

/-- The physical address of a named cell: local when bit 0 of s is 0, else virtual (R29). -/
def State.cellAddr (s : State) (op : Nat) (k : AccessKind) (virt : Bool) (a : Nat) : Res (Nat × State) :=
  if virt then do
    checkVirtual a 64
    let (pa, s1) ← s.reach k op a
    s.afterLookup s1 (match placeOf pa with
      | .store _ 0 _ => .ok (pa, s1)
      | _ => .error (.trap 0x08 none none))
  else if a < 2 ^ 22 ∧ laSel a ≠ 0 ∧ laOff a + 64 ≤ storeSize (laSel a) then .error (.trap 0x08 none none)
  else do
    s.checkLocal op .versioned a 64 (k == .write) 64
    pure (localPhys s.cur a, s)

/-- VLD and VLD.v (R234). -/
def execVld (p : BitVec 4) (d a b : BitVec 5) (x y : BitVec 1) (t : BitVec 1) (s : State) : Out :=
  s.issue p 0x64 [gsrcE a x, gsrcE b y] [.g d.toNat false] (fun s => do
    let addr := (s.regs.gval a.toNat).toNat
    let (pa, s1) ← s.cellAddr 0x64 .read (t == 1) addr
    let s2 ← s.afterLookup s1 (s1.requestRead 0x10 pa 3 [wordOf (fieldOf (s.regs.gval b.toNat) 15 0)] d.toNat .version true addr (if t = 1 then some s.me.jobid else none))
    pure (s2.noteAccess 0x64 false (t == 1) addr 64))

/-- VST: s [0] the addressing, s [2:1] the scope (R235). -/
def execVst (p : BitVec 4) (a b : BitVec 5) (x y : BitVec 1) (t : BitVec 3) (s : State) : Out :=
  s.issue p 0x65 [gsrcE a x, gsrcE b y] [] (fun s => do
    let addr := (s.regs.gval a.toNat).toNat
    let virt := bitAt t.toNat 0
    let (pa, s1) ← s.cellAddr 0x65 .write virt addr
    let s2 ← s.afterLookup s1 (s1.buffer (.mem { op := 0x11, addr := wordOf addr, virt := virt, pa := pa, size := 3,
                                                 payload := [s.regs.gval b.toNat], opcode := 0x65, job := s.me.jobid, scope := some (t.toNat / 2), xf := s.regs.flags }))
    pure (s2.noteAccess 0x65 true virt addr 64))

/-- VRECL (R236). -/
def execVrecl (p : BitVec 4) (a b : BitVec 5) (x y : BitVec 1) (t : BitVec 1) (s : State) : Out :=
  s.issue p 0x66 [gsrcE a x, gsrcE b y] [] (fun s => do
    let addr := (s.regs.gval a.toNat).toNat
    let (pa, s1) ← s.cellAddr 0x66 .write (t == 1) addr
    let s2 ← s.afterLookup s1 (s1.buffer (.mem { op := 0x12, addr := wordOf addr, virt := t == 1, pa := pa, size := 3,
                                                 payload := [wordOf (fieldOf (s.regs.gval b.toNat) 15 0)], opcode := 0x66, job := s.me.jobid, xf := s.regs.flags }))
    pure (s2.noteAccess 0x66 true (t == 1) addr 64))

/-- FENCE (R237). -/
def execFence (p : BitVec 4) (i : BitVec 2) (s : State) : Out := s.issue p 0x67 [] [] (fun s => s.buffer (.fence i.toNat))

/-- QFENCE (R237). -/
def execQfence (p : BitVec 4) (i : BitVec 8) (s : State) : Out := s.issue p 0x68 [] [] (fun s => s.buffer (.qfence i.toNat))

end Sys2Proof.Machine
end

