-- ==== Sys2Proof/Machine/Messages.lean ====
section
/-! DEFINITION. Messages, task queues, tumblers, keys and the trigger: opcodes 0x70 to 0x7F (R238 to R255). -/

namespace Sys2Proof.Machine

/-! Forming messages (R149, R238). -/

/-- The message-format fault. -/
def badMessage : Stop := .trap 0x11 none none

/-- A header is malformed by R149; `most` is the largest BEATS that it may have. -/
def malformedHeader (wkdesc : Word) (most kind beats : Nat) (vec : Bool) (run : Nat) (key : Word) : Bool :=
  decide (most < beats) ||
  (vec && (kind != 0 || (beats != 0 && beats != 4 && beats != 8))) ||
  (!vec && run != 0 && run != 31) ||
  (!vec && run == 31 && beats != 0) ||
  (vec && decide (2 ^ wkTagWidth wkdesc ≤ wkTag wkdesc key + run))

/-- One beat of a payload source: its words and whether it was poisoned (R115, Table 2-8). -/
def State.readBeat (s : State) (op la : Nat) : Res (List Word × Bool) := do
  let (bs, bad) ← s.readLocal op la 32
  pure (wordsOf bs 4, bad)

/-- The payload of a message, read at issue (R115). -/
def State.readPayload (s : State) (op la beats : Nat) : Res (List Word × List Bool) := do
  let l ← (List.range beats).mapM (fun k => s.readBeat op (la + 32 * k))
  pure (l.flatMap (·.1), l.map (·.2))

/-- Fields of a send descriptor (Table 10-4). -/
def sdNode (w : Word) : Nat := fieldOf w 21 0
def sdHidx (w : Word) : Nat := fieldOf w 29 22
def sdBeats (w : Word) : Nat := fieldOf w 36 33
def sdRun (w : Word) : Nat := fieldOf w 42 38
def sdPay (w : Word) : Nat := fieldOf w 59 43 * 32

/-- The offset of a handler-table entry in G (Table 2-5). -/
def handlerOffset (h : Nat) : Nat := 0x28000 + 32 * h

/-- The priority of a send descriptor: its own, or the default of the entry in the own quad's table (Table 10-4, Table 7-4). -/
def State.sdPri (s : State) (w : Word) : Nat :=
  if flagOf w 32 then
    let pa := localPhys s.cur (handlerOffset (sdHidx w))
    if isPoisoned s pa then fieldOf (Config.openWord s.free) 1 0 else fieldOf (Memory.word s.mem pa) 49 48
  else fieldOf w 31 30

/-- A message formed from a send descriptor (R238): descriptor, destination, payload source, header and privilege are checked in this order (log 10). -/
def State.formMessage (s : State) (op kind : Nat) (vec eos : Bool) (desc key : Word) : Res Packet := do
  let n := sdNode desc
  let beats := sdBeats desc
  let run := if eos then 31 else sdRun desc
  if fieldOf desc 63 60 ≠ 0 then .error badMessage
  else if !goodNode s.present n then .error (badDestination n)
  else if flagOf desc 32 ∧ nodeIsEnd n then .error badMessage
  else if beats ≠ 0 ∧ (s.checkLocal op .payload (sdPay desc) (32 * beats) false 32).toBool = false then .error badMessage
  else if malformedHeader s.myCore.wkdesc 8 kind beats vec run key then .error badMessage
  else if kind = 0 ∧ 0xE0 ≤ sdHidx desc ∧ !s.isSystem then .error (.trap 0x02 none none)
  else
    let (ws, ps) ← s.readPayload op (sdPay desc) beats
    pure { w0 := msgHeader n (s.sdPri desc) (if kind = 0 then sdHidx desc else ackSelector) s.me.jobid beats vec run
                   (flagOf desc 37) s.regs.flags.toNat kind
           w1 := if kind = 0 then key else 0
           payload := ws
           poison := ps
           src := s.cur
           aclass := aclassOf s.cur n
           ctx := s.curCtx }

/-- The return word of a reply slot (R241). -/
def returnWord (node ctx slot : Nat) : Word := wordOf (node + (ctx * 16 + slot) * 2 ^ 22)

/-- A message is buffered, with a reply slot for .r (R239 to R241). -/
def State.sendMessage (s : State) (m : Packet) (d : Nat) (r : Bool) : Res State :=
  if !r then s.buffer (.msg m none plainAnswer none)
  else if kindOf m = 0 ∧ beatsOf m = 0 then .error badMessage
  else do
    let (tag, s1) := s.freshTag s.cur
    let (z, x) ← s1.me.reserve d tag .message false
    let s2 := s1.setMe { x with regs := x.regs.markG d .awaitCommit }
    let m1 :=
      if kindOf m = 0 then { m with payload := m.payload.set 0 (returnWord s.cur s.curCtx z) }
      else { m with w0 := putField m.w0 38 31 (s.curCtx * 16 + z) }
    s2.buffer (.msg m1 (some z) .message none)

/-- SEND: sub [1:0] the kind, [2] .eos, [3] .r (R239). -/
def execSend (p : BitVec 4) (d a b : BitVec 5) (t : BitVec 4) (s : State) : Out :=
  let r := bitAt t.toNat 3
  s.issue p 0x70 [gsrc a, gsrc b] (if r then [.g d.toNat false] else []) (fun s => do
    let m ← s.formMessage 0x70 (t.toNat % 4) false (bitAt t.toNat 2) (s.regs.gval a.toNat) (s.regs.gval b.toNat)
    let t ← s.sendMessage m d.toNat r
    pure (t.notePayload 0x70 (sdPay (s.regs.gval a.toNat)) (32 * beatsOf m)))

/-- SENDV (R240). -/
def execSendv (p : BitVec 4) (d a b : BitVec 5) (t : BitVec 1) (s : State) : Out :=
  let r := t == 1
  s.issue p 0x71 [gsrc a, gsrc b] (if r then [.g d.toNat false] else []) (fun s => do
    let m ← s.formMessage 0x71 0 true false (s.regs.gval a.toNat) (s.regs.gval b.toNat)
    let t ← s.sendMessage m d.toNat r
    pure (t.notePayload 0x71 (sdPay (s.regs.gval a.toNat)) (32 * beatsOf m)))

/-- A reply to the return word in register a (R242): reply selector, STATUS, KEY and payload. -/
def State.sendReply (s : State) (p : BitVec 4) (a b : BitVec 5) (form : Word → Word → Nat × Nat × Nat × List Word) : Out :=
  s.issue p 0x72 [gsrc a, gsrc b] [] (fun s =>
    let w := s.regs.gval a.toNat
    let n := fieldOf w 21 0
    if fieldOf w 63 30 ≠ 0 then .error badMessage
    else if !goodNode s.present n then .error (badDestination n)
    else
      let (sel, status, key, pay) := form w (s.regs.gval b.toNat)
      let beats := pay.length / 4
      s.buffer (.msg
        { w0 := msgHeader n 0 sel s.me.jobid beats false 0 false s.regs.flags.toNat 1
          w1 := wordOf (status + key * 256)
          payload := pay, poison := List.replicate beats false
          src := s.cur, aclass := aclassOf s.cur n, wantAck := true, ctx := s.curCtx } none plainAnswer none))

/-- REPLY (R242). -/
def execReply (p : BitVec 4) (a b : BitVec 5) (s : State) : Out :=
  s.sendReply p a b (fun w v => (fieldOf w 29 22, 0, 0, [v, 0, 0, 0]))

/-- REPLY.st (R242). -/
def execReplySt (p : BitVec 4) (a b : BitVec 5) (s : State) : Out :=
  s.sendReply p a b (fun w v => (fieldOf w 29 22, fieldOf v 7 0, 0, []))

/-- REPLY.key (R242). -/
def execReplyKey (p : BitVec 4) (a b : BitVec 5) (s : State) : Out :=
  s.sendReply p a b (fun _ v => (0xF0, 0, fieldOf v 5 0, []))

/-! Task queues (R243 to R246). -/

/-- The queue-logic node of a handle (R243). -/
def State.queueNode (s : State) (h : Word) : Res Nat :=
  let n := fieldOf h 37 16
  if fieldOf h 63 38 ≠ 0 ∨ !nodeIsEnd n ∨ nodeClass n ≠ 4 then .error badMessage
  else if !goodNode s.present n then .error (badDestination n)
  else .ok n

/-- Beat 0 of a queue command: code, flags, queue number, and the entry's header word 0 and key (R243). -/
def queueBeat (code flags number : Nat) (w0 key : Word) : List Word :=
  [wordOf (code + flags * 256 + number % 65536 * 65536), 0, w0, key]

/-- A queue command (R243). -/
def State.queueCommand (s : State) (n hidx : Nat) (pay : List Word) (poison : List Bool) : Packet :=
  { w0 := msgHeader n 0 hidx s.me.jobid (pay.length / 4) false 0 false s.regs.flags.toNat 3
    w1 := 0, payload := pay, poison := poison, src := s.cur, aclass := aclassOf s.cur n, ctx := s.curCtx }

/-- A command whose answer fills g[d]: the slot is reserved and the command buffered (R120, R162). -/
def State.bufferCommand (s : State) (d : Nat) (ans : Answer) (form : Nat → Packet) : Res State := do
  let (tag, s1) := s.freshTag s.cur
  let (z, x) ← s1.me.reserve d tag ans false
  (s1.setMe { x with regs := x.regs.markG d .awaitCommit }).buffer (.msg (form (s.curCtx * 16 + z)) (some z) ans none)

/-- SPAWN and SPAWN.nb (R244). -/
def execSpawn (p : BitVec 4) (d a b : BitVec 5) (t : BitVec 1) (s : State) : Out :=
  s.issue p 0x73 [gsrc d, gsrc a, gsrc b] [.g d.toNat false] (fun s => do
    let h := s.regs.gval d.toNat
    let n ← s.queueNode h
    let m ← s.formMessage 0x73 0 false false (s.regs.gval a.toNat) (s.regs.gval b.toNat)
    let flags := 2 + (if t == 1 then 0 else 1)
    let u ← s.bufferCommand d.toNat .spawn (fun sel =>
      s.queueCommand n sel (queueBeat 1 flags (fieldOf h 15 0) m.w0 m.w1 ++ m.payload) (false :: m.poison))
    pure (u.notePayload 0x73 (sdPay (s.regs.gval a.toNat)) (32 * beatsOf m)))

/-- QPUSH: sub the payload beats; the entry's header word 0 and key are zero (R245). -/
def execQpush (p : BitVec 4) (d a b : BitVec 5) (t : BitVec 4) (s : State) : Out :=
  s.issue p 0x7E [gsrc a, gsrc b] [.g d.toNat false] (fun s => do
    let h := s.regs.gval a.toNat
    let n ← s.queueNode h
    let la := (s.regs.gval b.toNat).toNat
    s.checkLocal 0x7E .payload la (32 * t.toNat) false 32
    let (ws, ps) ← s.readPayload 0x7E la t.toNat
    let form := fun sel => s.queueCommand n sel
      (queueBeat 1 0 (fieldOf h 15 0) 0 0 ++ ws) (false :: ps)
    let u ← if d = 0 then s.buffer (.msg (form ackSelector) none (.push h) none)
      else s.bufferCommand d.toNat (.push h) form
    pure (u.notePayload 0x7E la (32 * t.toNat)))

/-- A plain QPOP, whose landing area is checked with the scalar pipe's write rights (R246). -/
def execQpop (p : BitVec 4) (d a b : BitVec 5) (s : State) : Out :=
  s.issue p 0x7F [gsrc a, gsrc b] [.g d.toNat false] (fun s => do
    let h := s.regs.gval a.toNat
    let n ← s.queueNode h
    let la := (s.regs.gval b.toNat).toNat
    s.checkLocal 0x7F .scalar la 288 true 32
    let u ← s.bufferCommand d.toNat (.pop la) (fun sel => s.queueCommand n sel (queueBeat 2 0 (fieldOf h 15 0) 0 0) [false])
    pure (u.noteAccess 0x7F true false la 288))

/-- QPOP.fwd (R246). -/
def execQpopFwd (p : BitVec 4) (d a : BitVec 5) (s : State) : Out :=
  s.issue p 0x7F [gsrc a] [.g d.toNat false] (fun s => do
    let h := s.regs.gval a.toNat
    let n ← s.queueNode h
    s.bufferCommand d.toNat .popFwd (fun sel => s.queueCommand n sel (queueBeat 2 4 (fieldOf h 15 0) 0 0) [false]))

/-- QPOP.len (R246). -/
def execQpopLen (p : BitVec 4) (d a : BitVec 5) (s : State) : Out :=
  s.issue p 0x7F [gsrc a] [.g d.toNat false] (fun s => do
    let h := s.regs.gval a.toNat
    let n ← s.queueNode h
    s.bufferCommand d.toNat .popLen (fun sel => s.queueCommand n sel (queueBeat 3 0 (fieldOf h 15 0) 0 0) [false]))

/-! Tumblers (R248 to R250). -/

/-- The tumbler that a register names: its index, and the node of another quad (R248). -/
def State.tumblerName (s : State) (w : Word) : Res (Nat × Option Nat) :=
  let n := fieldOf w 31 10
  if fieldOf w 63 32 ≠ 0 ∨ (!flagOf w 9 ∧ n ≠ 0) then .error (badDestination n)
  else if !flagOf w 9 then .ok (fieldOf w 8 0, none)
  else if !goodNode s.present n then .error (badDestination n)
  else if !nodeIsEnd n ∧ quadOf n = quadOf s.cur then .ok (fieldOf w 8 0, none)
  else .ok (fieldOf w 8 0, some n)

/-- A tumbler operation is buffered, as a local effect on the own quad and as a remote one elsewhere (R248, R249). -/
def State.bufferTumbler (s : State) (op : Nat) (name : Nat × Option Nat) (amount : Nat) (arm : Option Word) : Res State :=
  match name with
  | (i, none) => s.buffer (.tumbler op i (arm.getD (wordOf amount)))
  | (i, some n) => s.buffer (.msg (withFlags s.regs.flags (tumblerOp s.cur op n i amount ackSelector s.me.jobid 0 ((arm.map (fun w => [w])).getD []))) none (.effect op 0) none)

/-- A TINC or TDEC; an amount of 0 makes it act as qualified off, whatever g[a] holds (R186, R248). -/
def State.tumblerStep (s : State) (p : BitVec 4) (opcode op : Nat) (a b : BitVec 5) : Out :=
  s.issue p opcode [] [] (fun s =>
    let n := fieldOf (s.regs.gval b.toNat) 23 0
    if n = 0 ∧ (s.regs.checkSources opcode [gsrc b]).toBool then .ok s
    else do
      s.regs.checkSources opcode [gsrc a, gsrc b]
      let name ← s.tumblerName (s.regs.gval a.toNat)
      s.bufferTumbler op name n none)

/-- TINC (R248). -/
def execTinc (p : BitVec 4) (a b : BitVec 5) (s : State) : Out := s.tumblerStep p 0x74 0x18 a b

/-- TDEC (R248). -/
def execTdec (p : BitVec 4) (a b : BitVec 5) (s : State) : Out := s.tumblerStep p 0x75 0x19 a b

/-- TARM (R249). -/
def execTarm (p : BitVec 4) (a b : BitVec 5) (s : State) : Out :=
  s.issue p 0x76 [gsrc a, gsrc b] [] (fun s => do
    let w := s.regs.gval b.toNat
    let name ← s.tumblerName (s.regs.gval a.toNat)
    if fieldOf w 63 49 ≠ 0 then .error badMessage
    else s.bufferTumbler 0x1A name 0 (some w))

def Quad.tumbler (q : Quad) (i : Nat) : Tumbler := agetD q.tumblers i {}

/-- The word that TRD reads (R250). -/
def Tumbler.word (t : Tumbler) : Word :=
  wordOf (t.count % 2 ^ 24 + t.target % 2 ^ 24 * 2 ^ 24 + bitNat t.arm * 2 ^ 48 + bitNat t.ovs * 2 ^ 49)

/-- TRD (R250): of the own quad it takes the value after every update that the tumbler file has performed. -/
def execTrd (p : BitVec 4) (d a : BitVec 5) (s : State) : Out :=
  s.issue p 0x77 [gsrc a] [.g d.toNat false] (fun s => do
    s.me.checkAcquire
    match ← s.tumblerName (s.regs.gval a.toNat) with
    | (i, none) => if s.behindOwn then .error .wait else pure (s.setRegs (s.regs.setG d.toNat ((s.quad s.cur).tumbler i).word))
    | (i, some n) =>
      if s.myCore.departs (if nodeIsEnd n then n else quadOf n) then .error .wait
      else
        let (tag, s1) := s.freshTag s.cur
        let (z, x) ← s1.me.reserve d.toNat tag .tumbler true
        let s2 := s1.setMe { x with regs := x.regs.markG d.toNat .empty }
        let m := withFlags s.regs.flags (tumblerOp s.cur 0x1B n i 0 (s.curCtx * 16 + z) s.me.jobid tag [])
        let c := s2.myCore
        pure ((s2.setMyCore { c with pending := c.pending ++
          [{ tag := tag, ctx := s.curCtx, aclass := m.aclass, answer := .tumbler, read := true }] }).send m))

/-! Keys (R251 to R254). -/

/-- The lowest-numbered Free key (R252). -/
def Core.freeKey (c : Core) : Option Nat := (List.range 64).find? (fun k => (c.key k).alloc == .free)

/-- A key is allocated to the current context; the open block notes it (R252). -/
def State.allocKey (s : State) (k : Nat) : State :=
  let old := (s.myCore.key k).bit
  let s1 := s.setMyCore (s.myCore.setKey k { alloc := .held, owner := .ofNat 4 s.curCtx })
  let s2 := s1.setMe { s1.me with held := s1.me.held ++ [k] }
  s2.onBlock (fun b => { b with keys := b.keys ++ [(k, old)] })

/-- Nothing but this invocation can free a key: all are Held by it or Owned by its context, and none is in flight (R252). -/
def State.keysExhausted (s : State) : Bool :=
  (List.range 64).all (fun k =>
    let y := s.myCore.key k
    y.flight == 0 && (s.me.held.contains k || (y.alloc == .owned && y.owner.toNat == s.curCtx)))

/-- KEYA (R252). -/
def execKeya (p : BitVec 4) (d : BitVec 5) (s : State) : Out :=
  s.issue p 0x78 [] [.g d.toNat false] (fun s =>
    match s.myCore.freeKey with
    | some k =>
      let t := s.allocKey k
      .ok (t.setRegs (t.regs.setG d.toNat (wordOf k)))
    | none => if s.keysExhausted then .error (.trap 0x63 none none) else .error .wait)

/-- KEYA.nb (R252). -/
def execKeyaNb (p : BitVec 4) (d : BitVec 5) (n : BitVec 3) (s : State) : Out :=
  s.issue p 0x78 [] [.g d.toNat false] (fun s =>
    match s.myCore.freeKey with
    | some k =>
      let t := s.allocKey k
      .ok (t.setRegs ((t.regs.setG d.toNat (wordOf k)).setPred n.toNat false))
    | none => .ok (s.setRegs ((s.regs.setG d.toNat 64).setPred n.toNat true)))

/-- KEYF (R253). -/
def execKeyf (p : BitVec 4) (a : BitVec 5) (x : BitVec 1) (s : State) : Out :=
  s.issue p 0x79 [gsrcE a x] [] (fun s => s.buffer (.keyf (s.regs.gval a.toNat)))

/-- A wait for keys with acquire order (R254). -/
def State.waitKeys (s : State) (p : BitVec 4) (op : Nat) (d a : BitVec 5) (x : BitVec 1) (f : Word → Word → Option Word) : Out :=
  s.issue p op [gsrcE a x] [.g d.toNat false] (fun s => do
    s.me.checkAcquire
    let v := s.regs.gval a.toNat
    match f (s.myCore.keyring &&& v) v with
    | some r => pure (s.setRegs (s.regs.setG d.toNat r))
    | none => .error .wait)

/-- WAITANY (R254). -/
def execWaitany (p : BitVec 4) (d a : BitVec 5) (x : BitVec 1) (s : State) : Out :=
  s.waitKeys p 0x7A d a x (fun r v => if r ≠ 0 ∨ v = 0 then some r else none)

/-- WAITALL (R254). -/
def execWaitall (p : BitVec 4) (d a : BitVec 5) (x : BitVec 1) (s : State) : Out :=
  s.waitKeys p 0x7B d a x (fun r v => if r = v then some v else none)

/-- FFR (R254). -/
def execFfr (p : BitVec 4) (d a : BitVec 5) (x : BitVec 1) (s : State) : Out :=
  s.waitKeys p 0x7C d a x (fun r _ => some (if r = 0 then 64 else wordOf (lowestBit r.toNat 64)))

/-- TRIGGER, to the management core of the job's job-relative module 0 (R255). -/
def execTrigger (p : BitVec 4) (s : State) : Out :=
  s.issue p 0x7D [] [] (fun s =>
    let n := endNode (s.myRecord.modmap.headD 0) 0 5 0
    if !goodNode s.present n then .error (badDestination n)
    else s.buffer (.msg { w0 := msgHeader n 0 ackSelector s.me.jobid 0 false 0 false s.regs.flags.toNat 3, w1 := 0, src := s.cur, aclass := aclassOf s.cur n }
      none plainAnswer (some 2)))

end Sys2Proof.Machine
end

