-- ==== Sys2Proof/Machine/Replay.lean ====
section
/-! DEFINITION. The replay log of a core, its divergences, and the handler entries that a dispatcher reads (R152, R153, R459 to R466). -/

namespace Sys2Proof.Machine

/-! Handler-table entries (Table 7-4). -/

/-- A handler-table entry. -/
structure HandlerEntry where
  w0 : Word
  w1 : Word
  w2 : Word
  w3 : Word
deriving DecidableEq, Repr

def HandlerEntry.entry (e : HandlerEntry) : Nat := fieldOf e.w0 47 0
def HandlerEntry.kind (e : HandlerEntry) : Nat := fieldOf e.w0 51 50
def HandlerEntry.arity (e : HandlerEntry) : Nat := fieldOf e.w1 1 0
def HandlerEntry.jmask (e : HandlerEntry) : Nat := fieldOf e.w1 7 2
def HandlerEntry.orph (e : HandlerEntry) : Bool := flagOf e.w1 8
def HandlerEntry.orphan (e : HandlerEntry) : Nat := fieldOf e.w1 16 9
def HandlerEntry.ain (e : HandlerEntry) : Nat := fieldOf e.w1 18 17
def HandlerEntry.ahead (e : HandlerEntry) : Nat := fieldOf e.w1 26 19
def HandlerEntry.mode (e : HandlerEntry) : BitVec 8 := .ofNat 8 (fieldOf e.w2 7 0)
def HandlerEntry.scx (e : HandlerEntry) : Nat := fieldOf e.w2 11 8
def HandlerEntry.retry (e : HandlerEntry) : Nat := fieldOf e.w2 14 12
def HandlerEntry.budget (e : HandlerEntry) : Nat := fieldOf e.w2 30 15 * 1024
def HandlerEntry.hinge (e : HandlerEntry) : Bool := flagOf e.w2 31
def HandlerEntry.source (e : HandlerEntry) : Bool := flagOf e.w2 32

/-- The entry of a quad's handler table at an index. -/
def State.handler (s : State) (node h : Nat) : HandlerEntry :=
  let pa := localPhys (quadOf node) (handlerOffset h)
  ⟨Memory.word s.mem pa, Memory.word s.mem (pa + 8), Memory.word s.mem (pa + 16), Memory.word s.mem (pa + 24)⟩

/-- The entry reads as poisoned, or the head entry of an alias does (R157, Table 2-8). -/
def State.handlerPoison (s : State) (node h : Nat) : Bool :=
  let bad (k : Nat) : Bool := anyPoison s (localPhys (quadOf node) (handlerOffset k)) 32
  bad h || ((s.handler node h).kind == 2 && bad (s.handler node h).ahead)

/-- An entry of TYPE 0b01 is valid (R153). -/
def State.headValid (s : State) (node : Nat) (e : HandlerEntry) : Bool :=
  let o := s.handler node e.orphan
  e.kind == 1 && fieldOf e.w0 63 52 == 0 && fieldOf e.w1 63 27 == 0 && fieldOf e.w2 63 33 == 0 && e.w3 == 0 &&
  e.entry % 4 == 0 && (e.arity == 0 || bitAt e.jmask (wkLevels (s.core node).wkdesc)) &&
  (!e.orph || (o.kind == 1 && o.arity == 0))

/-- An alias entry is valid (R152, R153). -/
def State.aliasValid (s : State) (node : Nat) (e : HandlerEntry) : Bool :=
  let h := s.handler node e.ahead
  e.kind == 2 && (putField e.w0 51 50 0 == 0) && (putField (putField e.w1 18 17 0) 26 19 0 == 0) && e.w2 == 0 && e.w3 == 0 &&
  e.ain != 0 && h.kind == 1 && decide (e.ain ≤ h.arity)

/-- What a message that names an index joins: head index, its entry and the input number; none for a missing or invalid entry (R153, R157). -/
def State.joins (s : State) (node h : Nat) : Option (Nat × HandlerEntry × Nat) :=
  let e := s.handler node h
  if e.kind = 2 then
    if s.aliasValid node e then some (e.ahead, s.handler node e.ahead, e.ain) else none
  else if s.headValid node e then some (h, e, 0) else none

/-- The entry that a queue entry runs: its head's, or the orphan entry of its head (R160, R165). -/
def State.codeOf (s : State) (node : Nat) (e : QEntry) : Option HandlerEntry :=
  let h := s.handler node e.head
  if !s.headValid node h then none
  else if !e.orphan then some h
  else if h.orph ∧ s.headValid node (s.handler node h.orphan) then some (s.handler node h.orphan) else none

/-- The index of the entry that runs (R160). -/
def State.codeIndex (s : State) (node : Nat) (e : QEntry) : Nat := if e.orphan then (s.handler node e.head).orphan else e.head

/-- Poison in what the dispatcher reads for a queue entry (Table 2-8). -/
def State.codePoison (s : State) (node : Nat) (e : QEntry) : Bool :=
  s.handlerPoison node e.head || (e.orphan && s.handlerPoison node (s.handler node e.head).orphan)

/-! The replay log (R459, Table 24-4). -/

/-- The mode of REPLAYCTL (Table 15-7). -/
def Core.replayMode (c : Core) : Nat := fieldOf c.dbg.replayctl 1 0

def Core.setReplayMode (c : Core) (m : Nat) : Core := { c with dbg := { c.dbg with replayctl := putField c.dbg.replayctl 1 0 m } }

/-- First address of a core's log. -/
def State.logBase (s : State) (node : Nat) : Nat := (s.die (dieNode node)).replayBase + coreIndex node * (s.die (dieNode node)).logSize

/-- The core has a log: bring-up may have left none (R459; log 28). -/
def State.hasLog (s : State) (node : Nat) : Bool := (s.die (dieNode node)).logSize != 0

def State.logCount (s : State) (node : Nat) : Nat := if s.hasLog node then fieldOf (Memory.word s.mem (s.logBase node)) 31 0 else 0
def State.logTrunc (s : State) (node : Nat) : Bool := s.hasLog node && flagOf (Memory.word s.mem (s.logBase node)) 32

/-- The first word of a core's log takes a value (R459). -/
def State.setLogHead (s : State) (node : Nat) (w : Word) : State :=
  if s.hasLog node then { s with mem := Memory.writeWord s.mem (s.logBase node) w } else s
def State.logEntry (s : State) (node k : Nat) : Word := Memory.word s.mem (s.logBase node + 16 + 16 * k)
def State.logDigest (s : State) (node k : Nat) : Nat := fieldOf (Memory.word s.mem (s.logBase node + 24 + 16 * k)) 31 0

/-- Replay or recording is left (R451, R461, R462, R466). -/
def State.leaveReplay (s : State) (node reason : Nat) : State :=
  (s.setCore node ((s.core node).setReplayMode 0)).emitTrace node 15 11 reason 0 0 []

/-- Word 0 of a log entry. -/
def logWord (seq hidx pri job : Nat) : Word := wordOf (seq % 2 ^ 32 + hidx % 256 * 2 ^ 32 + pri % 4 * 2 ^ 40 + job % 4096 * 2 ^ 42)

/-- In record mode a dispatch appends an entry, whose address is answered; its SEQ is the count of the core's dispatches since job load, which counter 0 holds (R366, R459). A full log ends the recording (R461). -/
def State.logAppend (s : State) (node p : Nat) (e : QEntry) : Option Nat × State :=
  let c := s.core node
  if c.replayMode ≠ 1 then (none, s)
  else
    let a := s.logBase node
    let n := s.logCount node
    if (s.die (dieNode node)).logSize < 16 + 16 * (n + 1) then
      (none, (s.setLogHead node (wordOf (n + 2 ^ 32))).leaveReplay node 1)
    else
      let m1 := Memory.writeWord s.mem (a + 16 + 16 * n) (logWord (c.counters[0]?.getD 0) e.head p (((s.quad node).job).getD 0))
      let m2 := Memory.writeWord m1 (a + 24 + 16 * n) (wordOf (digest c.wkdesc e))
      (some (a + 16 + 16 * n), { s with mem := Memory.writeWord m2 a (wordOf (n + 1)) })

/-- The first entry at or after the expected one that is not withdrawn (R462). -/
def State.expectedEntry (s : State) (node : Nat) : Nat :=
  let c := s.core node
  let n := s.logCount node
  ((List.range (n - c.dbg.replayPos)).map (fun k => c.dbg.replayPos + k)).find? (fun k => !flagOf (s.logEntry node k) 54) |>.getD n

/-- The highest priority whose queue holds an entry, and its head. -/
def CoreQueues.topEntry (q : CoreQueues) : Option QEntry := (List.range 4).findSome? (fun p => (q.queueAt p).head?)

/-- A divergence: DIV is set, a DIVERGE record is emitted, and the policy is applied (R463 to R465). Where the core goes on without replay, the reason of its RSTOP record is open, since Table 24-3 gives none for it (R451; log 105). -/
def State.diverge (s : State) (node : Nat) (atEnd : Bool) : State :=
  let c := s.core node
  let k := s.expectedEntry node
  let past := decide (s.logCount node ≤ k)
  let top := c.q.topEntry
  let pol := flagOf c.dbg.replayctl 2
  let seq := if past then k else fieldOf (s.logEntry node k) 31 0
  let dig := if past then 0 else s.logDigest node k
  let ext0 := wordOf (seq % 2 ^ 32 + dig * 2 ^ 32)
  let have_ := (top.map (fun e => digest c.wkdesc e)).getD 0
  let hx := if past then 0 else fieldOf (s.logEntry node k) 39 32
  let ext1 := wordOf (have_ + hx * 2 ^ 32 + (top.map (fun e => e.head)).getD 0 * 2 ^ 40)
  let a := bitNat pol + bitNat atEnd * 2 + bitNat top.isNone * 4 + bitNat past * 8
  let s1 := s.setCore node { c with dbg := { c.dbg with replayctl := c.dbg.replayctl ||| 8, replayWait := none } }
  let s2 := s1.emitTrace node 15 10 a 0 0 [ext0, ext1]
  if atEnd then s2
  else if pol then (s2.leaveReplay node (Config.openChoice s2.free % 4)).useOpen
  else
    match (s.quad node).job with
    | some j => { s2 with jobs := aset s2.jobs j { agetD s2.jobs j {} with frozen := true } }
    | none => s2

end Sys2Proof.Machine
end

