-- ==== Sys2Proof/Machine/Arrival.lean ====
section
/-! DEFINITION. The path of an arriving handler message: absent queue, system queue, handler queue and matching store (R151, R156 to R160, R164, R170, R398, R405, R454, R455). -/

namespace Sys2Proof.Machine

/-! Runs and pieces (R151, R158). -/

/-- One 4-byte lane of a plane of a payload. -/
def payloadLane (m : Packet) (plane lane : Nat) : Nat :=
  fieldOf (m.payload.getD (16 * plane + lane / 2) 0) (if lane % 2 = 0 then 31 else 63) (if lane % 2 = 0 then 0 else 32)

/-- The part of a vector message that covers n tags from t, with its lanes renumbered from lane 0 and the rest zero (R151). -/
def slicePacket (wkdesc : Word) (m : Packet) (tag t n : Nat) : Packet :=
  if !vecOf m ∨ (t = tag ∧ n = lengthOf m) then m
  else
    let k0 := t - tag
    let planes := beatsOf m / 4
    let lane (p k : Nat) : Nat := if k < n then payloadLane m p (k0 + k) else 0
    { m with
      w0 := putField m.w0 13 9 (n - 1)
      w1 := wkPutTag wkdesc m.w1 t
      payload := (List.range (16 * planes)).map (fun i => wordOf (lane (i / 16) (2 * (i % 16)) + lane (i / 16) (2 * (i % 16) + 1) * 2 ^ 32))
      poison := (List.range (4 * planes)).map (fun b =>
        (List.range 8).any (fun j =>
          let k := 8 * (b % 4) + j
          decide (k < n) && m.poison.getD (4 * (b / 4) + (k0 + k) / 8) false)) }

/-- Two keys agree at every level of JMASK other than the innermost (R158). -/
def keysAgree (wkdesc : Word) (jmask : Nat) (a b : Word) : Bool :=
  (List.range (wkLevels wkdesc)).all (fun l =>
    !bitAt jmask l || bitsW a.toNat (wkLow wkdesc l) (wkWidth wkdesc l) == bitsW b.toNat (wkLow wkdesc l) (wkWidth wkdesc l))

/-- The part of a waiting entry that covers n tags from t. -/
def Waiting.slice (e : Waiting) (wkdesc : Word) (t n : Nat) : Waiting :=
  { e with msg := slicePacket wkdesc e.msg e.tag t n, tag := t, run := n }

/-- First tag after the run. -/
def Waiting.stop (e : Waiting) : Nat := e.tag + e.run

/-- An earlier entry: lower stamp, then lower first tag (R158). -/
def Waiting.before (a b : Waiting) : Bool := decide (a.stamp < b.stamp) || (a.stamp == b.stamp && decide (a.tag < b.tag))

/-- The earliest of a list of entries. -/
def oldest : List Waiting → Option Waiting
  | [] => none
  | a :: r =>
    match oldest r with
    | some b => if b.before a then some b else some a
    | none => some a

/-- Entries in order of age. -/
def insertWaiting (a : Waiting) : List Waiting → List Waiting
  | [] => [a]
  | b :: r => if b.before a then b :: insertWaiting a r else a :: b :: r

def sortWaiting (l : List Waiting) : List Waiting := l.foldr insertWaiting []

/-- Everything that waits: the store, then the match-overflow list (R159). -/
def CoreQueues.waiting (q : CoreQueues) : List Waiting := q.store ++ q.overflow

/-! The matching store of a core. -/

/-- An entry waits in the store, or on the match-overflow list; none where the region has no slot (R70, R159). -/
def State.waitEntry (s : State) (node : Nat) (a : Waiting) : Option State :=
  let c := s.core node
  if 256 ≤ c.q.store.length ∨ !c.q.overflow.isEmpty then
    let d := s.die (dieNode node)
    let n := c.q.overflow.length
    if !d.accepts n then none
    else some ((s.setCore node ({ c with q := { c.q with overflow := c.q.overflow ++ [a] } }.count 7 1)).setDie (dieNode node) (d.relist n (n + 1)))
  else some (s.setCore node { c with q := { c.q with store := c.q.store ++ [a] } })

/-- An entry is taken from wherever it waits. -/
def State.takeEntry (s : State) (node : Nat) (a : Waiting) : State :=
  let c := s.core node
  if c.q.store.contains a then s.setCore node { c with q := { c.q with store := c.q.store.erase a } }
  else if c.q.overflow.contains a then
    let n := c.q.overflow.length
    (s.setCore node { c with q := { c.q with overflow := c.q.overflow.erase a } }).setDie (dieNode node) ((s.die (dieNode node)).relist n (n - 1))
  else s

/-- Parts at or above a marker go to the orphan entry, oldest first, or are discarded with one fault (R160). -/
def State.releaseParts (s : State) (node h : Nat) (he : HandlerEntry) (parts : List Waiting) : Option State :=
  if parts.isEmpty then some s
  else if he.orph then
    (sortWaiting parts).foldlM (fun t a =>
      t.enqueue node (priOf a.msg) { inputs := [a.msg], head := h, orphan := true, tag := a.tag, run := a.run, stamp := a.stamp }) s
  else some (s.notice node 0x32 15 0 (wordOf ((parts.map (fun a => a.run)).sum % 2 ^ 32 + h * 2 ^ 32)))

/-- The lowest tag of a marker of the head that agrees with a key (R160). -/
def CoreQueues.markerFor (q : CoreQueues) (wkdesc : Word) (h jmask : Nat) (key : Word) : Option Nat :=
  ((q.waiting.filter (fun e => e.marker && e.head == h && keysAgree wkdesc jmask e.msg.w1 key)).map (fun e => e.tag)).min?

/-- What is left of an arrival below the markers that it agrees with (R160). -/
def State.cutByMarkers (s : State) (node : Nat) (he : HandlerEntry) (a : Waiting) : Option (Option Waiting × State) :=
  let c := s.core node
  match c.q.markerFor c.wkdesc a.head he.jmask a.msg.w1 with
  | some e =>
    if a.stop ≤ e then some (some a, s)
    else if a.tag < e then
      (s.releaseParts node a.head he [a.slice c.wkdesc e (a.stop - e)]).map (fun t => (some (a.slice c.wkdesc a.tag (e - a.tag)), t))
    else (s.releaseParts node a.head he [a]).map (fun t => (none, t))
  | none => some (some a, s)

/-- The oldest agreeing partner of each further input, narrowing the run (R158). -/
def choosePartners (pool : List Waiting) (wkdesc : Word) (jmask : Nat) (a : Waiting) : List Nat → Nat → Nat → List Waiting → Option (List Waiting × Nat × Nat)
  | [], lo, hi, acc => some (acc, lo, hi)
  | j :: r, lo, hi, acc =>
    if j = a.input then choosePartners pool wkdesc jmask a r lo hi (acc ++ [a])
    else
      match oldest (pool.filter (fun e => !e.marker && e.head == a.head && e.input == j &&
          keysAgree wkdesc jmask e.msg.w1 a.msg.w1 && decide (e.tag < hi) && decide (lo < e.stop))) with
      | some e => choosePartners pool wkdesc jmask a r (max lo e.tag) (min hi e.stop) (acc ++ [e])
      | none => none

/-- A wait of w clk is counted in the histogram of a head; a bucket that would overflow emits a HIST record (R454, R455). -/
def State.countWait (s : State) (node h w : Nat) : State :=
  let c := s.core node
  let k := h * 16 + min 15 (Nat.log2 (w + 1))
  let n := agetD c.dbg.hist k 0
  if n + 1 = 65536 then
    (s.setCore node { c with dbg := { c.dbg with hist := adel c.dbg.hist k } }).emitTrace node 15 9 (h + 256) 0 (k % 16) [0]
  else s.setCore node { c with dbg := { c.dbg with hist := aset c.dbg.hist k (n + 1) } }

/-- One arrival or piece is matched: the state and the pieces to be matched again; none where a list has no room (R158 to R160). -/
def State.matchOne (s : State) (node : Nat) (he : HandlerEntry) (a : Waiting) : Option (State × List Waiting) := do
  let (left, s1) ← s.cutByMarkers node he a
  match left with
  | none => pure (s1, [])
  | some a =>
    let c := s1.core node
    match choosePartners c.q.waiting c.wkdesc he.jmask a (List.range (he.arity + 1)) a.tag a.stop [] with
    | none =>
      let t ← s1.waitEntry node a
      pure (t, [])
    | some (chosen, lo, hi) =>
      let s2 := (chosen.filter (fun e => e.input != a.input)).foldl (fun t e => t.takeEntry node e) s1
      let first := (oldest chosen).getD a
      let lower := (chosen.filter (fun e => decide (e.tag < lo))).map (fun e => e.slice c.wkdesc e.tag (lo - e.tag))
      let upper := (chosen.filter (fun e => decide (hi < e.stop))).map (fun e => e.slice c.wkdesc hi (e.stop - hi))
      let entry : QEntry :=
        { inputs := chosen.map (fun e => (e.slice c.wkdesc lo (hi - lo)).msg), head := a.head, tag := lo, run := hi - lo, stamp := first.stamp }
      let s3 ← (s2.countWait node a.head (s.clk - first.since)).enqueue node entry.pri entry
      pure (s3, lower ++ upper)

/-- Arrivals and pieces are matched one after another; n bounds their number. -/
def State.matchAll (node : Nat) (he : HandlerEntry) : Nat → State → List Waiting → Option State
  | 0, s, _ => some s
  | _, s, [] => some s
  | n + 1, s, a :: r => do
    let (t, more) ← s.matchOne node he a
    State.matchAll node he n t (more ++ r)

/-- An end-of-stream marker (R160). -/
def State.placeMarker (s : State) (node h : Nat) (he : HandlerEntry) (mk : Waiting) : Option State := do
  let c := s.core node
  let hit := c.q.waiting.filter (fun e => !e.marker && e.head == h && keysAgree c.wkdesc he.jmask e.msg.w1 mk.msg.w1 && decide (mk.tag < e.stop))
  let keep (l : List Waiting) : List Waiting := l.filterMap (fun e =>
    if !hit.contains e then some e else if e.tag < mk.tag then some (e.slice c.wkdesc e.tag (mk.tag - e.tag)) else none)
  let s1 := (s.setCore node { c with q := { c.q with store := keep c.q.store, overflow := keep c.q.overflow } }).setDie (dieNode node)
    ((s.die (dieNode node)).relist c.q.overflow.length (keep c.q.overflow).length)
  let s2 ← s1.waitEntry node mk
  s2.releaseParts node h he (hit.map (fun e => let t := max e.tag mk.tag; e.slice c.wkdesc t (e.stop - t)))

/-- A queue entry of a plain message (R163, R164). -/
def plainEntry (wkdesc : Word) (m : Packet) (stamp : Nat) : QEntry :=
  { inputs := [m], head := hidxOf m, tag := wkTag wkdesc m.w1, run := lengthOf m, stamp := stamp }

/-- A notice that carries messages to the system context (R153, R161). -/
def State.noticeWith (s : State) (node cause : Nat) (info : Word) (inputs : List Packet) : State :=
  s.sysEntry node (.notice cause 15 0 info inputs)

/-- Steps 3 to 6 of R157 for a message whose entry reads clean and which arrived in clk `since`: the entry of a plain message is answered, everything else is done; none where a list has no room. -/
def State.routeMessage (s : State) (node : Nat) (m : Packet) (stamp since : Nat) : Option (Option QEntry × State) :=
  let c := s.core node
  match s.joins node (hidxOf m) with
  | none => some (none, s.noticeWith node 0x30 0 [m])
  | some (h, he, input) =>
    if isMarker m then
      if he.arity = 0 then some (none, s)
      else (s.placeMarker node h he ⟨h, input, m, wkTag c.wkdesc m.w1, 1, stamp, true, since⟩).map (fun t => (none, t))
    else if he.arity = 0 then some (some (plainEntry c.wkdesc m stamp), s)
    else
      let n := 300 * (c.q.store.length + c.q.overflow.length + 2)
      (State.matchAll node he n s [⟨h, input, m, wkTag c.wkdesc m.w1, lengthOf m, stamp, false, since⟩]).map (fun t => (none, t))

/-! Arrival (R157). -/

/-- The answer that a handler message's issuer awaits (R111). -/
def State.accepted (s : State) (m : Packet) : State := if m.tag = 0 then s else s.answer m 0

/-- RECV of a core after a message (R170, R247, R424). -/
def Core.receive (c : Core) (m : Packet) : Core := { c with recv := c.recv + bitNat (countsReceived m) }

/-- The job-relative coordinates of a core under a placement (R405): x, y and module. -/
def relativeOf (pl : Word) (r : JobRecord) (node : Nat) : Option (Nat × Nat × Nat) :=
  match (List.range (r.nmod + 1)).find? (fun k => r.modmap.getD k 0 == nodeModule node) with
  | some jm =>
    let x := nodeX node
    let y := nodeY node
    if plBX pl ≤ x ∧ x < plBX pl + plWX pl ∧ plBY pl ≤ y ∧ y < plBY pl + plWY pl then some (x - plBX pl, y - plBY pl, jm) else none
  | none => none

/-- A message for a job that is not resident at the quad goes to the job's absent queue (R157 step 1, R405); none where the region has no slot. -/
def State.absentArrival (s : State) (m : Packet) : Option State :=
  let j := jobOf m
  let node := destOf m
  let die := dieNode node
  let d := s.die die
  match aget s.jobs j with
  | some job =>
    if job.status = .resident ∨ job.status = .saved ∨ job.status = .restoring then
      match relativeOf job.plbase job.placedRecord node with
      | some (x, y, jm) =>
        let q := agetD d.absent j {}
        let n := q.entries.length
        if !d.accepts n then none
        else
          let m1 := { m with w0 := putField m.w0 63 42 (coreNode jm x y (nodeCore node)), tag := 0, counted := true }
          some ((s.setDie die { d.relist n (n + 1) with
            absent := aset d.absent j { entries := q.entries ++ [m1], recv := q.recv + bitNat (countsReceived m) } }).accepted m)
      | none => some ((s.complete (nodeModule node) 0x84 j 0 0 1).accepted m)
    else some ((s.tell (.unknownJob node j)).accepted m)
  | none => some ((s.tell (.unknownJob node j)).accepted m)

/-- A message is performed at a core by steps 2 to 6 of R157; none where it has to wait. -/
def State.performMessage (s : State) (node : Nat) (m : Packet) : Option State :=
  let c := s.core node
  if 0xE0 ≤ hidxOf m then
    if c.sysFull node then none else some (((s.setCore node (c.receive m)).sysEntry node (.message m)).accepted m)
  else
    let stamp := c.q.stamp
    let s1 := (s.setCore node { c.receive m with q := { c.q with stamp := stamp + 1 } })
    let r :=
      if s.handlerPoison node (hidxOf m) then some (some { plainEntry c.wkdesc m stamp with unrouted := true, since := s.clk }, s1)
      else s1.routeMessage node m stamp s.clk
    match r with
    | some (some e, t) => (t.enqueue node (priOf m) e).map (fun u => u.accepted m)
    | some (none, t) => some (t.accepted m)
    | none => none

/-- The arrival of a handler message (R157), with the recording of R398; at a quad that is being restored only recorded and absent arrivals are performed (R404, R405). -/
def State.arrive (s : State) (m : Packet) : Option State :=
  let node := destOf m
  if (s.quad node).job ≠ some (jobOf m) ∨ ((s.quad node).restoring ∧ !m.counted) then s.absentArrival m
  else
    match s.recordAs m with
    | some (ch, bad) =>
      if !(s.die (dieNode node)).accepts (s.core (s.actingCore node)).hinge.recorded.length then none
      else some ((s.recordArrival m ch bad).accepted m)
    | none => s.performMessage (s.actingCore node) m

/-- A message that waits for room in the system queue of its core (R156). -/
def State.sysBound (s : State) (m : Packet) : Bool :=
  decide (0xE0 ≤ hidxOf m) && (s.quad (destOf m)).job == some (jobOf m) && (s.recordAs m).isNone && (!(s.quad (destOf m)).restoring || m.counted)

/-- HANDLER_MESSAGE_ARRIVAL (R157): an arrival without room waits on VN0, with a notice where the queue region is full (R70). -/
def execHandlerMessageArrival (m : Packet) (s : State) : Out :=
  if s.waitsBehind m then .next (s.hold m)
  else
    match s.arrive m with
    | some t => .next (t.unheld m)
    | none => .next ((if s.sysBound m then s else s.poolEmpty (dieNode (destOf m))).hold m)

/-- MATCH_OVERFLOW_MOVE (R159): the list's head enters a free entry of the store. -/
def execMatchOverflowMove (node : Nat) (s : State) : Out :=
  let c := s.core node
  match c.q.overflow with
  | a :: r =>
    if c.q.store.length < 256 then
      .next ((s.setCore node { c with q := { c.q with store := c.q.store ++ [a], overflow := r } }).setDie (dieNode node)
        ((s.die (dieNode node)).relist (r.length + 1) r.length))
    else .next s
  | [] => .next s

/-- SPILL_REFILL (R164): a head in flight enters the tail of its queue; else the head of the spill list is taken back where the queue has a free entry. -/
def execSpillRefill (node pri : Nat) (s : State) : Out :=
  let c := s.core node
  match c.q.refillAt pri with
  | some e => .next (s.setCore node { c with q := (c.q.setQueue pri (c.q.queueAt pri ++ [e])).setRefill pri none })
  | none =>
    match c.q.spillAt pri with
    | e :: r =>
      if (c.q.queueAt pri).length < c.q.depthAt pri then
        .next (((s.setCore node { c with q := (c.q.setSpill pri r).setRefill pri (some e) }).setDie (dieNode node)
          ((s.die (dieNode node)).relist (r.length + 1) r.length)).after 1 (.spillRefill node pri))
      else .next s
    | [] => .next s

end Sys2Proof.Machine
end

