-- ==== Sys2Proof/Machine/Replies.lean ====
section
/-! DEFINITION. Replies, acknowledgements and key-set replies at a core, and the end of a shootdown (R35, R43, R107, R124, R125, R150, R154, R162, R168, R182, R235, R236, R241, R244 to R246, R251, R352). -/

namespace Sys2Proof.Machine

/-! Statuses of the queue logic's answers ("as the answering endpoint defines", R147; log 11). -/

def queueFull : Nat := 7
def queueEmpty : Nat := 8
def queueNoRoom : Nat := 9
def queueInvalid : Nat := 10
def queueNotTask : Nat := 11

/-! What a core still awaits. -/

/-- A unit has acknowledged a shootdown; the last one completes it (R107). -/
def State.shootdownAck (s : State) (t : Shootdown) (u : TlbUnit) : State :=
  let l := s.shootdowns.map (fun e => if e.1 = t then (e.1, e.2.erase u) else e)
  let s1 := { s with shootdowns := l }
  if l.any (fun e => e.1 == t && e.2.isEmpty) ∧ s.shootdowns.any (fun e => e.1 == t && !e.2.isEmpty) then s1.due (.tlbiComplete t) else s1

/-- Nothing more is awaited for a request of a core; shootdowns that waited for it go on (R107 step 4). -/
def State.forget (s : State) (node tag : Nat) : State :=
  let c := s.core node
  let c1 := { c with pending := c.pending.filter (fun p => p.tag != tag), draining := c.draining.map (fun (e : Shootdown × List Nat) => (e.1, e.2.filter (fun k => k != tag))) }
  let left : List (Shootdown × List Nat) := c1.draining.filter (fun e => !e.2.isEmpty)
  let done : List (Shootdown × List Nat) := c1.draining.filter (fun e => e.2.isEmpty)
  done.foldl (fun t e => t.shootdownAck e.1 (.core node)) (s.setCore node { c1 with draining := left })

/-- A stray reply is discarded and counted (R162). -/
def State.stray (s : State) (node : Nat) : State := s.count node 4 1

/-- The acknowledgement that a REPLY's issuer awaits (R242). -/
def State.replyAccepted (s : State) (m : Packet) : State :=
  if m.wantAck then
    s.send { w0 := msgHeader m.src 0 ackSelector (jobOf m) 0 false 0 false 0 1, w1 := wordOf (m.aclass * 2 ^ 14)
             src := destOf m, aclass := m.aclass, tag := m.tag }
  else s

/-- An engine reports that a command is performed (R124). -/
def State.reportPerformed (s : State) (node tag : Nat) : State :=
  let c := s.core node
  match c.pending.find? (fun p => p.tag == tag) with
  | some p =>
    if p.acked then s.forget node tag
    else s.setCore node { c with pending := c.pending.map (fun q => if q.tag = tag then { q with performed := true } else q) }
  | none => s

/-- An engine answers a command with one beat, which a command without a result register drops, and reports it performed (R111, R124, R352). -/
def State.engineDone (s : State) (m : Packet) (w : Word) : State :=
  (if hidxOf m = ackSelector then s else s.answer m 0 [w]).reportPerformed m.src m.tag

/-- A command is performed: the array answers, reports it to the core, and goes on (R124, R299). -/
def State.doneMx (s : State) (m : Packet) (pay : List Word) : State := ((s.replyMx m pay).reportPerformed m.src m.tag).pump (destOf m)

/-- A message of an array's command is accepted; the last one lets the command be performed (R111, R413). -/
def State.arrayAccepted (s : State) (node : Nat) : State :=
  let c := s.cluster node
  match c.finishing with
  | none => s
  | some (m, pay) =>
    if 1 < c.awaited then s.setCluster node { c with awaited := c.awaited - 1 }
    else (s.setCluster node { c with awaited := 0, finishing := none, lease := c.lease.map (fun (l : MxLease) => { l with touched := s.clk }) }).doneMx m pay

/-! Filling a register (R182). -/

/-- The register of a slot takes a result: in the block's copy alone where the open block reserved the slot, else in both copies (R178, R182). -/
def Ctx.fill (x : Ctx) (u : SlotUse) (r : Reg) : Ctx :=
  if u.dropped ∨ u.reg = 0 then x
  else
    let x1 := { x with regs := x.regs.putReg u.reg r }
    if u.inBlock then x1 else { x1 with block := x1.block.map (fun b => { b with entry := b.entry.putReg u.reg r }) }

/-- A slot is freed; a Draining context whose last slot it was is Free (R154, R162). -/
def Ctx.freeSlotAt (x : Ctx) (z : Nat) : Ctx :=
  let l := adel x.slots z
  { x with slots := l, acquire := x.acquire.filter (fun k => k != z)
           status := if x.status = .draining ∧ l.isEmpty ∧ x.results = 0 then .free else x.status }

/-- A slot is freed and its register takes a result. -/
def State.fillSlot (s : State) (node k z : Nat) (u : SlotUse) (r : Reg) : State :=
  s.setCtx node k (((s.ctx node k).fill u r).freeSlotAt z)

/-- The register that a status marks, with the value it had (R35, R43, R129, R241). -/
def State.markedReg (s : State) (node k : Nat) (u : SlotUse) (st : RegState) : Reg := ⟨((s.ctx node k).regs.greg u.reg).val, st⟩

/-- The mark of a status in the answer to a remote operation (R147, R241). -/
def statusMark : Nat → RegState
  | 1 => .refused
  | 2 => .poisoned
  | 3 => .retired
  | 4 => .malformed
  | _ => .full

/-- A value cut to a size, sign-extended where asked (R230). -/
def sizedValue (w : Word) (size : Nat) (signed : Bool) : Word :=
  let v := w.toNat % 2 ^ (8 * 2 ^ size)
  if signed then wordOfInt (signExt v (8 * 2 ^ size)) else wordOf v

/-! The landing area of a QPOP (R246). -/

/-- Payload beats of a popped entry: what its reply carries behind the beat of header, key and TASK (R246). -/
def poppedBeats (m : Packet) : Nat := (m.payload.length - 4) / 4

/-- A popped entry is written at its landing area: header, key, zeros, and the payload filled with zeros; poisoned beats stay poisoned. -/
def State.landEntry (s : State) (node la : Nat) (m : Packet) : State :=
  let pa := localPhys node la
  let n := poppedBeats m
  let words := [m.payload.getD 0 0, m.payload.getD 1 0, 0, 0] ++ fit 32 0 ((m.payload.drop 4).take (4 * n))
  let s1 := (writeUnits s pa (bytesOfWords words)).1
  ((List.range n).filter (fun b => m.poison.getD (b + 1) false)).foldl (fun t b =>
    [0, 8, 16, 24].foldl (fun t o => t.addPoison (pa + 32 + 32 * b + o)) t) s1

/-- The status word of a POP (R246). -/
def popWord (status beats : Nat) (task : Bool) : Word := wordOf (status + beats * 256 + bitNat task * 4096)

/-- A popped task is received at the popping core (R247). -/
def State.popReceived (s : State) (node : Nat) (task : Bool) : State :=
  if task then (let c := s.core node; s.setCore node { c with recv := c.recv + 1 }) else s

/-- A queue command that was refused or is invalid: its sender raises a fault, and its register takes an open value (R68, log 12). -/
def State.queueRefused (s : State) (node k z : Nat) (u : SlotUse) : State :=
  ((s.fillSlot node k z u ⟨Config.openWord s.free, .full⟩).useOpen).notice node 0x39 k 0 0

/-! Keys. -/

/-- One command that names the key is over; one freed while in flight becomes Free with the last (R114, R251, R253, R353). -/
def Key.ground (k : Key) : Key := if k.freeOnSet ∧ k.flight ≤ 1 then { bit := k.bit } else { k with flight := k.flight - 1 }

/-- A key is set; the key-set reply of a STRM.GO or collective ends that command's flight (R251). -/
def Key.set (k : Key) (ends : Bool) : Key :=
  let x := { k with bit := true }
  if ends then x.ground else x

/-! What a reply does (R162). -/

/-- The notice that a refusal raises: queue-refused where queue logic answers, else remote-refused (R35, R68, R150). -/
def refusedCause (m : Packet) : Nat := if nodeIsEnd m.src ∧ nodeClass m.src = 4 then 0x39 else 0x38

/-- The answer to an access that returns a value (R35, R43, R230, R232). -/
def State.fillAccess (s : State) (node k z : Nat) (u : SlotUse) (m : Packet) (v : Word) : State :=
  let st := statusOf m
  let addr := (((s.core node).pending.find? (fun p => p.tag == m.tag)).map (fun p => p.addr)).getD 0
  if st = 0 then s.fillSlot node k z u ⟨v, .full⟩
  else
    let s1 := s.fillSlot node k z u (s.markedReg node k u (statusMark st))
    let told := st == 1 || (st == 2 && (match u.answer with | .atomic _ => true | _ => false))
    if told then s1.notice node 0x38 k addr 0 else s1

/-- FLG of MXSTAT takes the array's flags (R298). -/
def State.setMxFlags (s : State) (node x : Nat) : State := s.setCore node { s.core node with mxflags := .ofNat 5 x }

/-- A reply for a reserved slot is used as its instruction gives; one of a REPLY instruction brings a plain value to any slot (R147, R162, R242). -/
def State.useReply (s : State) (node k z : Nat) (u : SlotUse) (m : Packet) : State :=
  let w := m.payload.headD 0
  let st := statusOf m
  let plain := if beatsOf m = 0 then wordOf st else w
  if m.wantAck then s.fillSlot node k z u ⟨plain, .full⟩
  else
  match u.answer with
  | .load size signed => s.fillAccess node k z u m (sizedValue w size signed)
  | .atomic size => s.fillAccess node k z u m (sizedValue w size false)
  | .version | .tumbler => s.fillAccess node k z u m w
  | .message | .engine =>
    let s1 := s.fillSlot node k z u ⟨plain, .full⟩
    if st = 1 ∧ beatsOf m = 0 then s1.notice node (refusedCause m) k 0 0 else s1
  | .lease _ => s.fillSlot node k z u ⟨w, .full⟩
  | .raw stat => (if stat then s.setMxFlags node (fieldOf w 13 9) else s).fillSlot node k z u ⟨w, .full⟩
  | .matrix => (s.setMxFlags node (fieldOf (m.payload.getD 1 0) 4 0)).fillSlot node k z u ⟨w, .full⟩
  | .spawn | .push _ =>
    if st = 0 then s.fillSlot node k z u ⟨1, .full⟩
    else if st = queueFull then s.fillSlot node k z u ⟨0, .full⟩
    else s.queueRefused node k z u
  | .pop la =>
    if st = 0 then
      let task := flagOf (m.payload.getD 2 0) 0
      let s1 := (s.landEntry node la m).popReceived node task
      s1.fillSlot node k z u ⟨popWord 0 (poppedBeats m) task, .full⟩
    else if st = queueEmpty then s.fillSlot node k z u ⟨popWord 1 0 false, .full⟩
    else s.queueRefused node k z u
  | .popFwd =>
    if st = 0 then s.fillSlot node k z u ⟨popWord 0 0 true, .full⟩
    else if st = queueEmpty then s.fillSlot node k z u ⟨popWord 1 0 false, .full⟩
    else if st = queueNotTask then s.fillSlot node k z u ⟨popWord 2 0 false, .full⟩
    else s.queueRefused node k z u
  | .popLen => if st = 0 then s.fillSlot node k z u ⟨w, .full⟩ else s.queueRefused node k z u
  | .streamGo key nb req =>
    let code := fieldOf w 39 32
    let c := s.core node
    if code = 1 ∧ !nb then s.after 64 (.strmGoResend node req)
    else
      let s1 := if code = 0 then s else s.setCore node (c.setKey key (c.key key).ground)
      let s2 := s1.fillSlot node k z u ⟨w, .full⟩
      if code = 2 then s2.notice node 0x40 k 0 (wordOf (fieldOf w 47 40)) else s2
  | .collective _ => s.fillSlot node k z u ⟨w, .full⟩
  | .shootdown => s.fillSlot node k z u ⟨0, .full⟩
  | .effect _ _ => s.fillSlot node k z u ⟨plain, .full⟩

/-- A slot stays reserved for a GO that is sent again (R353). -/
def keepsSlot (u : SlotUse) (m : Packet) : Bool :=
  match u.answer with
  | .streamGo _ nb _ => !m.wantAck && !nb && fieldOf (m.payload.headD 0) 39 32 == 1
  | _ => false

/-- REPLY_SLOT_FILL (R162). -/
def execReplySlotFill (m : Packet) (s : State) : Out :=
  let node := destOf m
  let k := hidxOf m / 16
  let z := hidxOf m % 16
  let s0 := s.replyAccepted m
  match if k ≤ 10 then aget (s.ctx node k).slots z else none with
  | none => .next (s0.stray node)
  | some u =>
    let s1 := s0.useReply node k z u m
    .next (if m.wantAck ∨ keepsSlot u m then s1 else s1.forget node m.tag)

/-! Acknowledgements (R111, R125, R162). -/

/-- What an acknowledgement of an effect raises; of a command, a reply or a message only a refusal does: any other STATUS of an engine is a plain value (R35, R43, R68, R150, R168, R229, R235, R236, R241, R245). -/
def State.ackNotice (s : State) (node : Nat) (p : Pending) (st : Nat) (m : Packet) : State :=
  if st = 0 then s
  else
    match p.answer with
    | .effect op addr =>
      if op = 0xFF then (if st = 1 then s.notice node (refusedCause m) p.ctx addr 0 else s)
      else if op = 0x11 ∨ op = 0x12 then
        if st = 4 then s.notice node 0x2C p.ctx addr 0
        else if st = 2 then s.notice node 0x2D p.ctx addr 0
        else s.notice node 0x38 p.ctx addr 0
      else if (op = 0x18 ∨ op = 0x19) ∧ (st = 5 ∨ st = 6) then s.notice node (if st = 5 then 0x60 else 0x61) p.ctx 0 (m.payload.headD 0)
      else s.notice node 0x38 p.ctx addr 0
    | .push h =>
      if st = queueFull then s.notice node 0x3A p.ctx 0 (wordOf (fieldOf h 37 0)) else s.notice node 0x39 p.ctx 0 0
    | _ => if st = 1 then s.notice node (refusedCause m) p.ctx 0 0 else s

/-- A beat of a copy is acknowledged to the node that reads the source; the last one acknowledges the copy to its issuer (R233). -/
def State.copyAcked (s : State) (tag st : Nat) : State :=
  match s.copies.find? (fun x => x.tag == tag) with
  | none => s
  | some x =>
    let worst := if x.worst = 0 then st else x.worst
    if 1 < x.left then { s with copies := s.copies.map (fun y => if y.tag = tag then { y with left := y.left - 1, worst := worst } else y) }
    else ({ s with copies := s.copies.filter (fun y => y.tag != tag) }).answer x.request worst

/-- The classes of the engines that acknowledge a command when they accept it and report it when it is performed: collective units, seal engines and matrix arrays (R111, R124). -/
def reportsWork (p : Pending) : Bool := p.engine == some 1 || p.engine == some 2 || p.engine == some 7

/-- A REPLY whose selector is that of acknowledgements is accepted, and counted for its ACLASS: no release waits any longer for the oldest effect of that class; without one it is a stray reply (R162, R242; log 95). -/
def State.countReply (s : State) (m : Packet) : State :=
  let node := destOf m
  let s1 := s.replyAccepted m
  let c := s1.core node
  match c.pending.find? (fun p => !p.read && !p.acked && p.aclass == fieldOf m.w1 15 14) with
  | none => s1.stray node
  | some p => s1.setCore node { c with pending := c.pending.map (fun q => if q.tag = p.tag then { q with acked := true } else q) }

/-- An answer to a message that no request awaits: a refused message of a unit of the quad, such as a tumbler's, raises the remote-refused notice (R150); any other is stray. An endpoint that sent one drops its answer. -/
def State.unasked (s : State) (m : Packet) : State :=
  if nodeIsEnd (destOf m) then s
  else if m.tag = 0 ∧ statusOf m = 1 then s.notice (destOf m) 0x38 15 0 0
  else s.stray (destOf m)

/-- ACKNOWLEDGEMENT (R162): the last answer of an effect ends it; a command of an engine that reports its work ends when it is performed too (R124). -/
def execAcknowledgement (m : Packet) (s : State) : Out :=
  let node := destOf m
  let c := s.core node
  if m.wantAck then .next (s.countReply m)
  else if nodeIsEnd node ∧ nodeClass node = 7 then .next (s.arrayAccepted node)
  else if s.copies.any (fun x => x.tag == m.tag) then .next (s.copyAcked m.tag (statusOf m))
  else
  match c.pending.find? (fun p => p.tag == m.tag) with
  | none => .next (s.unasked m)
  | some p =>
    let worst := if p.worst = 0 then statusOf m else p.worst
    if 1 < p.left then
      .next (s.setCore node { c with pending := c.pending.map (fun q => if q.tag = m.tag then { q with left := q.left - 1, worst := worst } else q) })
    else
      let s1 := s.ackNotice node p worst m
      if reportsWork p ∧ !p.performed ∧ statusOf m = 0 then
        let c1 := s1.core node
        .next (s1.setCore node { c1 with pending := c1.pending.map (fun q => if q.tag = m.tag then { q with acked := true } else q) })
      else .next (s1.forget node m.tag)

/-- KEY_SET_REPLY (R162, R251): of a stream or collective, of a PULL, or of a REPLY.key; the last two leave a key in flight (R71; log 13). -/
def execKeySetReply (m : Packet) (s : State) : Out :=
  let node := destOf m
  let k := fieldOf m.w1 13 8
  let s0 := s.replyAccepted m
  let c := s0.core node
  if (c.key k).alloc = .free then .next (s0.stray node)
  else .next (s0.setCore node (c.setKey k ((c.key k).set (!m.wantAck && m.tag == 0))))

/-! The end of a shootdown (R107, R360). -/

/-- TLBI_COMPLETE (R107): the issuer's register fills with 0. -/
def execTlbiComplete (t : Shootdown) (s : State) : Out :=
  let s1 := { s with shootdowns := s.shootdowns.filter (fun e => e.1 != t) }
  let s2 := match t.slot with
    | some z =>
      match aget (s1.ctx t.issuer t.ctx).slots z with
      | some u => s1.fillSlot t.issuer t.ctx z u ⟨0, .full⟩
      | none => s1
    | none => s1
  .next (s2.forget t.issuer t.tag)

end Sys2Proof.Machine
end

