-- ==== Sys2Proof/Machine/Tumblers.lean ====
section
/-! DEFINITION. Version cells, tumbler updates and read-modify-write operations at a store (R39 to R41, R128 to R136, R167, R168, R228). -/

namespace Sys2Proof.Machine

/-! Atomic operations (Table 10-2). -/

/-- The new value of an atomic operation at a size code. -/
def atomicNew (kind z old b expect : Nat) : Nat :=
  let w := 2 ^ (8 * 2 ^ z)
  let so := signExt old (8 * 2 ^ z)
  let sb := signExt b (8 * 2 ^ z)
  match kind with
  | 0 => (old + b) % w
  | 1 => old &&& b
  | 2 => old ||| b
  | 3 => old ^^^ b
  | 4 => if so ≤ sb then old else b
  | 5 => if sb ≤ so then old else b
  | 6 => min old b
  | 7 => max old b
  | 8 => b
  | _ => if old = expect then b else old

/-- One indivisible operation on a physical address (R135): the old value, or none where the word is poisoned (Table 2-8). -/
def State.atomicAt (s : State) (pa kind z b expect : Nat) : Option (Nat × State) :=
  let n := 2 ^ z
  let w := 2 ^ (8 * n)
  if anyPoison s pa n then none
  else
    let old := natOfBytes (Memory.readN s.mem pa n)
    some (old, { s with mem := Memory.writeN s.mem pa (bytesOfNat n (atomicNew kind z old (b % w) (expect % w))) })

/-! Version cells (Table 2-7). -/

def cellCur (w : Word) : Nat := fieldOf w 15 0
def cellDepth (w : Word) : Nat := fieldOf w 17 16
def cellValid (w : Word) (k : Nat) : Bool := flagOf w (18 + k)
def cellNewest (w : Word) : Nat := fieldOf w 23 22
def cellFloor (w : Word) : Nat := fieldOf w 47 32

/-- VER of a slot of the cell at a physical address. -/
def State.cellVer (s : State) (pa k : Nat) : Nat := natOfBytes (Memory.readN s.mem (pa + 48 + 2 * k) 2)

/-- VAL of a slot. -/
def State.cellVal (s : State) (pa k : Nat) : Word := Memory.word s.mem (pa + 16 + 8 * k)

/-- Malformed(cell) (R41). -/
def State.cellMalformed (s : State) (pa : Nat) : Bool :=
  let w := Memory.word s.mem pa
  (fieldOf w 31 24 != 0) || (fieldOf w 63 48 != 0) || (Memory.word s.mem (pa + 8) != 0) || (Memory.word s.mem (pa + 56) != 0) ||
  (List.range 4).any (fun k => cellValid w k && decide (cellDepth w < k)) ||
  !cellValid w (cellNewest w) || (s.cellVer pa (cellNewest w) != cellCur w)

/-- The slot that retains a version (R128). -/
def State.cellRetained (s : State) (pa v : Nat) : Option Nat :=
  let w := Memory.word s.mem pa
  if older v (cellFloor w) then none
  else (List.range 4).find? (fun k => cellValid w k && s.cellVer pa k == v)

/-- A slot is free (R128); only slots up to DEPTH exist. -/
def State.cellFree (s : State) (pa k : Nat) : Bool :=
  let w := Memory.word s.mem pa
  decide (k ≤ cellDepth w) && (!cellValid w k || (k == cellNewest w && older (cellCur w) (cellFloor w)))

/-- What a versioned read finds (R129): none where its version is newer than CUR and it enters a watch, else a value or Retired. -/
def State.cellAnswer (s : State) (pa v : Nat) : Option (Option Word) :=
  let w := Memory.word s.mem pa
  if newer v (cellCur w) then none
  else some ((s.cellRetained pa v).map (s.cellVal pa))

/-- What an examined watch is answered with (R132): the value where its version is retained, Retired where it is not and is not newer than CUR. -/
def State.watchAnswer (s : State) (pa v : Nat) : Option (Option Word) :=
  match s.cellRetained pa v with
  | some k => some (some (s.cellVal pa k))
  | none => if newer v (cellCur (Memory.word s.mem pa)) then none else some none

/-- Answers a versioned read (R129). -/
def State.answerVersion (s : State) (req : Packet) (r : Option Word) : State :=
  match r with
  | some v => s.answer req 0 [v]
  | none => s.answer req 3

/-- A versioned read is performed at its cell (R129); one that needs a watch enters it, or waits for one behind those that do (R132). -/
def State.readVersion (s : State) (quad : Nat) (e : CellWatch) : State :=
  if anyPoison s e.cell 64 then s.answer e.request 2
  else if s.cellMalformed e.cell then s.answer e.request 4
  else
    match s.cellAnswer e.cell e.version with
    | some r => s.answerVersion e.request r
    | none =>
      let q := s.quad quad
      if q.watches.length < 64 ∧ q.waitingReads.isEmpty then s.setQuad quad { q with watches := q.watches ++ [e] }
      else s.setQuad quad { q with waitingReads := q.waitingReads ++ [e] }

/-- The watches of a cell are examined; where one is freed, the versioned reads that waited for a watch are performed, in arrival order, until none is free (R132). -/
def State.examineWatches (s : State) (quad pa : Nat) : State :=
  let q := s.quad quad
  let hit (e : CellWatch) : Bool := e.cell == pa && (s.watchAnswer pa e.version).isSome
  let s1 := (q.watches.filter hit).foldl (fun t e => t.answerVersion e.request ((s.watchAnswer pa e.version).getD none)) s
  let s2 := s1.setQuad quad { q with watches := q.watches.filter (fun e => !hit e) }
  if (q.watches.filter hit).isEmpty then s2
  else q.waitingReads.foldl (fun t e => t.readVersion quad e) (s2.setQuad quad { s2.quad quad with waitingReads := [] })

/-- The lowest slot of a cell that is free and not reserved (R130). -/
def State.openSlot (s : State) (quad pa : Nat) : Option Nat :=
  (List.range 4).find? (fun k => s.cellFree pa k && !((s.quad quad).reservations.any (fun r => r.cell == pa && r.slot == k)))

/-- A slot of a cell is reserved for a VST where one is free, fewer than 16 are held at the store, and no reservation that could go on waits before it (R130). -/
def State.reserveCell (s : State) (quad pa node ctx tag : Nat) : Option State :=
  let q := s.quad quad
  let ahead := (q.waitingReservations.takeWhile (fun r => !(r.node == node && r.ctx == ctx && r.tag == tag))).any
    (fun r => (s.openSlot quad r.cell).isSome)
  match s.openSlot quad pa with
  | some k =>
    if 16 ≤ q.reservations.length ∨ ahead then none
    else some (s.setQuad quad { q with
      reservations := q.reservations ++ [⟨pa, k, node, ctx, tag, false⟩]
      waitingReservations := q.waitingReservations.filter (fun r => !(r.node == node && r.ctx == ctx && r.tag == tag)) })
  | none => none

/-- A reservation waits at the store in arrival order (R130). -/
def State.waitCell (s : State) (quad pa node ctx tag : Nat) : State :=
  let q := s.quad quad
  if q.waitingReservations.any (fun r => r.node == node && r.ctx == ctx && r.tag == tag) then s
  else s.setQuad quad { q with waitingReservations := q.waitingReservations ++ [⟨pa, 0, node, ctx, tag, false⟩] }

/-! Tumblers (R39, R40, R167, R168). -/

def actionOffset (i : Nat) : Nat := 0x24000 + 32 * i

/-- The action record of a tumbler; none where it reads as poisoned. -/
def State.actionWords (s : State) (quad i : Nat) : Option ActionRecord :=
  let pa := localPhys quad (actionOffset i)
  if anyPoison s pa 32 then none
  else some ⟨Memory.word s.mem pa, Memory.word s.mem (pa + 8), Memory.word s.mem (pa + 16), Memory.word s.mem (pa + 24)⟩

/-- The header that a fire forms: JOB and KIND replaced (Table 2-6). -/
def ActionRecord.header (a : ActionRecord) (job : Nat) : Word := putField (putField a.hdr 30 19 job) 1 0 0

/-- The work key that a fire forms: with IDX, the index is added to the innermost field (Table 2-6). -/
def ActionRecord.keyFor (a : ActionRecord) (wkdesc : Word) (i : Nat) : Word :=
  if flagOf a.ctl 3 then wkPutTag wkdesc a.key (wkTag wkdesc a.key + i) else a.key

/-- A header that a fire forms is malformed (R149). -/
def firedMalformed (wkdesc h key : Word) : Bool :=
  malformedHeader wkdesc 8 0 (fieldOf h 18 15) (flagOf h 14) (fieldOf h 13 9) key || flagOf h 41 || flagOf h 2

/-- The record is valid (R40). -/
def State.actionValid (s : State) (quad i : Nat) (a : ActionRecord) : Bool :=
  let act := fieldOf a.ctl 1 0
  let n := fieldOf a.hdr 63 42
  let job := ((s.quad quad).job).getD 0
  (fieldOf a.ctl 63 10 == 0) && (fieldOf a.ptr 63 18 == 0) && (fieldOf a.ptr 4 0 == 0) &&
  (act != 1 || (!nodeIsEnd n && quadOf n == quadOf quad)) &&
  (act != 3 || (goodNode s.present n &&
    !firedMalformed (s.core (quadOf quad)).wkdesc (a.header job) (a.keyFor (s.core (quadOf quad)).wkdesc i)))

/-- A valid action record of a tumbler. -/
def State.actionOf (s : State) (quad i : Nat) : Option ActionRecord :=
  match s.actionWords quad i with
  | some a => if s.actionValid quad i a then some a else none
  | none => none

/-- TRAPINFO of a tumbler fault (R168). -/
def tumblerInfo (quad i amount : Nat) (dec : Bool) : Word :=
  wordOf (i % 512 + quadOf quad % 2 ^ 22 * 2 ^ 9 + amount % 2 ^ 24 * 2 ^ 31 + bitNat dec * 2 ^ 55)

/-- A tumbler update (R167): the fault that stops it, or the new state. A tumbler that fills is noted to fire, with its action record, which is read now and once; none where it is invalid (R40, R136; log 106). -/
def State.updateTumbler (s : State) (quad i amount : Nat) (dec : Bool) : Except Nat State :=
  let q := s.quad quad
  let t := q.tumbler i
  if dec ∧ t.count < amount then .error 0x60
  else if !dec ∧ 2 ^ 24 ≤ t.count + amount then .error 0x61
  else
    let n := if dec then t.count - amount else t.count + amount
    let fires := t.arm && (if dec then decide (t.target < t.count) && decide (n ≤ t.target) else decide (t.count < t.target) && decide (t.target ≤ n))
    if !fires then .ok (s.setQuad quad { q with tumblers := aset q.tumblers i { t with count := n } })
    else
      let x := { t with count := n, ovs := t.ovs || (n != t.target) }
      let r := s.actionOf quad i
      let x1 := if r.any (fun a => flagOf a.ctl 2) then { x with count := 0 } else { x with arm := false }
      .ok (s.setQuad quad { q with tumblers := aset q.tumblers i x1, fires := q.fires ++ [(i, r)] })

/-- TARM at the tumbler file (R249). -/
def State.armTumbler (s : State) (quad i : Nat) (w : Word) : State :=
  let q := s.quad quad
  s.setQuad quad { q with tumblers := aset q.tumblers i ⟨fieldOf w 23 0, fieldOf w 47 24, flagOf w 48, false⟩ }

/-- The message that a fire forms, with its payload read from G (Table 2-6). R39 and R40 do not say what becomes of a payload, or of a chain, whose bytes from PTR leave the job region or pass the end of G: the bytes that follow are read, which is the model's DESIGN CHOICE (log 102). -/
def State.firedMessage (s : State) (quad i : Nat) (a : ActionRecord) : Packet :=
  let job := ((s.quad quad).job).getD 0
  let h := a.header job
  let beats := fieldOf h 18 15
  let pa := localPhys quad (fieldOf a.ptr 17 0)
  { w0 := h
    w1 := a.keyFor (s.core (quadOf quad)).wkdesc i
    payload := wordsOf (Memory.readN s.mem pa (32 * beats)) (4 * beats)
    poison := (List.range beats).map (fun k => anyPoison s (pa + 32 * k) 32)
    src := quadOf quad
    aclass := aclassOf quad (fieldOf h 63 42) }

end Sys2Proof.Machine
end

