-- ==== Sys2Proof/Machine/Access.lean ====
section
/-! DEFINITION. Remote operations at their destination: reads, writes, atomics, versioned accesses, tumbler operations and copies (R35, R43, R129 to R132, R150, R167, R168, R228 to R236). -/

namespace Sys2Proof.Machine

/-- An arriving operation is performed, unless an earlier arrival of its source still waits at the quad (R121) or its stack is paused (R473). -/
def State.performRemote (s : State) (m : Packet) (f : State → State) : Out :=
  if !nodeIsEnd (destOf m) ∧ s.waitsBehind m then .next (s.hold m)
  else s.unlessPaused m (.next ((f s).unheld m))

/-- The rights of Table 2-3 at the owner of a physical address; HBM bears every remote access. -/
def placeAllows (e : Engine) (pa n : Nat) (write : Bool) : Bool :=
  match placeOf pa with
  | .hbm _ => true
  | .store _ sel off => allowed e sel write && decide (off + n ≤ storeSize sel)
  | .reserved => false

/-- REMOTE_READ (R230). -/
def execRemoteRead (m : Packet) (s : State) : Out :=
  s.performRemote m (fun s =>
    let pa := physOf m
    let n := 2 ^ sizeOf m
    if !placeAllows .remoteRead pa n false then s.answer m 1
    else if anyPoison s pa n then s.answer m 2
    else s.answer m 0 [wordOf (natOfBytes (Memory.readN s.mem pa n))])

/-- REMOTE_WRITE (R231, R44). -/
def execRemoteWrite (m : Packet) (s : State) : Out :=
  s.performRemote m (fun s =>
    let pa := physOf m
    let n := 2 ^ sizeOf m
    if !placeAllows .remoteWrite pa n true then s.answer m 1
    else
      match writeUnits s pa ((bytesOf m).take n) with
      | (t, []) => t.answer m 0
      | (t, _) => t.answer m 2)

/-- An atomic message (R135, R228, R232). -/
def State.remoteAtomic (s : State) (m : Packet) (kind : Nat) : Out :=
  s.performRemote m (fun s =>
    let pa := physOf m
    let z := sizeOf m
    if !placeAllows .rmw pa (2 ^ z) true then s.answer m 1
    else
      match s.atomicAt pa kind z (m.payload.getD 0 0).toNat (m.payload.getD 1 0).toNat with
      | some (old, t) => t.answer m 0 [wordOf old]
      | none => s.answer m 2)

/-- REMOTE_ATOMIC_ADD (R228). -/
def execRemoteAtomicAdd (m : Packet) (s : State) : Out := s.remoteAtomic m 0
/-- REMOTE_ATOMIC_AND (R228). -/
def execRemoteAtomicAnd (m : Packet) (s : State) : Out := s.remoteAtomic m 1
/-- REMOTE_ATOMIC_OR (R228). -/
def execRemoteAtomicOr (m : Packet) (s : State) : Out := s.remoteAtomic m 2
/-- REMOTE_ATOMIC_XOR (R228). -/
def execRemoteAtomicXor (m : Packet) (s : State) : Out := s.remoteAtomic m 3
/-- REMOTE_ATOMIC_MIN (R228). -/
def execRemoteAtomicMin (m : Packet) (s : State) : Out := s.remoteAtomic m 4
/-- REMOTE_ATOMIC_MAX (R228). -/
def execRemoteAtomicMax (m : Packet) (s : State) : Out := s.remoteAtomic m 5
/-- REMOTE_ATOMIC_MINN (R228). -/
def execRemoteAtomicMinn (m : Packet) (s : State) : Out := s.remoteAtomic m 6
/-- REMOTE_ATOMIC_MAXN (R228). -/
def execRemoteAtomicMaxn (m : Packet) (s : State) : Out := s.remoteAtomic m 7
/-- REMOTE_ATOMIC_SWAP (R228). -/
def execRemoteAtomicSwap (m : Packet) (s : State) : Out := s.remoteAtomic m 8
/-- REMOTE_ATOMIC_CAS (R228). -/
def execRemoteAtomicCas (m : Packet) (s : State) : Out := s.remoteAtomic m 9

/-! Versioned accesses (R129 to R132). -/

/-- The access may touch a version cell at a physical address (R29, R34). -/
def cellAllowed (pa : Nat) (write : Bool) : Bool := placeAllows .versioned pa 64 write && pa % 64 == 0

/-- VERSIONED_READ (R129). -/
def execVersionedRead (m : Packet) (s : State) : Out :=
  s.performRemote m (fun s =>
    let pa := physOf m
    let v := fieldOf (m.payload.headD 0) 15 0
    if !cellAllowed pa false then s.answer m 1
    else s.readVersion (destOf m) ⟨pa, v, m⟩)

/-- A slot of the cell takes the next version (R130). -/
def State.writeVersion (s : State) (pa k : Nat) (v : Word) : State :=
  let w := Memory.word s.mem pa
  let n := (cellCur w + 1) % 65536
  let w1 := putField (putField (putField w 15 0 n) (18 + k) (18 + k) 1) 23 22 k
  { s with mem := Memory.writeWord (Memory.writeN (Memory.writeWord s.mem (pa + 16 + 8 * k) v) (pa + 48 + 2 * k) (bytesOfNat 2 n)) pa w1 }

/-- VERSIONED_WRITE (R130, R235). -/
def execVersionedWrite (m : Packet) (s : State) : Out :=
  s.performRemote m (fun s =>
    let pa := physOf m
    let quad := destOf m
    let q := s.quad quad
    match q.reservations.find? (fun r => r.node == m.src && r.tag == m.tag) with
    | none => s.answer m 1
    | some r =>
      let s1 := s.setQuad quad { q with reservations := q.reservations.filter (fun x => x != r) }
      if anyPoison s pa 64 then s1.answer m 2
      else if s.cellMalformed pa then s1.answer m 4
      else ((s1.writeVersion pa r.slot (m.payload.headD 0)).examineWatches quad pa).answer m 0)

/-- The cell with the versions older than v retired (R131). -/
def State.retireVersions (s : State) (pa v : Nat) : State :=
  let w := Memory.word s.mem pa
  let next := (cellCur w + 1) % 65536
  let v := if newer v next then next else v
  if !newer v (cellFloor w) then s
  else
    let drop := (List.range 4).filter (fun k => k != cellNewest w && cellValid w k && older (s.cellVer pa k) v)
    { s with mem := Memory.writeWord s.mem pa (drop.foldl (fun x k => putField x (18 + k) (18 + k) 0) (putField w 47 32 v)) }

/-- VERSION_RETIRE (R131, R236). -/
def execVersionRetire (m : Packet) (s : State) : Out :=
  s.performRemote m (fun s =>
    let pa := physOf m
    if !cellAllowed pa true then s.answer m 1
    else if anyPoison s pa 64 then s.answer m 2
    else if s.cellMalformed pa then s.answer m 4
    else ((s.retireVersions pa (fieldOf (m.payload.headD 0) 15 0)).examineWatches (destOf m) pa).answer m 0)

/-! Tumblers (R167, R168, R248 to R250). -/

def tumblerIndex (m : Packet) : Nat := bits (addrOf m) 8 0
def tumblerAmount (m : Packet) : Nat := bits (addrOf m) 32 9

/-- A tumbler operation has arrived: the quad's tumbler file performs it, after the drains of the clk and in arrival order (R136). -/
def State.toTumblerFile (s : State) (m : Packet) : State :=
  let q := s.quad (destOf m)
  s.setQuad (destOf m) { q with updates := q.updates ++ [m] }

/-- An earlier arrival of its source waits at the network interface of a tumbler operation's quad (R121). -/
def State.tumblerBehind (s : State) (m : Packet) : Bool :=
  (s.heldBefore m).any (fun e => !nodeIsEnd (destOf e) && quadOf (destOf e) == quadOf (destOf m) && e.src == m.src)

/-- An operation that an atomic message brings goes to the tumbler file, unless an earlier arrival of its source still waits at the network interface (R121). -/
def State.remoteTumbler (s : State) (m : Packet) : Out :=
  .next (if s.tumblerBehind m then s.hold m else (s.toTumblerFile m).unheld m)

/-- TUMBLER_INCREMENT (R167). -/
def execTumblerIncrement (m : Packet) (s : State) : Out := s.remoteTumbler m

/-- TUMBLER_DECREMENT (R167). -/
def execTumblerDecrement (m : Packet) (s : State) : Out := s.remoteTumbler m

/-- TUMBLER_ARM (R249). -/
def execTumblerArm (m : Packet) (s : State) : Out := s.remoteTumbler m

/-- TUMBLER_READ (R250). -/
def execTumblerRead (m : Packet) (s : State) : Out := s.remoteTumbler m

/-- The tumbler file performs an operation of an atomic message (R136, R167, R168, R249, R250). -/
def State.performTumbler (s : State) (m : Packet) : State :=
  let node := destOf m
  let i := tumblerIndex m
  let n := tumblerAmount m
  let op := opOf m
  if op = 0x1A then (s.armTumbler node i (m.payload.headD 0)).answer m 0
  else if op = 0x1B then s.answer m 0 [((s.quad node).tumbler i).word]
  else
    let dec := op == 0x19
    match s.updateTumbler node i n dec with
    | .ok t => t.answer m 0
    | .error c => s.answer m (if c = 0x60 then 5 else 6) [tumblerInfo node i n dec]

/-- OP of Table 10-3 is an update, of which the file performs two in a clk (R136, R167). -/
def updateOp (op : Nat) : Bool := op == 0x18 || op == 0x19

def isUpdate (m : Packet) : Bool := updateOp (opOf m)

/-- The tumbler file performs an operation of a commit drain; a fault goes to the committing core (R168). -/
def State.performDrain (s : State) (u : LocalUpdate) : State :=
  if u.op = 0x1A then s.armTumbler u.node u.index u.arg
  else
    match s.updateTumbler u.node u.index u.arg.toNat (u.op == 0x19) with
    | .ok t => t
    | .error c => s.notice u.node c u.ctx 0 (tumblerInfo u.node u.index u.arg.toNat (u.op == 0x19))

/-- Operations of commit drains in their order until the updates of the clk are used up; n is how many are left, and so is the answer (R136, R410). -/
def State.performDrains (s : State) (node n : Nat) : List LocalUpdate → State × Nat
  | [] => (s, n)
  | u :: r =>
    if updateOp u.op ∧ n = 0 then (s.setQuad node { s.quad node with drains := u :: r }, 0)
    else (s.performDrain u).performDrains node (n - bitNat (updateOp u.op)) r

/-- Operations in arrival order until the updates of the clk are used up; n is how many are left. -/
def State.performTumblers (s : State) (node n : Nat) : List Packet → State
  | [] => s
  | m :: r =>
    if isUpdate m ∧ n = 0 then s.setQuad node { s.quad node with updates := m :: r }
    else (s.performTumbler m).performTumblers node (n - bitNat (isUpdate m)) r

/-- A quad's tumbler file at the end of a clk: the updates of commit drains, then those of atomic messages, two in all; the tumblers that have filled fire in ascending index (R136). -/
def State.tumblerFile (s : State) (node : Nat) : State :=
  let q := s.quad node
  let (s1, n) := (s.setQuad node { q with drains := [], updates := [] }).performDrains node 2 q.drains
  let t := s1.performTumblers node n q.updates
  t.dueAll ((sortBy (fun x y => decide (x ≤ y)) ((t.quad node).fires.map (·.1))).map (fun i => .tumblerFire (quadOf node) i))

/-! Copies (R233). -/

/-- One beat of a copy, with its poison; a beat for a reserved address goes nowhere. -/
def State.copyBeatTo (s : State) (m : Packet) (tag src dst : Nat) : Packet :=
  let p := remoteOp (destOf m) 0x21 0 dst ackSelector (jobOf m) tag (wordsOf (Memory.readN s.mem src 32) 4)
  { p with poison := [anyPoison s src 32] }

/-- COPY (R233): the source node reads the piece and sends its beats. -/
def execCopy (m : Packet) (s : State) : Out :=
  s.performRemote m (fun s =>
    let src := physOf m
    let dst := (m.payload.getD 0 0).toNat
    let n := (m.payload.getD 1 0).toNat / 32
    let ks := List.range n
    if !placeAllows .remoteRead src (32 * n) false ∨ ks.any (fun k => (ownerOf (dst + 32 * k)).isNone) ∨ n = 0 then s.answer m 1
    else
      let tag := 2 ^ 40 + s.copyCount
      let worst := if ks.any (fun k => anyPoison s (src + 32 * k) 32) then 2 else 0
      let job : CopyJob := ⟨tag, m, n, worst⟩
      ({ s with copies := s.copies ++ [job], copyCount := s.copyCount + 1 }).dueAll
        (ks.map (fun k => route (s.copyBeatTo m tag (src + 32 * k) (dst + 32 * k)))))

/-- The poison code in every unit of a beat (R42, R48). -/
def State.poisonBeat (s : State) (pa : Nat) : State := [0, 8, 16, 24].foldl (fun t o => t.addPoison (pa + o)) s

/-- COPY_BEAT (R233). -/
def execCopyBeat (m : Packet) (s : State) : Out :=
  s.performRemote m (fun s =>
    let pa := physOf m
    if !placeAllows .copyDest pa 32 true then s.answer m 1
    else if m.poison.headD false then (s.poisonBeat pa).answer m 0
    else (writeUnits s pa ((bytesOf m).take 32)).1.answer m 0)

/-- REFUSED_OPERATION (R150, R229). -/
def execRefusedOperation (m : Packet) (s : State) : Out := .next (s.answer m 1)

end Sys2Proof.Machine
end

