-- ==== Sys2Proof/Syntax.lean ====
section
/-! DEFINITION. The one inductive of instructions: a constructor for each row of the opcode table.
The first 219 are the encoded instructions (Table 8-7), each with the fields of its word.
The last 117 are the steps of the device that no word encodes; their arguments name the unit that acts, or the message that it performs. -/

namespace Sys2Proof

/-- An instruction word of the Izelo set, or a step of the device (R193 and 95_what_each_step_holds).
Field names: p qualifier, d a b c registers, x ea, y eb, s sub or s, i immediate, o offset, e exit, t type, k condition bits, n custom opcode. -/
inductive Instr where
  /-- NOP (R209). -/
  | nop (p : BitVec 4)
  /-- EXIT (R202). -/
  | exit (p : BitVec 4) (e : BitVec 3) (o : BitVec 17)
  /-- CALL (R202). -/
  | call (p : BitVec 4) (e : BitVec 3) (o : BitVec 17)
  /-- RET (R202). -/
  | ret (p : BitVec 4) (e : BitVec 3)
  /-- LOOP (R202). -/
  | loop (p : BitVec 4) (e : BitVec 3) (o : BitVec 17)
  /-- DONE (R204). -/
  | done (p : BitVec 4)
  /-- COMMIT (R205). -/
  | commit (p : BitVec 4)
  /-- YIELD (R206). -/
  | yield (p : BitVec 4) (i : BitVec 15)
  /-- TRAP (R207). -/
  | trap (p : BitVec 4) (d : BitVec 5) (i : BitVec 15)
  /-- BKPT (R207). -/
  | bkpt (p : BitVec 4) (i : BitVec 15)
  /-- WAITF (R208). -/
  | waitf (p : BitVec 4) (a : BitVec 5) (s : BitVec 3)
  /-- EMPTY (R208). -/
  | empty (p : BitVec 4) (d : BitVec 3) (a : BitVec 5) (s : BitVec 3)
  /-- EXITR (R202). -/
  | exitr (p : BitVec 4) (e : BitVec 3) (a : BitVec 5)
  /-- CALLR (R202). -/
  | callr (p : BitVec 4) (e : BitVec 3) (a : BitVec 5)
  /-- ADD (R210). -/
  | add (p : BitVec 4) (d : BitVec 5) (a : BitVec 5) (b : BitVec 5) (x : BitVec 1) (y : BitVec 1)
  /-- ADDI (R211). -/
  | addi (p : BitVec 4) (d : BitVec 5) (a : BitVec 5) (i : BitVec 10)
  /-- SUB (R210). -/
  | sub (p : BitVec 4) (d : BitVec 5) (a : BitVec 5) (b : BitVec 5) (x : BitVec 1) (y : BitVec 1)
  /-- MUL (R210). -/
  | mul (p : BitVec 4) (d : BitVec 5) (a : BitVec 5) (b : BitVec 5) (x : BitVec 1) (y : BitVec 1)
  /-- MULI (R211). -/
  | muli (p : BitVec 4) (d : BitVec 5) (a : BitVec 5) (i : BitVec 10)
  /-- MULH (R210). -/
  | mulh (p : BitVec 4) (d : BitVec 5) (a : BitVec 5) (b : BitVec 5) (x : BitVec 1) (y : BitVec 1)
  /-- MULHN (R210). -/
  | mulhn (p : BitVec 4) (d : BitVec 5) (a : BitVec 5) (b : BitVec 5) (x : BitVec 1) (y : BitVec 1)
  /-- DIV (R212). -/
  | div (p : BitVec 4) (d : BitVec 5) (a : BitVec 5) (b : BitVec 5) (x : BitVec 1) (y : BitVec 1)
  /-- DIVN (R212). -/
  | divn (p : BitVec 4) (d : BitVec 5) (a : BitVec 5) (b : BitVec 5) (x : BitVec 1) (y : BitVec 1)
  /-- REM (R212). -/
  | rem (p : BitVec 4) (d : BitVec 5) (a : BitVec 5) (b : BitVec 5) (x : BitVec 1) (y : BitVec 1)
  /-- REMN (R212). -/
  | remn (p : BitVec 4) (d : BitVec 5) (a : BitVec 5) (b : BitVec 5) (x : BitVec 1) (y : BitVec 1)
  /-- AND (R210). -/
  | and (p : BitVec 4) (d : BitVec 5) (a : BitVec 5) (b : BitVec 5) (x : BitVec 1) (y : BitVec 1)
  /-- ANDI (R211). -/
  | andi (p : BitVec 4) (d : BitVec 5) (a : BitVec 5) (i : BitVec 10)
  /-- ANDN (R210). -/
  | andn (p : BitVec 4) (d : BitVec 5) (a : BitVec 5) (b : BitVec 5) (x : BitVec 1) (y : BitVec 1)
  /-- OR (R210). -/
  | or (p : BitVec 4) (d : BitVec 5) (a : BitVec 5) (b : BitVec 5) (x : BitVec 1) (y : BitVec 1)
  /-- ORI (R211). -/
  | ori (p : BitVec 4) (d : BitVec 5) (a : BitVec 5) (i : BitVec 10)
  /-- XOR (R210). -/
  | xor (p : BitVec 4) (d : BitVec 5) (a : BitVec 5) (b : BitVec 5) (x : BitVec 1) (y : BitVec 1)
  /-- XORI (R211). -/
  | xori (p : BitVec 4) (d : BitVec 5) (a : BitVec 5) (i : BitVec 10)
  /-- SHL (R210). -/
  | shl (p : BitVec 4) (d : BitVec 5) (a : BitVec 5) (b : BitVec 5) (x : BitVec 1) (y : BitVec 1)
  /-- SHLI (R211). -/
  | shli (p : BitVec 4) (d : BitVec 5) (a : BitVec 5) (i : BitVec 10)
  /-- SHR (R210). -/
  | shr (p : BitVec 4) (d : BitVec 5) (a : BitVec 5) (b : BitVec 5) (x : BitVec 1) (y : BitVec 1)
  /-- SHRI (R211). -/
  | shri (p : BitVec 4) (d : BitVec 5) (a : BitVec 5) (i : BitVec 10)
  /-- SAR (R210). -/
  | sar (p : BitVec 4) (d : BitVec 5) (a : BitVec 5) (b : BitVec 5) (x : BitVec 1) (y : BitVec 1)
  /-- SARI (R211). -/
  | sari (p : BitVec 4) (d : BitVec 5) (a : BitVec 5) (i : BitVec 10)
  /-- ROT (R210). -/
  | rot (p : BitVec 4) (d : BitVec 5) (a : BitVec 5) (b : BitVec 5) (x : BitVec 1) (y : BitVec 1)
  /-- MIN (R210). -/
  | min (p : BitVec 4) (d : BitVec 5) (a : BitVec 5) (b : BitVec 5) (x : BitVec 1) (y : BitVec 1)
  /-- MAX (R210). -/
  | max (p : BitVec 4) (d : BitVec 5) (a : BitVec 5) (b : BitVec 5) (x : BitVec 1) (y : BitVec 1)
  /-- MINN (R210). -/
  | minn (p : BitVec 4) (d : BitVec 5) (a : BitVec 5) (b : BitVec 5) (x : BitVec 1) (y : BitVec 1)
  /-- MAXN (R210). -/
  | maxn (p : BitVec 4) (d : BitVec 5) (a : BitVec 5) (b : BitVec 5) (x : BitVec 1) (y : BitVec 1)
  /-- ABS (R213). -/
  | abs (p : BitVec 4) (d : BitVec 5) (a : BitVec 5) (x : BitVec 1)
  /-- CLZ (R213). -/
  | clz (p : BitVec 4) (d : BitVec 5) (a : BitVec 5) (x : BitVec 1)
  /-- CTZ (R213). -/
  | ctz (p : BitVec 4) (d : BitVec 5) (a : BitVec 5) (x : BitVec 1)
  /-- POPC (R213). -/
  | popc (p : BitVec 4) (d : BitVec 5) (a : BitVec 5) (x : BitVec 1)
  /-- BFX (R214). -/
  | bfx (p : BitVec 4) (d : BitVec 5) (a : BitVec 5) (b : BitVec 5) (x : BitVec 1) (y : BitVec 1)
  /-- BFXS (R214). -/
  | bfxs (p : BitVec 4) (d : BitVec 5) (a : BitVec 5) (b : BitVec 5) (x : BitVec 1) (y : BitVec 1)
  /-- BFI (R214). -/
  | bfi (p : BitVec 4) (d : BitVec 5) (a : BitVec 5) (b : BitVec 5) (x : BitVec 1) (y : BitVec 1)
  /-- MOV (R213). -/
  | mov (p : BitVec 4) (d : BitVec 5) (a : BitVec 5) (x : BitVec 1)
  /-- MOVL (R215). -/
  | movl (p : BitVec 4) (d : BitVec 5) (i : BitVec 15)
  /-- MOVH (R215). -/
  | movh (p : BitVec 4) (d : BitVec 5) (i : BitVec 15)
  /-- SEL (R216). -/
  | sel (p : BitVec 4) (d : BitVec 5) (a : BitVec 5) (b : BitVec 5) (s : BitVec 4)
  /-- ADDX (R210). -/
  | addx (p : BitVec 4) (d : BitVec 5) (a : BitVec 5) (b : BitVec 5) (x : BitVec 1) (y : BitVec 1) (s : BitVec 3)
  /-- SATI (R216). -/
  | sati (p : BitVec 4) (d : BitVec 5) (a : BitVec 5) (i : BitVec 7)
  /-- WKF (R217). -/
  | wkf (p : BitVec 4) (d : BitVec 5) (a : BitVec 5) (i : BitVec 4)
  /-- WKS (R217). -/
  | wks (p : BitVec 4) (d : BitVec 5) (a : BitVec 5) (b : BitVec 5) (s : BitVec 3)
  /-- NODE (R218). -/
  | node (p : BitVec 4) (d : BitVec 5) (a : BitVec 5) (b : BitVec 5) (c : BitVec 5)
  /-- MOVM (R219). -/
  | movm (p : BitVec 4) (d : BitVec 5) (a : BitVec 5) (i : BitVec 10)
  /-- CMP (R220). -/
  | cmp (p : BitVec 4) (d : BitVec 3) (a : BitVec 5) (b : BitVec 5) (s : BitVec 5)
  /-- CMPI (R220). -/
  | cmpi41 (p : BitVec 4) (k : BitVec 2) (d : BitVec 3) (a : BitVec 5) (i : BitVec 10)
  /-- CMPI (R220). -/
  | cmpi42 (p : BitVec 4) (k : BitVec 2) (d : BitVec 3) (a : BitVec 5) (i : BitVec 10)
  /-- CMPI (R220). -/
  | cmpi43 (p : BitVec 4) (k : BitVec 1) (d : BitVec 3) (a : BitVec 5) (i : BitVec 10)
  /-- PAND (R221). -/
  | pand (p : BitVec 4) (d : BitVec 3) (a : BitVec 3) (b : BitVec 3) (s : BitVec 2)
  /-- POR (R221). -/
  | por (p : BitVec 4) (d : BitVec 3) (a : BitVec 3) (b : BitVec 3) (s : BitVec 2)
  /-- PXOR (R221). -/
  | pxor (p : BitVec 4) (d : BitVec 3) (a : BitVec 3) (b : BitVec 3) (s : BitVec 2)
  /-- PNOT (R221). -/
  | pnot (p : BitVec 4) (d : BitVec 3) (a : BitVec 3)
  /-- PMOV (R221). -/
  | pmov (p : BitVec 4) (d : BitVec 3) (a : BitVec 3)
  /-- GPRED.pack (R222). -/
  | gpredPack (p : BitVec 4) (d : BitVec 5)
  /-- GPRED.unpack (R222). -/
  | gpredUnpack (p : BitVec 4) (a : BitVec 5) (x : BitVec 1)
  /-- GPRED.nz (R222). -/
  | gpredNz (p : BitVec 4) (d : BitVec 3) (a : BitVec 5) (x : BitVec 1)
  /-- LD.n8 (R224). -/
  | ldN8 (p : BitVec 4) (d : BitVec 5) (b : BitVec 5) (o : BitVec 10)
  /-- LD.n16 (R224). -/
  | ldN16 (p : BitVec 4) (d : BitVec 5) (b : BitVec 5) (o : BitVec 10)
  /-- LD.n32 (R224). -/
  | ldN32 (p : BitVec 4) (d : BitVec 5) (b : BitVec 5) (o : BitVec 10)
  /-- LD.n64 (R224). -/
  | ldN64 (p : BitVec 4) (d : BitVec 5) (b : BitVec 5) (o : BitVec 10)
  /-- LDS.i8 (R224). -/
  | ldsI8 (p : BitVec 4) (d : BitVec 5) (b : BitVec 5) (o : BitVec 10)
  /-- LDS.i16 (R224). -/
  | ldsI16 (p : BitVec 4) (d : BitVec 5) (b : BitVec 5) (o : BitVec 10)
  /-- LDS.i32 (R224). -/
  | ldsI32 (p : BitVec 4) (d : BitVec 5) (b : BitVec 5) (o : BitVec 10)
  /-- ST.n8 (R224). -/
  | stN8 (p : BitVec 4) (d : BitVec 5) (b : BitVec 5) (o : BitVec 10)
  /-- ST.n16 (R224). -/
  | stN16 (p : BitVec 4) (d : BitVec 5) (b : BitVec 5) (o : BitVec 10)
  /-- ST.n32 (R224). -/
  | stN32 (p : BitVec 4) (d : BitVec 5) (b : BitVec 5) (o : BitVec 10)
  /-- ST.n64 (R224). -/
  | stN64 (p : BitVec 4) (d : BitVec 5) (b : BitVec 5) (o : BitVec 10)
  /-- LDV (R225). -/
  | ldv (p : BitVec 4) (d : BitVec 4) (b : BitVec 5) (o : BitVec 10)
  /-- STV (R225). -/
  | stv (p : BitVec 4) (d : BitVec 4) (b : BitVec 5) (o : BitVec 10)
  /-- LDP (R226). -/
  | ldp (p : BitVec 4) (d : BitVec 5) (a : BitVec 5) (b : BitVec 5) (x : BitVec 1) (y : BitVec 1)
  /-- STP (R226). -/
  | stp (p : BitVec 4) (d : BitVec 5) (a : BitVec 5) (b : BitVec 5) (x : BitVec 1) (y : BitVec 1)
  /-- LDX (R227). -/
  | ldx (p : BitVec 4) (d : BitVec 4) (a : BitVec 5) (b : BitVec 4) (x : BitVec 1) (y : BitVec 1)
  /-- STX (R227). -/
  | stx (p : BitVec 4) (d : BitVec 4) (a : BitVec 5) (b : BitVec 4) (x : BitVec 1) (y : BitVec 1)
  /-- AMO (R228). -/
  | amo (p : BitVec 4) (d : BitVec 5) (a : BitVec 5) (b : BitVec 5) (s : BitVec 5)
  /-- RLD (R230). -/
  | rld (p : BitVec 4) (d : BitVec 5) (a : BitVec 5) (b : BitVec 5) (x : BitVec 1) (y : BitVec 1) (s : BitVec 3)
  /-- RST (R231). -/
  | rst (p : BitVec 4) (d : BitVec 5) (a : BitVec 5) (b : BitVec 5) (x : BitVec 1) (y : BitVec 1) (s : BitVec 2)
  /-- RAMO (R232). -/
  | ramo (p : BitVec 4) (d : BitVec 5) (a : BitVec 5) (b : BitVec 5) (s : BitVec 5)
  /-- RCPY (R233). -/
  | rcpy (p : BitVec 4) (a : BitVec 5) (b : BitVec 5) (c : BitVec 5)
  /-- VLD (R234). -/
  | vld (p : BitVec 4) (d : BitVec 5) (a : BitVec 5) (b : BitVec 5) (x : BitVec 1) (y : BitVec 1) (s : BitVec 1)
  /-- VST (R235). -/
  | vst (p : BitVec 4) (a : BitVec 5) (b : BitVec 5) (x : BitVec 1) (y : BitVec 1) (s : BitVec 3)
  /-- VRECL (R236). -/
  | vrecl (p : BitVec 4) (a : BitVec 5) (b : BitVec 5) (x : BitVec 1) (y : BitVec 1) (s : BitVec 1)
  /-- FENCE (R237). -/
  | fence (p : BitVec 4) (i : BitVec 2)
  /-- QFENCE (R237). -/
  | qfence (p : BitVec 4) (i : BitVec 8)
  /-- SEND (R239). -/
  | send (p : BitVec 4) (d : BitVec 5) (a : BitVec 5) (b : BitVec 5) (s : BitVec 4)
  /-- SENDV (R240). -/
  | sendv (p : BitVec 4) (d : BitVec 5) (a : BitVec 5) (b : BitVec 5) (s : BitVec 1)
  /-- REPLY (R242). -/
  | reply (p : BitVec 4) (a : BitVec 5) (b : BitVec 5)
  /-- REPLY.st (R242). -/
  | replySt (p : BitVec 4) (a : BitVec 5) (b : BitVec 5)
  /-- REPLY.key (R242). -/
  | replyKey (p : BitVec 4) (a : BitVec 5) (b : BitVec 5)
  /-- SPAWN (R244). -/
  | spawn (p : BitVec 4) (d : BitVec 5) (a : BitVec 5) (b : BitVec 5) (s : BitVec 1)
  /-- TINC (R248). -/
  | tinc (p : BitVec 4) (a : BitVec 5) (b : BitVec 5)
  /-- TDEC (R248). -/
  | tdec (p : BitVec 4) (a : BitVec 5) (b : BitVec 5)
  /-- TARM (R249). -/
  | tarm (p : BitVec 4) (a : BitVec 5) (b : BitVec 5)
  /-- TRD (R250). -/
  | trd (p : BitVec 4) (d : BitVec 5) (a : BitVec 5)
  /-- KEYA (R252). -/
  | keya (p : BitVec 4) (d : BitVec 5)
  /-- KEYA.nb (R252). -/
  | keyaNb (p : BitVec 4) (d : BitVec 5) (s : BitVec 3)
  /-- KEYF (R253). -/
  | keyf (p : BitVec 4) (a : BitVec 5) (x : BitVec 1)
  /-- WAITANY (R254). -/
  | waitany (p : BitVec 4) (d : BitVec 5) (a : BitVec 5) (x : BitVec 1)
  /-- WAITALL (R254). -/
  | waitall (p : BitVec 4) (d : BitVec 5) (a : BitVec 5) (x : BitVec 1)
  /-- FFR (R254). -/
  | ffr (p : BitVec 4) (d : BitVec 5) (a : BitVec 5) (x : BitVec 1)
  /-- TRIGGER (R255). -/
  | trigger (p : BitVec 4)
  /-- QPUSH (R245). -/
  | qpush (p : BitVec 4) (d : BitVec 5) (a : BitVec 5) (b : BitVec 5) (s : BitVec 4)
  /-- QPOP (R246). -/
  | qpop (p : BitVec 4) (d : BitVec 5) (a : BitVec 5) (b : BitVec 5)
  /-- QPOP.fwd (R246). -/
  | qpopFwd (p : BitVec 4) (d : BitVec 5) (a : BitVec 5)
  /-- QPOP.len (R246). -/
  | qpopLen (p : BitVec 4) (d : BitVec 5) (a : BitVec 5)
  /-- MX.LEASE (R300). -/
  | mxLease (p : BitVec 4) (d : BitVec 5) (s : BitVec 1)
  /-- MX.REL (R301). -/
  | mxRel (p : BitVec 4)
  /-- MX.CTX (R302). -/
  | mxCtx (p : BitVec 4) (a : BitVec 5)
  /-- MX.A (R303). -/
  | mxA (p : BitVec 4) (d : BitVec 5) (a : BitVec 5)
  /-- MX.B (R303). -/
  | mxB (p : BitVec 4) (d : BitVec 5) (a : BitVec 5)
  /-- MX.RUN (R304). -/
  | mxRun (p : BitVec 4) (d : BitVec 5) (a : BitVec 5) (b : BitVec 5)
  /-- MX.ZERO (R304). -/
  | mxZero (p : BitVec 4) (d : BitVec 5) (a : BitVec 5)
  /-- MX.DRAIN (R305). -/
  | mxDrain (p : BitVec 4) (d : BitVec 5) (a : BitVec 5) (b : BitVec 5) (s : BitVec 1)
  /-- MX.DRAIN.msg (R305). -/
  | mxDrainMsg (p : BitVec 4) (d : BitVec 5) (a : BitVec 5) (b : BitVec 5) (s : BitVec 1)
  /-- MX.RAW.cell (R306). -/
  | mxRawCell (p : BitVec 4) (d : BitVec 5) (a : BitVec 5)
  /-- MX.RAW.stat (R306). -/
  | mxRawStat (p : BitVec 4) (d : BitVec 5)
  /-- MX.SORT (R307). -/
  | mxSort (p : BitVec 4) (d : BitVec 5) (a : BitVec 5) (b : BitVec 5) (s : BitVec 3)
  /-- STRM.GO (R353). -/
  | strmGo (p : BitVec 4) (d : BitVec 5) (a : BitVec 5) (b : BitVec 5) (s : BitVec 1)
  /-- STRM.EXT (R354). -/
  | strmExt (p : BitVec 4) (d : BitVec 5) (a : BitVec 5) (b : BitVec 5)
  /-- STRM.STOP (R354). -/
  | strmStop (p : BitVec 4) (d : BitVec 5) (a : BitVec 5)
  /-- COL.RED (R355). -/
  | colRed (p : BitVec 4) (d : BitVec 5) (a : BitVec 5) (b : BitVec 5)
  /-- COL.BC (R355). -/
  | colBc (p : BitVec 4) (d : BitVec 5) (a : BitVec 5) (b : BitVec 5)
  /-- VADD (R261). -/
  | vadd (p : BitVec 4) (d : BitVec 4) (a : BitVec 4) (b : BitVec 4) (t : BitVec 3)
  /-- VSUB (R261). -/
  | vsub (p : BitVec 4) (d : BitVec 4) (a : BitVec 4) (b : BitVec 4) (t : BitVec 3)
  /-- VMUL (R261). -/
  | vmul (p : BitVec 4) (d : BitVec 4) (a : BitVec 4) (b : BitVec 4) (t : BitVec 3)
  /-- VFMA (R261). -/
  | vfma (p : BitVec 4) (d : BitVec 4) (a : BitVec 4) (b : BitVec 4) (t : BitVec 3)
  /-- VFMS (R261). -/
  | vfms (p : BitVec 4) (d : BitVec 4) (a : BitVec 4) (b : BitVec 4) (t : BitVec 3)
  /-- VMIN (R262). -/
  | vmin (p : BitVec 4) (d : BitVec 4) (a : BitVec 4) (b : BitVec 4) (t : BitVec 3)
  /-- VMAX (R262). -/
  | vmax (p : BitVec 4) (d : BitVec 4) (a : BitVec 4) (b : BitVec 4) (t : BitVec 3)
  /-- VABS (R261). -/
  | vabs (p : BitVec 4) (d : BitVec 4) (a : BitVec 4) (t : BitVec 3)
  /-- VNEG (R261). -/
  | vneg (p : BitVec 4) (d : BitVec 4) (a : BitVec 4) (t : BitVec 3)
  /-- VCMP (R263). -/
  | vcmp (p : BitVec 4) (d : BitVec 3) (a : BitVec 4) (b : BitVec 4) (t : BitVec 3) (s : BitVec 5)
  /-- VSEL (R264). -/
  | vsel (p : BitVec 4) (d : BitVec 4) (a : BitVec 4) (b : BitVec 4) (s : BitVec 3)
  /-- VCVT (R266). -/
  | vcvt (p : BitVec 4) (d : BitVec 4) (a : BitVec 4) (b : BitVec 4) (t : BitVec 3) (s : BitVec 5)
  /-- VPACKB (R268). -/
  | vpackb (p : BitVec 4) (d : BitVec 4) (a : BitVec 4) (s : BitVec 5)
  /-- VUNPACKB (R269). -/
  | vunpackb (p : BitVec 4) (d : BitVec 4) (a : BitVec 4) (s : BitVec 5)
  /-- VRCPA (R277). -/
  | vrcpa (p : BitVec 4) (d : BitVec 4) (a : BitVec 4)
  /-- VRSQA (R278). -/
  | vrsqa (p : BitVec 4) (d : BitVec 4) (a : BitVec 4)
  /-- VEXP2A (R279). -/
  | vexp2a (p : BitVec 4) (d : BitVec 4) (a : BitVec 4)
  /-- VLOG2A (R280). -/
  | vlog2a (p : BitVec 4) (d : BitVec 4) (a : BitVec 4)
  /-- VSQRT (R261). -/
  | vsqrt (p : BitVec 4) (d : BitVec 4) (a : BitVec 4) (t : BitVec 3)
  /-- VRED (R270). -/
  | vred (p : BitVec 4) (d : BitVec 4) (a : BitVec 4) (t : BitVec 3) (s : BitVec 2)
  /-- VPERM (R271). -/
  | vperm (p : BitVec 4) (d : BitVec 4) (a : BitVec 4) (b : BitVec 4)
  /-- VBCAST (R271). -/
  | vbcast (p : BitVec 4) (d : BitVec 4) (a : BitVec 4) (s : BitVec 5)
  /-- VIDX (R271). -/
  | vidx (p : BitVec 4) (d : BitVec 4) (b : BitVec 4) (s : BitVec 5)
  /-- VCOMPACT (R272). -/
  | vcompact (p : BitVec 4) (d : BitVec 4) (a : BitVec 4)
  /-- VEXPAND (R272). -/
  | vexpand (p : BitVec 4) (d : BitVec 4) (a : BitVec 4)
  /-- VAND (R265). -/
  | vand (p : BitVec 4) (d : BitVec 4) (a : BitVec 4) (b : BitVec 4)
  /-- VOR (R265). -/
  | vor (p : BitVec 4) (d : BitVec 4) (a : BitVec 4) (b : BitVec 4)
  /-- VXOR (R265). -/
  | vxor (p : BitVec 4) (d : BitVec 4) (a : BitVec 4) (b : BitVec 4)
  /-- VSHL (R265). -/
  | vshl (p : BitVec 4) (d : BitVec 4) (a : BitVec 4) (b : BitVec 4) (t : BitVec 3) (s : BitVec 5)
  /-- VSHR (R265). -/
  | vshr (p : BitVec 4) (d : BitVec 4) (a : BitVec 4) (b : BitVec 4) (t : BitVec 3) (s : BitVec 5)
  /-- VIADD (R265). -/
  | viadd (p : BitVec 4) (d : BitVec 4) (a : BitVec 4) (b : BitVec 4) (t : BitVec 3) (s : BitVec 2)
  /-- VIMUL (R265). -/
  | vimul (p : BitVec 4) (d : BitVec 4) (a : BitVec 4) (b : BitVec 4) (t : BitVec 3) (s : BitVec 1)
  /-- VMOVG (R273). -/
  | vmovg (p : BitVec 4) (a : BitVec 4) (t : BitVec 3) (s : BitVec 5)
  /-- VMOVG.q (R273). -/
  | vmovgQ (p : BitVec 4) (a : BitVec 3) (s : BitVec 5)
  /-- VMOVL (R273). -/
  | vmovl (p : BitVec 4) (d : BitVec 4) (s : BitVec 5)
  /-- VMOVL.q (R273). -/
  | vmovlQ (p : BitVec 4) (d : BitVec 3) (s : BitVec 5)
  /-- VLDM (R274). -/
  | vldm (p : BitVec 4) (d : BitVec 4) (a : BitVec 4) (b : BitVec 4)
  /-- VSTM (R275). -/
  | vstm (p : BitVec 4) (a : BitVec 4) (s : BitVec 5)
  /-- QAND (R276). -/
  | qand (p : BitVec 4) (d : BitVec 3) (a : BitVec 3) (b : BitVec 3)
  /-- QOR (R276). -/
  | qor (p : BitVec 4) (d : BitVec 3) (a : BitVec 3) (b : BitVec 3)
  /-- QNOT (R276). -/
  | qnot (p : BitVec 4) (d : BitVec 3) (a : BitVec 3)
  /-- QPOPC (R276). -/
  | qpopc (p : BitVec 4) (a : BitVec 3) (s : BitVec 5)
  /-- LAT.PATCH (R349). -/
  | latPatch (p : BitVec 4) (a : BitVec 5)
  /-- LAT.SET (R343). -/
  | latSet (p : BitVec 4) (a : BitVec 5) (b : BitVec 5) (s : BitVec 5)
  /-- LAT.GET (R343). -/
  | latGet (p : BitVec 4) (d : BitVec 5) (a : BitVec 5) (s : BitVec 5)
  /-- LAT.RDV (R343). -/
  | latRdv (p : BitVec 4) (d : BitVec 4) (a : BitVec 5) (s : BitVec 5)
  /-- LAT.INJ (R344). -/
  | latInj (p : BitVec 4) (a : BitVec 5) (b : BitVec 5)
  /-- LAT.STEP (R345). -/
  | latStep (p : BitVec 4) (a : BitVec 5) (b : BitVec 5)
  /-- LAT.CLK (R346). -/
  | latClk (p : BitVec 4) (a : BitVec 5) (b : BitVec 5)
  /-- LAT.RUN (R346). -/
  | latRun (p : BitVec 4) (a : BitVec 5)
  /-- LAT.STOP (R346). -/
  | latStop (p : BitVec 4) (a : BitVec 5)
  /-- LAT.SAVE (R349). -/
  | latSave (p : BitVec 4) (a : BitVec 5)
  /-- LAT.REST (R349). -/
  | latRest (p : BitVec 4) (a : BitVec 5)
  /-- LAT.STAT (R347). -/
  | latStat (p : BitVec 4) (d : BitVec 5)
  /-- LAT.STAT.clr (R347). -/
  | latStatClr (p : BitVec 4) (d : BitVec 5)
  /-- MFS (R356). -/
  | mfs (p : BitVec 4) (d : BitVec 5) (i : BitVec 10)
  /-- MTS (R356). -/
  | mts (p : BitVec 4) (a : BitVec 5) (i : BitVec 10)
  /-- TRESUME (R359). -/
  | tresume (p : BitVec 4) (d : BitVec 5) (a : BitVec 5)
  /-- TKILL (R359). -/
  | tkill (p : BitVec 4) (d : BitVec 5) (a : BitVec 5)
  /-- TRETRY (R359). -/
  | tretry (p : BitVec 4) (d : BitVec 5) (a : BitVec 5) (b : BitVec 5)
  /-- TLBI (R360). -/
  | tlbi (p : BitVec 4) (d : BitVec 5) (a : BitVec 5) (b : BitVec 5) (s : BitVec 2)
  /-- TLBP (R361). -/
  | tlbp (p : BitVec 4) (d : BitVec 5) (a : BitVec 5) (s : BitVec 1)
  /-- SEAL.OPEN (R362). -/
  | sealOpen (p : BitVec 4) (d : BitVec 5) (a : BitVec 5)
  /-- SEAL.FRAME (R363). -/
  | sealFrame (p : BitVec 4) (d : BitVec 5) (a : BitVec 5) (b : BitVec 5)
  /-- SEAL.CLOSE (R363). -/
  | sealClose (p : BitVec 4) (d : BitVec 5) (a : BitVec 5)
  /-- TRC.MARK (R364). -/
  | trcMark (p : BitVec 4) (a : BitVec 5) (i : BitVec 10)
  /-- TRC.CTL (R364). -/
  | trcCtl (p : BitVec 4) (d : BitVec 5) (a : BitVec 5)
  /-- WATCH (R365). -/
  | watch (p : BitVec 4) (a : BitVec 5) (b : BitVec 5) (s : BitVec 2)
  /-- PERF.RD (R366). -/
  | perfRd (p : BitVec 4) (d : BitVec 5) (i : BitVec 10)
  /-- CFG.LD (R324). -/
  | cfgLd (p : BitVec 4) (a : BitVec 5) (s : BitVec 2)
  /-- CFG.INV (R325). -/
  | cfgInv (p : BitVec 4) (s : BitVec 2)
  /-- CFG.INV.all (R325). -/
  | cfgInvAll (p : BitVec 4)
  /-- CFG.INV.cb (R325). -/
  | cfgInvCb (p : BitVec 4)
  /-- CFG.BIND (R325). -/
  | cfgBind (p : BitVec 4) (d : BitVec 4) (s : BitVec 2)
  /-- CFG.BIND.u (R325). -/
  | cfgBindU (p : BitVec 4) (d : BitVec 4)
  /-- CFG.Q.res (R326). -/
  | cfgQRes (p : BitVec 4) (d : BitVec 5)
  /-- CFG.Q.id (R326). -/
  | cfgQId (p : BitVec 4) (d : BitVec 5) (a : BitVec 5)
  /-- CFG.Q.rot (R326). -/
  | cfgQRot (p : BitVec 4) (d : BitVec 5) (a : BitVec 5)
  /-- CFG.Q.tag (R326). -/
  | cfgQTag (p : BitVec 4) (d : BitVec 5) (a : BitVec 5)
  /-- CFG.SAVE (R327). -/
  | cfgSave (p : BitVec 4) (a : BitVec 5)
  /-- CFG.REST (R327). -/
  | cfgRest (p : BitVec 4) (a : BitVec 5)
  /-- Xn (R314). -/
  | xn (n : BitVec 4) (p : BitVec 4) (d : BitVec 4) (a : BitVec 4) (b : BitVec 4) (c : BitVec 4)
  /-- Step BLOCK_ENTRY (R174). -/
  | blockEntry (node ctx : Nat)
  /-- Step BLOCK_COMMIT (R177). -/
  | blockCommit (node ctx : Nat)
  /-- Step PARKING_FAULT (R384). -/
  | parkingFault (node ctx cause : Nat) (addr info : Word)
  /-- Step VST_RESERVATION (R130). -/
  | vstReservation (node ctx : Nat)
  /-- Step INVOCATION_COMMIT (R117). -/
  | invocationCommit (node ctx : Nat)
  /-- Step TUMBLER_FIRE (R40). -/
  | tumblerFire (quad index : Nat)
  /-- Step DEPARTURE (R117). -/
  | departure (node : Nat)
  /-- Step HANDLER_MESSAGE_ARRIVAL (R157). -/
  | handlerMessageArrival (m : Packet)
  /-- Step MATCH_OVERFLOW_MOVE (R159). -/
  | matchOverflowMove (node : Nat)
  /-- Step SPILL_REFILL (R164). -/
  | spillRefill (node pri : Nat)
  /-- Step DISPATCH (R165). -/
  | dispatch (node : Nat)
  /-- Step REPLY_SLOT_FILL (R162). -/
  | replySlotFill (m : Packet)
  /-- Step ACKNOWLEDGEMENT (R162). -/
  | acknowledgement (m : Packet)
  /-- Step KEY_SET_REPLY (R162). -/
  | keySetReply (m : Packet)
  /-- Step BOLT_ARRIVAL (R394). -/
  | boltArrival (m : Packet)
  /-- Step REMOTE_READ (R229). -/
  | remoteRead (m : Packet)
  /-- Step REMOTE_WRITE (R229). -/
  | remoteWrite (m : Packet)
  /-- Step REMOTE_ATOMIC_ADD (R228). -/
  | remoteAtomicAdd (m : Packet)
  /-- Step REMOTE_ATOMIC_AND (R228). -/
  | remoteAtomicAnd (m : Packet)
  /-- Step REMOTE_ATOMIC_OR (R228). -/
  | remoteAtomicOr (m : Packet)
  /-- Step REMOTE_ATOMIC_XOR (R228). -/
  | remoteAtomicXor (m : Packet)
  /-- Step REMOTE_ATOMIC_MIN (R228). -/
  | remoteAtomicMin (m : Packet)
  /-- Step REMOTE_ATOMIC_MAX (R228). -/
  | remoteAtomicMax (m : Packet)
  /-- Step REMOTE_ATOMIC_MINN (R228). -/
  | remoteAtomicMinn (m : Packet)
  /-- Step REMOTE_ATOMIC_MAXN (R228). -/
  | remoteAtomicMaxn (m : Packet)
  /-- Step REMOTE_ATOMIC_SWAP (R228). -/
  | remoteAtomicSwap (m : Packet)
  /-- Step REMOTE_ATOMIC_CAS (R228). -/
  | remoteAtomicCas (m : Packet)
  /-- Step VERSIONED_READ (R129). -/
  | versionedRead (m : Packet)
  /-- Step VERSIONED_WRITE (R130). -/
  | versionedWrite (m : Packet)
  /-- Step VERSION_RETIRE (R131). -/
  | versionRetire (m : Packet)
  /-- Step TUMBLER_INCREMENT (R167). -/
  | tumblerIncrement (m : Packet)
  /-- Step TUMBLER_DECREMENT (R167). -/
  | tumblerDecrement (m : Packet)
  /-- Step TUMBLER_ARM (R249). -/
  | tumblerArm (m : Packet)
  /-- Step TUMBLER_READ (R250). -/
  | tumblerRead (m : Packet)
  /-- Step COPY (R233). -/
  | copy (m : Packet)
  /-- Step COPY_BEAT (R233). -/
  | copyBeat (m : Packet)
  /-- Step REFUSED_OPERATION (R150). -/
  | refusedOperation (m : Packet)
  /-- Step GO (R56). -/
  | go (m : Packet)
  /-- Step EXT (R61). -/
  | ext (m : Packet)
  /-- Step STOP (R65). -/
  | stop (m : Packet)
  /-- Step RESUME (R64). -/
  | resume (m : Packet)
  /-- Step PULL (R71). -/
  | pull (m : Packet)
  /-- Step INVALID_STREAM_COMMAND (R51). -/
  | invalidStreamCommand (m : Packet)
  /-- Step STREAM_REQUEST_ISSUE (R50). -/
  | streamRequestIssue (node : Nat)
  /-- Step LOADER_BEAT_WRITE (R57). -/
  | loaderBeatWrite (node slot : Nat)
  /-- Step STORER_WRITE (R58). -/
  | storerWrite (node slot : Nat)
  /-- Step STRM_GO_RESEND (R353). -/
  | strmGoResend (node : Nat) (m : Packet)
  /-- Step PAGE_WALK_READ (R94). -/
  | pageWalkRead (w : Walk)
  /-- Step TLBI_RECEIVE (R107). -/
  | tlbiReceive (unit : TlbUnit) (t : Shootdown)
  /-- Step TLBI_COMPLETE (R107). -/
  | tlbiComplete (t : Shootdown)
  /-- Step PUSH (R68). -/
  | push (m : Packet)
  /-- Step POP (R68). -/
  | pop (m : Packet)
  /-- Step LEN (R68). -/
  | len (m : Packet)
  /-- Step CREATE (R68). -/
  | create (m : Packet)
  /-- Step DESTROY (R68). -/
  | destroy (m : Packet)
  /-- Step INVALID_QUEUE_COMMAND (R68). -/
  | invalidQueueCommand (m : Packet)
  /-- Step LEASE_REQUEST (R300). -/
  | leaseRequest (m : Packet)
  /-- Step LEASE_GRANT (R285). -/
  | leaseGrant (cluster : Nat)
  /-- Step LEASE_IDLE_TIMEOUT (R286). -/
  | leaseIdleTimeout (cluster stamp : Nat)
  /-- Step ARRAY_CTX (R302). -/
  | arrayCtx (m : Packet)
  /-- Step ARRAY_PANEL (R291). -/
  | arrayPanel (m : Packet)
  /-- Step ARRAY_ZERO (R304). -/
  | arrayZero (m : Packet)
  /-- Step ARRAY_RUN (R293). -/
  | arrayRun (m : Packet)
  /-- Step ARRAY_DRAIN (R295). -/
  | arrayDrain (m : Packet)
  /-- Step ARRAY_RAW (R306). -/
  | arrayRaw (m : Packet)
  /-- Step ARRAY_SORT (R296). -/
  | arraySort (m : Packet)
  /-- Step ARRAY_REL (R286). -/
  | arrayRel (m : Packet)
  /-- Step CUSTOM_OPCODE_RESULT (R316). -/
  | customOpcodeResult (node : Nat)
  /-- Step LATTICE_INSTRUCTION_PERFORM (R339). -/
  | latticeInstructionPerform (node : Nat)
  /-- Step LATTICE_CLOCK_TICK (R333). -/
  | latticeClockTick (node : Nat)
  /-- Step BUDGET_EXPIRY (R376). -/
  | budgetExpiry (node ctx : Nat)
  /-- Step YIELD_INTERVAL_END (R206). -/
  | yieldIntervalEnd (node ctx : Nat)
  /-- Step SYSTEM_ENTRY_TAKE (R387). -/
  | systemEntryTake (node : Nat)
  /-- Step TRANSIENT_EVENT (R390). -/
  | transientEvent (node ctx : Nat) (kind : Transient)
  /-- Step SCRUB (R45). -/
  | scrub (addr : Nat) (found reread : EccState)
  /-- Step PLACEMENT (R368). -/
  | placement (module : Nat)
  /-- Step INITIAL_MESSAGE_RELEASE (R370). -/
  | initialMessageRelease (module job : Nat)
  /-- Step TRIGGER_COUNT (R139). -/
  | triggerCount (m : Packet)
  /-- Step END_OF_JOB_SWEEP (R381). -/
  | endOfJobSweep (module job : Nat)
  /-- Step CORE_SAVE (R397). -/
  | coreSave (node : Nat)
  /-- Step ABSENT_QUEUE_REPLAY (R405). -/
  | absentQueueReplay (die job : Nat)
  /-- Step CMDTAIL_WRITE (R431). -/
  | cmdtailWrite (module : Nat) (tail : BitVec 32)
  /-- Step INJTAIL_WRITE (R434). -/
  | injtailWrite (module : Nat) (tail : BitVec 32)
  /-- Step BAR0_REGISTER_WRITE (R428). -/
  | bar0RegisterWrite (module offset : Nat) (value : Word)
  /-- Step APERTURE_READ (R430). -/
  | apertureRead (module offset size : Nat)
  /-- Step APERTURE_WRITE (R430). -/
  | apertureWrite (module offset : Nat) (data : List Byte)
  /-- Step HOST_PORT_RECEIVE (R435). -/
  | hostPortReceive (m : Packet)
  /-- Step UNMARKED_MANIFEST_SIGN (R444). -/
  | unmarkedManifestSign (module : Nat)
  /-- Step LAUNCH (R433). -/
  | launch (module : Nat) (cmd : List Word)
  /-- Step PREEMPT (R395). -/
  | preempt (module : Nat) (cmd : List Word)
  /-- Step CANCEL (R400). -/
  | cancel (module : Nat) (cmd : List Word)
  /-- Step RESTORE (R404). -/
  | restore (module : Nat) (cmd : List Word)
  /-- Step KILL (R432). -/
  | kill (module : Nat) (cmd : List Word)
  /-- Step UNKNOWN_HOST_COMMAND (R432). -/
  | unknownHostCommand (module : Nat) (cmd : List Word)
  /-- Step LOADFW (R469). -/
  | loadfw (module : Nat) (cmd : List Word)
  /-- Step SWAP (R470). -/
  | swap (module : Nat) (cmd : List Word)
  /-- Step ATTEST (R471). -/
  | attest (module : Nat) (cmd : List Word)
  /-- Step SERVICE_FENCE (R472). -/
  | serviceFence (module : Nat) (cmd : List Word)
  /-- Step UNFENCE (R469). -/
  | unfence (module : Nat) (cmd : List Word)
  /-- Step RECAL (R473). -/
  | recal (module : Nat) (cmd : List Word)
  /-- Step RECAL_SCHEDULE (R473). -/
  | recalSchedule (module stack : Nat)
  /-- Step HEALTH (R471). -/
  | health (module : Nat) (cmd : List Word)
  /-- Step TRACEOUT (R471). -/
  | traceout (module : Nat) (cmd : List Word)
  /-- Step SEAL_OPEN_PERFORM (R362). -/
  | sealOpenPerform (m : Packet)
  /-- Step SEAL_FRAME_PERFORM (R441). -/
  | sealFramePerform (m : Packet)
  /-- Step SEAL_CLOSE_PERFORM (R443). -/
  | sealClosePerform (m : Packet)
  /-- Step COLLECTIVE_PERFORM (R439). -/
  | collectivePerform (m : Packet)
  /-- Step LINK_RETRY (R436). -/
  | linkRetry (module port lane : Nat)
  /-- Step SKEW_MEASUREMENT (R447). -/
  | skewMeasurement (module die : Nat)
  /-- Step REPLAY_TIMEOUT (R463). -/
  | replayTimeout (node stamp : Nat)
  /-- Step POWER_UP (R468). -/
  | powerUp (module : Nat)
  /-- Step FUNCTION_LEVEL_RESET (R427). -/
  | functionLevelReset (module : Nat)
  /-- Step THROTTLE (R474). -/
  | throttle (module : Nat) (on : Bool)
  /-- Step OVER_TEMPERATURE (R474). -/
  | overTemperature (module die : Nat)
  /-- Step STACK_RECALIBRATION_PAUSE_END (R473). -/
  | stackRecalibrationPauseEnd (module stack : Nat)
  /-- Step SYSTEM_CONTEXT_RELEASE (R388). -/
  | systemContextRelease (node : Nat) (abandon : Bool)
  /-- Step DIES_BELOW_95C (R474). -/
  | diesBelow95c (module : Nat)
deriving DecidableEq, Repr

end Sys2Proof
end

