-- ==== Sys2Proof/WellFormed.lean ====
section
/-! DEFINITION. Which field values each instruction defines (R174, R194): the checks that the bits of its word alone decide. -/

namespace Sys2Proof

/-- Why a word is refused: the codes 1 to 3 of WHY in Table 8-8 (R194). -/
inductive Reject where
  | unassigned
  | reserved
  | undefinedValue
deriving DecidableEq, Repr

/-- The code that WHY takes for a refused word (Table 8-8). -/
def Reject.why : Reject → Nat
  | .unassigned => 1
  | .reserved => 2
  | .undefinedValue => 3

namespace WellFormed

/-- A field whose values from `n` up are undefined. -/
def limit {w : Nat} (x : BitVec w) (n : Nat) : Option Reject :=
  if x.toNat < n then none else some .undefinedValue

/-- A register field that names a v register has bit 4 zero (R189, WHY 2). -/
def regV (isV : Bool) (r : BitVec 5) : Option Reject :=
  if isV && r.toNat ≥ 16 then some .reserved else none

/-- A field that must be zero unless a form uses it (R200, WHY 2). -/
def zeroUnless {w : Nat} (used : Bool) (x : BitVec w) : Option Reject :=
  if used || x.toNat == 0 then none else some .reserved

/-- The sub field of SEND: kinds 0 and 3, no .cmd with .eos, no .eos with .r, d zero without .r (R239). -/
def checkSend (d : BitVec 5) (s : BitVec 4) : Option Reject :=
  let kind := s.toNat % 4
  let eos := s.getLsbD 2
  let r := s.getLsbD 3
  if kind == 1 || kind == 2 || (kind == 3 && eos) || (eos && r) then some .undefinedValue
  else zeroUnless r d

/-- Width in bits of an element type of Table 8-5. -/
def typeWidth (t : Nat) : Nat :=
  if t == 0 || t == 3 || t == 4 then 32 else if t == 6 then 8 else 16

/-- The pairs of Table 11-3. -/
def convPairs : List (Nat × Nat) :=
  [(0, 1), (0, 2), (0, 3), (0, 4), (0, 5), (1, 0), (2, 0), (1, 2), (2, 1), (3, 0), (4, 0), (5, 0),
    (3, 5), (5, 3), (5, 6), (6, 5)]

/-- VCVT: a defined pair, and the fields that its lane layout leaves zero (R266, R267). -/
def checkVcvt (b : BitVec 4) (t : BitVec 3) (s : BitVec 5) : Option Reject :=
  let dst := s.toNat % 8
  if convPairs.contains (t.toNat, dst) then
    let wide := typeWidth t.toNat
    let thin := typeWidth dst
    if s.getLsbD 4 && t.toNat ≥ 3 then some .reserved
    else if s.getLsbD 3 && !(thin > wide) then some .reserved
    else zeroUnless (decide (thin < wide)) b
  else some .undefinedValue

/-- VSHL and VSHR: .i32 or .n32, and vb zero in the immediate form (R257, R265). -/
def checkShift (b : BitVec 4) (t : BitVec 3) (s : BitVec 5) : Option Reject :=
  if t.toNat == 3 || t.toNat == 4 then zeroUnless (s.toNat == 0) b else some .undefinedValue

end WellFormed

open WellFormed in
/-- The first breach of an instruction's own field rules, if there is one (R174, R194). -/
def Instr.check : Instr → Option Reject
  | .nop .. => none
  | .exit .. => none
  | .call .. => none
  | .ret .. => none
  | .loop .. => none
  | .done .. => none
  | .commit .. => none
  | .yield .. => none
  | .trap .. => none
  | .bkpt .. => none
  | .waitf _ a s => if s.toNat ≥ 2 then some .undefinedValue else regV (s.toNat == 1) a
  | .empty _ _ a s => if s.toNat ≥ 4 then some .undefinedValue else regV (s.toNat % 2 == 1) a
  | .exitr .. => none
  | .callr .. => none
  | .add .. => none
  | .addi .. => none
  | .sub .. => none
  | .mul .. => none
  | .muli .. => none
  | .mulh .. => none
  | .mulhn .. => none
  | .div .. => none
  | .divn .. => none
  | .rem .. => none
  | .remn .. => none
  | .and .. => none
  | .andi .. => none
  | .andn .. => none
  | .or .. => none
  | .ori .. => none
  | .xor .. => none
  | .xori .. => none
  | .shl .. => none
  | .shli _ _ _ i => limit i 64
  | .shr .. => none
  | .shri _ _ _ i => limit i 64
  | .sar .. => none
  | .sari _ _ _ i => limit i 64
  | .rot .. => none
  | .min .. => none
  | .max .. => none
  | .minn .. => none
  | .maxn .. => none
  | .abs .. => none
  | .clz .. => none
  | .ctz .. => none
  | .popc .. => none
  | .bfx .. => none
  | .bfxs .. => none
  | .bfi .. => none
  | .mov .. => none
  | .movl .. => none
  | .movh .. => none
  | .sel .. => none
  | .addx .. => none
  | .sati .. => none
  | .wkf _ _ _ i => limit (i.setWidth 3) 6
  | .wks _ _ _ _ s => limit s 6
  | .node .. => none
  | .movm _ _ a i => if a.toNat ≥ 4 then some .undefinedValue else limit i 34
  | .cmp _ _ _ _ s => limit s 10
  | .cmpi41 .. => none
  | .cmpi42 .. => none
  | .cmpi43 .. => none
  | .pand .. => none
  | .por .. => none
  | .pxor .. => none
  | .pnot .. => none
  | .pmov .. => none
  | .gpredPack .. => none
  | .gpredUnpack .. => none
  | .gpredNz .. => none
  | .ldN8 .. => none
  | .ldN16 .. => none
  | .ldN32 .. => none
  | .ldN64 .. => none
  | .ldsI8 .. => none
  | .ldsI16 .. => none
  | .ldsI32 .. => none
  | .stN8 .. => none
  | .stN16 .. => none
  | .stN32 .. => none
  | .stN64 .. => none
  | .ldv .. => none
  | .stv .. => none
  | .ldp _ d _ _ _ _ => limit (d.setWidth 1) 1
  | .stp _ d _ _ _ _ => limit (d.setWidth 1) 1
  | .ldx .. => none
  | .stx .. => none
  | .amo _ _ _ _ s => limit (s.setWidth 4) 10
  | .rld _ _ _ _ _ _ s => limit s 7
  | .rst .. => none
  | .ramo _ _ _ _ s => limit (s.setWidth 4) 10
  | .rcpy .. => none
  | .vld .. => none
  | .vst _ _ _ _ _ s => limit (s >>> 1) 3
  | .vrecl .. => none
  | .fence _ i => limit i 3
  | .qfence .. => none
  | .send _ d _ _ s => checkSend d s
  | .sendv _ d _ _ s => zeroUnless (s.toNat == 1) d
  | .reply .. => none
  | .replySt .. => none
  | .replyKey .. => none
  | .spawn .. => none
  | .tinc .. => none
  | .tdec .. => none
  | .tarm .. => none
  | .trd .. => none
  | .keya .. => none
  | .keyaNb .. => none
  | .keyf .. => none
  | .waitany .. => none
  | .waitall .. => none
  | .ffr .. => none
  | .trigger .. => none
  | .qpush _ _ _ _ s => if s.toNat == 0 then some .undefinedValue else limit s 9
  | .qpop .. => none
  | .qpopFwd .. => none
  | .qpopLen .. => none
  | .mxLease .. => none
  | .mxRel .. => none
  | .mxCtx .. => none
  | .mxA .. => none
  | .mxB .. => none
  | .mxRun .. => none
  | .mxZero .. => none
  | .mxDrain .. => none
  | .mxDrainMsg .. => none
  | .mxRawCell .. => none
  | .mxRawStat .. => none
  | .mxSort .. => none
  | .strmGo .. => none
  | .strmExt .. => none
  | .strmStop .. => none
  | .colRed .. => none
  | .colBc .. => none
  | .vadd _ _ _ _ t => limit t 3
  | .vsub _ _ _ _ t => limit t 3
  | .vmul _ _ _ _ t => limit t 3
  | .vfma _ _ _ _ t => limit t 3
  | .vfms _ _ _ _ t => limit t 3
  | .vmin _ _ _ _ t => limit t 7
  | .vmax _ _ _ _ t => limit t 7
  | .vabs _ _ _ t => if t.toNat == 4 then some .undefinedValue else limit t 7
  | .vneg _ _ _ t => if t.toNat == 4 then some .undefinedValue else limit t 7
  | .vcmp _ _ _ _ t s => if t.toNat ≥ 7 then some .undefinedValue else limit s (if t.toNat ≤ 2 then 8 else 6)
  | .vsel .. => none
  | .vcvt _ _ _ b t s => checkVcvt b t s
  | .vpackb _ _ _ s => limit s 7
  | .vunpackb _ _ _ s => limit s 7
  | .vrcpa .. => none
  | .vrsqa .. => none
  | .vexp2a .. => none
  | .vlog2a .. => none
  | .vsqrt _ _ _ t => limit t 3
  | .vred _ _ _ t s => if t.toNat == 0 || t.toNat == 3 || t.toNat == 4 then limit s 3 else some .undefinedValue
  | .vperm .. => none
  | .vbcast .. => none
  | .vidx .. => none
  | .vcompact .. => none
  | .vexpand .. => none
  | .vand .. => none
  | .vor .. => none
  | .vxor .. => none
  | .vshl _ _ _ b t s => checkShift b t s
  | .vshr _ _ _ b t s => checkShift b t s
  | .viadd _ _ _ _ t _ => if t.toNat ≤ 2 then some .undefinedValue else limit t 7
  | .vimul _ _ _ _ t _ => if t.toNat ≤ 2 then some .undefinedValue else limit t 7
  | .vmovg _ _ t _ => if t.toNat == 3 || t.toNat == 4 then none else some .undefinedValue
  | .vmovgQ .. => none
  | .vmovl .. => none
  | .vmovlQ .. => none
  | .vldm _ _ a b => if a.toNat ≥ 4 then some .undefinedValue else limit b 2
  | .vstm .. => none
  | .qand .. => none
  | .qor .. => none
  | .qnot .. => none
  | .qpopc .. => none
  | .latPatch .. => none
  | .latSet _ _ _ s => limit s 6
  | .latGet _ _ _ s => limit s 6
  | .latRdv _ _ _ s => limit s 3
  | .latInj .. => none
  | .latStep .. => none
  | .latClk .. => none
  | .latRun .. => none
  | .latStop .. => none
  | .latSave .. => none
  | .latRest .. => none
  | .latStat .. => none
  | .latStatClr .. => none
  | .mfs _ _ i => limit i 26
  | .mts _ _ i => limit i 26
  | .tresume .. => none
  | .tkill .. => none
  | .tretry .. => none
  | .tlbi .. => none
  | .tlbp .. => none
  | .sealOpen .. => none
  | .sealFrame .. => none
  | .sealClose .. => none
  | .trcMark .. => none
  | .trcCtl .. => none
  | .watch .. => none
  | .perfRd _ _ i => limit i 10
  | .cfgLd .. => none
  | .cfgInv .. => none
  | .cfgInvAll .. => none
  | .cfgInvCb .. => none
  | .cfgBind .. => none
  | .cfgBindU .. => none
  | .cfgQRes .. => none
  | .cfgQId .. => none
  | .cfgQRot .. => none
  | .cfgQTag .. => none
  | .cfgSave .. => none
  | .cfgRest .. => none
  | .xn .. => none
  | .blockEntry .. => none
  | .blockCommit .. => none
  | .parkingFault .. => none
  | .vstReservation .. => none
  | .invocationCommit .. => none
  | .tumblerFire .. => none
  | .departure .. => none
  | .handlerMessageArrival .. => none
  | .matchOverflowMove .. => none
  | .spillRefill .. => none
  | .dispatch .. => none
  | .replySlotFill .. => none
  | .acknowledgement .. => none
  | .keySetReply .. => none
  | .boltArrival .. => none
  | .remoteRead .. => none
  | .remoteWrite .. => none
  | .remoteAtomicAdd .. => none
  | .remoteAtomicAnd .. => none
  | .remoteAtomicOr .. => none
  | .remoteAtomicXor .. => none
  | .remoteAtomicMin .. => none
  | .remoteAtomicMax .. => none
  | .remoteAtomicMinn .. => none
  | .remoteAtomicMaxn .. => none
  | .remoteAtomicSwap .. => none
  | .remoteAtomicCas .. => none
  | .versionedRead .. => none
  | .versionedWrite .. => none
  | .versionRetire .. => none
  | .tumblerIncrement .. => none
  | .tumblerDecrement .. => none
  | .tumblerArm .. => none
  | .tumblerRead .. => none
  | .copy .. => none
  | .copyBeat .. => none
  | .refusedOperation .. => none
  | .go .. => none
  | .ext .. => none
  | .stop .. => none
  | .resume .. => none
  | .pull .. => none
  | .invalidStreamCommand .. => none
  | .streamRequestIssue .. => none
  | .loaderBeatWrite .. => none
  | .storerWrite .. => none
  | .strmGoResend .. => none
  | .pageWalkRead .. => none
  | .tlbiReceive .. => none
  | .tlbiComplete .. => none
  | .push .. => none
  | .pop .. => none
  | .len .. => none
  | .create .. => none
  | .destroy .. => none
  | .invalidQueueCommand .. => none
  | .leaseRequest .. => none
  | .leaseGrant .. => none
  | .leaseIdleTimeout .. => none
  | .arrayCtx .. => none
  | .arrayPanel .. => none
  | .arrayZero .. => none
  | .arrayRun .. => none
  | .arrayDrain .. => none
  | .arrayRaw .. => none
  | .arraySort .. => none
  | .arrayRel .. => none
  | .customOpcodeResult .. => none
  | .latticeInstructionPerform .. => none
  | .latticeClockTick .. => none
  | .budgetExpiry .. => none
  | .yieldIntervalEnd .. => none
  | .systemEntryTake .. => none
  | .transientEvent .. => none
  | .scrub .. => none
  | .placement .. => none
  | .initialMessageRelease .. => none
  | .triggerCount .. => none
  | .endOfJobSweep .. => none
  | .coreSave .. => none
  | .absentQueueReplay .. => none
  | .cmdtailWrite .. => none
  | .injtailWrite .. => none
  | .bar0RegisterWrite .. => none
  | .apertureRead .. => none
  | .apertureWrite .. => none
  | .hostPortReceive .. => none
  | .unmarkedManifestSign .. => none
  | .launch .. => none
  | .preempt .. => none
  | .cancel .. => none
  | .restore .. => none
  | .kill .. => none
  | .unknownHostCommand .. => none
  | .loadfw .. => none
  | .swap .. => none
  | .attest .. => none
  | .serviceFence .. => none
  | .unfence .. => none
  | .recal .. => none
  | .recalSchedule .. => none
  | .health .. => none
  | .traceout .. => none
  | .sealOpenPerform .. => none
  | .sealFramePerform .. => none
  | .sealClosePerform .. => none
  | .collectivePerform .. => none
  | .linkRetry .. => none
  | .skewMeasurement .. => none
  | .replayTimeout .. => none
  | .powerUp .. => none
  | .functionLevelReset .. => none
  | .throttle .. => none
  | .overTemperature .. => none
  | .stackRecalibrationPauseEnd .. => none
  | .systemContextRelease .. => none
  | .diesBelow95c .. => none

/-- An instruction whose fields hold only values that its description defines. -/
def Instr.wf (i : Instr) : Bool := i.check == none

end Sys2Proof
end

