-- ==== Sys2Proof/Decode.lean ====
section
/-! DEFINITION. Decoding of instruction words, and after it their encoding (Table 8-4, Table 8-7 and the field tables of each chapter). -/

namespace Sys2Proof

namespace Decode

/-- A run of bits of a word, listed from bit 0 upward: a field, bits that must be zero, or bits that select the form. -/
inductive Seg where
  | fld (width : Nat)
  | zero (width : Nat)
  | sel (width value : Nat)
deriving DecidableEq, Repr

/-- The form of an opcode: its 24 low bits, and the instruction made of its fields, lowest field first. -/
structure Row where
  segs : List Seg
  build : List Nat → Option Instr

/-- The word bits that a list of field values gives, lowest field first. -/
def pack : List Seg → List Nat → Nat
  | [], _ => 0
  | .fld w :: r, v :: vs => v + 2 ^ w * pack r vs
  | .fld w :: r, [] => 2 ^ w * pack r []
  | .zero w :: r, vs => 2 ^ w * pack r vs
  | .sel w k :: r, vs => k + 2 ^ w * pack r vs

/-- The field values of a word, lowest field first. -/
def unpack : List Seg → Nat → List Nat
  | [], _ => []
  | .fld w :: r, x => x % 2 ^ w :: unpack r (x / 2 ^ w)
  | .zero w :: r, x => unpack r (x / 2 ^ w)
  | .sel w _ :: r, x => unpack r (x / 2 ^ w)

/-- The selecting bits of the form stand in the word. -/
def selects : List Seg → Nat → Bool
  | [], _ => true
  | .fld w :: r, x => selects r (x / 2 ^ w)
  | .zero w :: r, x => selects r (x / 2 ^ w)
  | .sel w k :: r, x => x % 2 ^ w == k && selects r (x / 2 ^ w)

/-- Every bit that the form leaves unused is zero (R189, R200). -/
def clean : List Seg → Nat → Bool
  | [], _ => true
  | .fld w :: r, x => clean r (x / 2 ^ w)
  | .zero w :: r, x => x % 2 ^ w == 0 && clean r (x / 2 ^ w)
  | .sel w _ :: r, x => clean r (x / 2 ^ w)

/-- Reads one form from the 24 low bits of a word: its zero fields first (WHY 2), then its values (WHY 3). The form is the one that the selecting bits name; where they name none, the value is undefined (WHY 3) whatever the zero fields hold. R174 and R257 give no order, so this is the model's DESIGN CHOICE (log 110). -/
def readRow (r : Row) (x : Nat) : Except Reject Instr :=
  if clean r.segs x then
    match r.build (unpack r.segs x) with
    | some i =>
      match i.check with
      | none => .ok i
      | some e => .error e
    | none => .error .undefinedValue
  else .error .reserved

/-- The first form of an opcode whose selecting bits stand in the word. -/
def readRows : List Row → Nat → Except Reject Instr
  | [], _ => .error .undefinedValue
  | r :: rs, x => if selects r.segs x then readRow r x else readRows rs x

/-- NOP (R209). -/
def rowNop : Row where
  segs := [.zero 20, .fld 4]
  build
    | [p] => some (.nop (.ofNat 4 p))
    | _ => none

/-- EXIT (R202). -/
def rowExit : Row where
  segs := [.fld 17, .fld 3, .fld 4]
  build
    | [o, e, p] => some (.exit (.ofNat 4 p) (.ofNat 3 e) (.ofNat 17 o))
    | _ => none

/-- CALL (R202). -/
def rowCall : Row where
  segs := [.fld 17, .fld 3, .fld 4]
  build
    | [o, e, p] => some (.call (.ofNat 4 p) (.ofNat 3 e) (.ofNat 17 o))
    | _ => none

/-- RET (R202). -/
def rowRet : Row where
  segs := [.zero 17, .fld 3, .fld 4]
  build
    | [e, p] => some (.ret (.ofNat 4 p) (.ofNat 3 e))
    | _ => none

/-- LOOP (R202). -/
def rowLoop : Row where
  segs := [.fld 17, .fld 3, .fld 4]
  build
    | [o, e, p] => some (.loop (.ofNat 4 p) (.ofNat 3 e) (.ofNat 17 o))
    | _ => none

/-- DONE (R204). -/
def rowDone : Row where
  segs := [.zero 20, .fld 4]
  build
    | [p] => some (.done (.ofNat 4 p))
    | _ => none

/-- COMMIT (R205). -/
def rowCommit : Row where
  segs := [.zero 20, .fld 4]
  build
    | [p] => some (.commit (.ofNat 4 p))
    | _ => none

/-- YIELD (R206). -/
def rowYield : Row where
  segs := [.fld 15, .zero 5, .fld 4]
  build
    | [i, p] => some (.yield (.ofNat 4 p) (.ofNat 15 i))
    | _ => none

/-- TRAP (R207). -/
def rowTrap : Row where
  segs := [.fld 15, .fld 5, .fld 4]
  build
    | [i, d, p] => some (.trap (.ofNat 4 p) (.ofNat 5 d) (.ofNat 15 i))
    | _ => none

/-- BKPT (R207). -/
def rowBkpt : Row where
  segs := [.fld 15, .zero 5, .fld 4]
  build
    | [i, p] => some (.bkpt (.ofNat 4 p) (.ofNat 15 i))
    | _ => none

/-- WAITF (R208). -/
def rowWaitf : Row where
  segs := [.fld 3, .zero 7, .fld 5, .zero 5, .fld 4]
  build
    | [s, a, p] => some (.waitf (.ofNat 4 p) (.ofNat 5 a) (.ofNat 3 s))
    | _ => none

/-- EMPTY (R208). -/
def rowEmpty : Row where
  segs := [.fld 3, .zero 7, .fld 5, .fld 3, .zero 2, .fld 4]
  build
    | [s, a, d, p] => some (.empty (.ofNat 4 p) (.ofNat 3 d) (.ofNat 5 a) (.ofNat 3 s))
    | _ => none

/-- EXITR (R202). -/
def rowExitr : Row where
  segs := [.zero 10, .fld 5, .fld 3, .zero 2, .fld 4]
  build
    | [a, e, p] => some (.exitr (.ofNat 4 p) (.ofNat 3 e) (.ofNat 5 a))
    | _ => none

/-- CALLR (R202). -/
def rowCallr : Row where
  segs := [.zero 10, .fld 5, .fld 3, .zero 2, .fld 4]
  build
    | [a, e, p] => some (.callr (.ofNat 4 p) (.ofNat 3 e) (.ofNat 5 a))
    | _ => none

/-- ADD (R210). -/
def rowAdd : Row where
  segs := [.zero 3, .fld 1, .fld 1, .fld 5, .fld 5, .fld 5, .fld 4]
  build
    | [y, x, b, a, d, p] => some (.add (.ofNat 4 p) (.ofNat 5 d) (.ofNat 5 a) (.ofNat 5 b) (.ofNat 1 x) (.ofNat 1 y))
    | _ => none

/-- ADDI (R211). -/
def rowAddi : Row where
  segs := [.fld 10, .fld 5, .fld 5, .fld 4]
  build
    | [i, a, d, p] => some (.addi (.ofNat 4 p) (.ofNat 5 d) (.ofNat 5 a) (.ofNat 10 i))
    | _ => none

/-- SUB (R210). -/
def rowSub : Row where
  segs := [.zero 3, .fld 1, .fld 1, .fld 5, .fld 5, .fld 5, .fld 4]
  build
    | [y, x, b, a, d, p] => some (.sub (.ofNat 4 p) (.ofNat 5 d) (.ofNat 5 a) (.ofNat 5 b) (.ofNat 1 x) (.ofNat 1 y))
    | _ => none

/-- MUL (R210). -/
def rowMul : Row where
  segs := [.zero 3, .fld 1, .fld 1, .fld 5, .fld 5, .fld 5, .fld 4]
  build
    | [y, x, b, a, d, p] => some (.mul (.ofNat 4 p) (.ofNat 5 d) (.ofNat 5 a) (.ofNat 5 b) (.ofNat 1 x) (.ofNat 1 y))
    | _ => none

/-- MULI (R211). -/
def rowMuli : Row where
  segs := [.fld 10, .fld 5, .fld 5, .fld 4]
  build
    | [i, a, d, p] => some (.muli (.ofNat 4 p) (.ofNat 5 d) (.ofNat 5 a) (.ofNat 10 i))
    | _ => none

/-- MULH (R210). -/
def rowMulh : Row where
  segs := [.zero 3, .fld 1, .fld 1, .fld 5, .fld 5, .fld 5, .fld 4]
  build
    | [y, x, b, a, d, p] => some (.mulh (.ofNat 4 p) (.ofNat 5 d) (.ofNat 5 a) (.ofNat 5 b) (.ofNat 1 x) (.ofNat 1 y))
    | _ => none

/-- MULHN (R210). -/
def rowMulhn : Row where
  segs := [.zero 3, .fld 1, .fld 1, .fld 5, .fld 5, .fld 5, .fld 4]
  build
    | [y, x, b, a, d, p] => some (.mulhn (.ofNat 4 p) (.ofNat 5 d) (.ofNat 5 a) (.ofNat 5 b) (.ofNat 1 x) (.ofNat 1 y))
    | _ => none

/-- DIV (R212). -/
def rowDiv : Row where
  segs := [.zero 3, .fld 1, .fld 1, .fld 5, .fld 5, .fld 5, .fld 4]
  build
    | [y, x, b, a, d, p] => some (.div (.ofNat 4 p) (.ofNat 5 d) (.ofNat 5 a) (.ofNat 5 b) (.ofNat 1 x) (.ofNat 1 y))
    | _ => none

/-- DIVN (R212). -/
def rowDivn : Row where
  segs := [.zero 3, .fld 1, .fld 1, .fld 5, .fld 5, .fld 5, .fld 4]
  build
    | [y, x, b, a, d, p] => some (.divn (.ofNat 4 p) (.ofNat 5 d) (.ofNat 5 a) (.ofNat 5 b) (.ofNat 1 x) (.ofNat 1 y))
    | _ => none

/-- REM (R212). -/
def rowRem : Row where
  segs := [.zero 3, .fld 1, .fld 1, .fld 5, .fld 5, .fld 5, .fld 4]
  build
    | [y, x, b, a, d, p] => some (.rem (.ofNat 4 p) (.ofNat 5 d) (.ofNat 5 a) (.ofNat 5 b) (.ofNat 1 x) (.ofNat 1 y))
    | _ => none

/-- REMN (R212). -/
def rowRemn : Row where
  segs := [.zero 3, .fld 1, .fld 1, .fld 5, .fld 5, .fld 5, .fld 4]
  build
    | [y, x, b, a, d, p] => some (.remn (.ofNat 4 p) (.ofNat 5 d) (.ofNat 5 a) (.ofNat 5 b) (.ofNat 1 x) (.ofNat 1 y))
    | _ => none

/-- AND (R210). -/
def rowAnd : Row where
  segs := [.zero 3, .fld 1, .fld 1, .fld 5, .fld 5, .fld 5, .fld 4]
  build
    | [y, x, b, a, d, p] => some (.and (.ofNat 4 p) (.ofNat 5 d) (.ofNat 5 a) (.ofNat 5 b) (.ofNat 1 x) (.ofNat 1 y))
    | _ => none

/-- ANDI (R211). -/
def rowAndi : Row where
  segs := [.fld 10, .fld 5, .fld 5, .fld 4]
  build
    | [i, a, d, p] => some (.andi (.ofNat 4 p) (.ofNat 5 d) (.ofNat 5 a) (.ofNat 10 i))
    | _ => none

/-- ANDN (R210). -/
def rowAndn : Row where
  segs := [.zero 3, .fld 1, .fld 1, .fld 5, .fld 5, .fld 5, .fld 4]
  build
    | [y, x, b, a, d, p] => some (.andn (.ofNat 4 p) (.ofNat 5 d) (.ofNat 5 a) (.ofNat 5 b) (.ofNat 1 x) (.ofNat 1 y))
    | _ => none

/-- OR (R210). -/
def rowOr : Row where
  segs := [.zero 3, .fld 1, .fld 1, .fld 5, .fld 5, .fld 5, .fld 4]
  build
    | [y, x, b, a, d, p] => some (.or (.ofNat 4 p) (.ofNat 5 d) (.ofNat 5 a) (.ofNat 5 b) (.ofNat 1 x) (.ofNat 1 y))
    | _ => none

/-- ORI (R211). -/
def rowOri : Row where
  segs := [.fld 10, .fld 5, .fld 5, .fld 4]
  build
    | [i, a, d, p] => some (.ori (.ofNat 4 p) (.ofNat 5 d) (.ofNat 5 a) (.ofNat 10 i))
    | _ => none

/-- XOR (R210). -/
def rowXor : Row where
  segs := [.zero 3, .fld 1, .fld 1, .fld 5, .fld 5, .fld 5, .fld 4]
  build
    | [y, x, b, a, d, p] => some (.xor (.ofNat 4 p) (.ofNat 5 d) (.ofNat 5 a) (.ofNat 5 b) (.ofNat 1 x) (.ofNat 1 y))
    | _ => none

/-- XORI (R211). -/
def rowXori : Row where
  segs := [.fld 10, .fld 5, .fld 5, .fld 4]
  build
    | [i, a, d, p] => some (.xori (.ofNat 4 p) (.ofNat 5 d) (.ofNat 5 a) (.ofNat 10 i))
    | _ => none

/-- SHL (R210). -/
def rowShl : Row where
  segs := [.zero 3, .fld 1, .fld 1, .fld 5, .fld 5, .fld 5, .fld 4]
  build
    | [y, x, b, a, d, p] => some (.shl (.ofNat 4 p) (.ofNat 5 d) (.ofNat 5 a) (.ofNat 5 b) (.ofNat 1 x) (.ofNat 1 y))
    | _ => none

/-- SHLI (R211). -/
def rowShli : Row where
  segs := [.fld 10, .fld 5, .fld 5, .fld 4]
  build
    | [i, a, d, p] => some (.shli (.ofNat 4 p) (.ofNat 5 d) (.ofNat 5 a) (.ofNat 10 i))
    | _ => none

/-- SHR (R210). -/
def rowShr : Row where
  segs := [.zero 3, .fld 1, .fld 1, .fld 5, .fld 5, .fld 5, .fld 4]
  build
    | [y, x, b, a, d, p] => some (.shr (.ofNat 4 p) (.ofNat 5 d) (.ofNat 5 a) (.ofNat 5 b) (.ofNat 1 x) (.ofNat 1 y))
    | _ => none

/-- SHRI (R211). -/
def rowShri : Row where
  segs := [.fld 10, .fld 5, .fld 5, .fld 4]
  build
    | [i, a, d, p] => some (.shri (.ofNat 4 p) (.ofNat 5 d) (.ofNat 5 a) (.ofNat 10 i))
    | _ => none

/-- SAR (R210). -/
def rowSar : Row where
  segs := [.zero 3, .fld 1, .fld 1, .fld 5, .fld 5, .fld 5, .fld 4]
  build
    | [y, x, b, a, d, p] => some (.sar (.ofNat 4 p) (.ofNat 5 d) (.ofNat 5 a) (.ofNat 5 b) (.ofNat 1 x) (.ofNat 1 y))
    | _ => none

/-- SARI (R211). -/
def rowSari : Row where
  segs := [.fld 10, .fld 5, .fld 5, .fld 4]
  build
    | [i, a, d, p] => some (.sari (.ofNat 4 p) (.ofNat 5 d) (.ofNat 5 a) (.ofNat 10 i))
    | _ => none

/-- ROT (R210). -/
def rowRot : Row where
  segs := [.zero 3, .fld 1, .fld 1, .fld 5, .fld 5, .fld 5, .fld 4]
  build
    | [y, x, b, a, d, p] => some (.rot (.ofNat 4 p) (.ofNat 5 d) (.ofNat 5 a) (.ofNat 5 b) (.ofNat 1 x) (.ofNat 1 y))
    | _ => none

/-- MIN (R210). -/
def rowMin : Row where
  segs := [.zero 3, .fld 1, .fld 1, .fld 5, .fld 5, .fld 5, .fld 4]
  build
    | [y, x, b, a, d, p] => some (.min (.ofNat 4 p) (.ofNat 5 d) (.ofNat 5 a) (.ofNat 5 b) (.ofNat 1 x) (.ofNat 1 y))
    | _ => none

/-- MAX (R210). -/
def rowMax : Row where
  segs := [.zero 3, .fld 1, .fld 1, .fld 5, .fld 5, .fld 5, .fld 4]
  build
    | [y, x, b, a, d, p] => some (.max (.ofNat 4 p) (.ofNat 5 d) (.ofNat 5 a) (.ofNat 5 b) (.ofNat 1 x) (.ofNat 1 y))
    | _ => none

/-- MINN (R210). -/
def rowMinn : Row where
  segs := [.zero 3, .fld 1, .fld 1, .fld 5, .fld 5, .fld 5, .fld 4]
  build
    | [y, x, b, a, d, p] => some (.minn (.ofNat 4 p) (.ofNat 5 d) (.ofNat 5 a) (.ofNat 5 b) (.ofNat 1 x) (.ofNat 1 y))
    | _ => none

/-- MAXN (R210). -/
def rowMaxn : Row where
  segs := [.zero 3, .fld 1, .fld 1, .fld 5, .fld 5, .fld 5, .fld 4]
  build
    | [y, x, b, a, d, p] => some (.maxn (.ofNat 4 p) (.ofNat 5 d) (.ofNat 5 a) (.ofNat 5 b) (.ofNat 1 x) (.ofNat 1 y))
    | _ => none

/-- ABS (R213). -/
def rowAbs : Row where
  segs := [.zero 4, .fld 1, .zero 5, .fld 5, .fld 5, .fld 4]
  build
    | [x, a, d, p] => some (.abs (.ofNat 4 p) (.ofNat 5 d) (.ofNat 5 a) (.ofNat 1 x))
    | _ => none

/-- CLZ (R213). -/
def rowClz : Row where
  segs := [.zero 4, .fld 1, .zero 5, .fld 5, .fld 5, .fld 4]
  build
    | [x, a, d, p] => some (.clz (.ofNat 4 p) (.ofNat 5 d) (.ofNat 5 a) (.ofNat 1 x))
    | _ => none

/-- CTZ (R213). -/
def rowCtz : Row where
  segs := [.zero 4, .fld 1, .zero 5, .fld 5, .fld 5, .fld 4]
  build
    | [x, a, d, p] => some (.ctz (.ofNat 4 p) (.ofNat 5 d) (.ofNat 5 a) (.ofNat 1 x))
    | _ => none

/-- POPC (R213). -/
def rowPopc : Row where
  segs := [.zero 4, .fld 1, .zero 5, .fld 5, .fld 5, .fld 4]
  build
    | [x, a, d, p] => some (.popc (.ofNat 4 p) (.ofNat 5 d) (.ofNat 5 a) (.ofNat 1 x))
    | _ => none

/-- BFX (R214). -/
def rowBfx : Row where
  segs := [.zero 3, .fld 1, .fld 1, .fld 5, .fld 5, .fld 5, .fld 4]
  build
    | [y, x, b, a, d, p] => some (.bfx (.ofNat 4 p) (.ofNat 5 d) (.ofNat 5 a) (.ofNat 5 b) (.ofNat 1 x) (.ofNat 1 y))
    | _ => none

/-- BFXS (R214). -/
def rowBfxs : Row where
  segs := [.zero 3, .fld 1, .fld 1, .fld 5, .fld 5, .fld 5, .fld 4]
  build
    | [y, x, b, a, d, p] => some (.bfxs (.ofNat 4 p) (.ofNat 5 d) (.ofNat 5 a) (.ofNat 5 b) (.ofNat 1 x) (.ofNat 1 y))
    | _ => none

/-- BFI (R214). -/
def rowBfi : Row where
  segs := [.zero 3, .fld 1, .fld 1, .fld 5, .fld 5, .fld 5, .fld 4]
  build
    | [y, x, b, a, d, p] => some (.bfi (.ofNat 4 p) (.ofNat 5 d) (.ofNat 5 a) (.ofNat 5 b) (.ofNat 1 x) (.ofNat 1 y))
    | _ => none

/-- MOV (R213). -/
def rowMov : Row where
  segs := [.zero 4, .fld 1, .zero 5, .fld 5, .fld 5, .fld 4]
  build
    | [x, a, d, p] => some (.mov (.ofNat 4 p) (.ofNat 5 d) (.ofNat 5 a) (.ofNat 1 x))
    | _ => none

/-- MOVL (R215). -/
def rowMovl : Row where
  segs := [.fld 15, .fld 5, .fld 4]
  build
    | [i, d, p] => some (.movl (.ofNat 4 p) (.ofNat 5 d) (.ofNat 15 i))
    | _ => none

/-- MOVH (R215). -/
def rowMovh : Row where
  segs := [.fld 15, .fld 5, .fld 4]
  build
    | [i, d, p] => some (.movh (.ofNat 4 p) (.ofNat 5 d) (.ofNat 15 i))
    | _ => none

/-- SEL (R216). -/
def rowSel : Row where
  segs := [.fld 4, .zero 1, .fld 5, .fld 5, .fld 5, .fld 4]
  build
    | [s, b, a, d, p] => some (.sel (.ofNat 4 p) (.ofNat 5 d) (.ofNat 5 a) (.ofNat 5 b) (.ofNat 4 s))
    | _ => none

/-- ADDX (R210). -/
def rowAddx : Row where
  segs := [.fld 3, .fld 1, .fld 1, .fld 5, .fld 5, .fld 5, .fld 4]
  build
    | [s, y, x, b, a, d, p] => some (.addx (.ofNat 4 p) (.ofNat 5 d) (.ofNat 5 a) (.ofNat 5 b) (.ofNat 1 x) (.ofNat 1 y) (.ofNat 3 s))
    | _ => none

/-- SATI (R216). -/
def rowSati : Row where
  segs := [.fld 7, .zero 3, .fld 5, .fld 5, .fld 4]
  build
    | [i, a, d, p] => some (.sati (.ofNat 4 p) (.ofNat 5 d) (.ofNat 5 a) (.ofNat 7 i))
    | _ => none

/-- WKF (R217). -/
def rowWkf : Row where
  segs := [.fld 4, .zero 6, .fld 5, .fld 5, .fld 4]
  build
    | [i, a, d, p] => some (.wkf (.ofNat 4 p) (.ofNat 5 d) (.ofNat 5 a) (.ofNat 4 i))
    | _ => none

/-- WKS (R217). -/
def rowWks : Row where
  segs := [.fld 3, .zero 2, .fld 5, .fld 5, .fld 5, .fld 4]
  build
    | [s, b, a, d, p] => some (.wks (.ofNat 4 p) (.ofNat 5 d) (.ofNat 5 a) (.ofNat 5 b) (.ofNat 3 s))
    | _ => none

/-- NODE (R218). -/
def rowNode : Row where
  segs := [.fld 5, .fld 5, .fld 5, .fld 5, .fld 4]
  build
    | [c, b, a, d, p] => some (.node (.ofNat 4 p) (.ofNat 5 d) (.ofNat 5 a) (.ofNat 5 b) (.ofNat 5 c))
    | _ => none

/-- MOVM (R219). -/
def rowMovm : Row where
  segs := [.fld 10, .fld 5, .fld 5, .fld 4]
  build
    | [i, a, d, p] => some (.movm (.ofNat 4 p) (.ofNat 5 d) (.ofNat 5 a) (.ofNat 10 i))
    | _ => none

/-- CMP (R220). -/
def rowCmp : Row where
  segs := [.fld 5, .fld 5, .fld 5, .fld 3, .zero 2, .fld 4]
  build
    | [s, b, a, d, p] => some (.cmp (.ofNat 4 p) (.ofNat 3 d) (.ofNat 5 a) (.ofNat 5 b) (.ofNat 5 s))
    | _ => none

/-- CMPI (R220). -/
def rowCmpi41 : Row where
  segs := [.fld 10, .fld 5, .fld 3, .fld 2, .fld 4]
  build
    | [i, a, d, k, p] => some (.cmpi41 (.ofNat 4 p) (.ofNat 2 k) (.ofNat 3 d) (.ofNat 5 a) (.ofNat 10 i))
    | _ => none

/-- CMPI (R220). -/
def rowCmpi42 : Row where
  segs := [.fld 10, .fld 5, .fld 3, .fld 2, .fld 4]
  build
    | [i, a, d, k, p] => some (.cmpi42 (.ofNat 4 p) (.ofNat 2 k) (.ofNat 3 d) (.ofNat 5 a) (.ofNat 10 i))
    | _ => none

/-- CMPI (R220). -/
def rowCmpi43 : Row where
  segs := [.fld 10, .fld 5, .fld 3, .fld 1, .sel 1 0, .fld 4]
  build
    | [i, a, d, k, p] => some (.cmpi43 (.ofNat 4 p) (.ofNat 1 k) (.ofNat 3 d) (.ofNat 5 a) (.ofNat 10 i))
    | _ => none

/-- PAND (R221). -/
def rowPand : Row where
  segs := [.fld 2, .zero 3, .fld 3, .zero 2, .fld 3, .zero 2, .fld 3, .zero 2, .fld 4]
  build
    | [s, b, a, d, p] => some (.pand (.ofNat 4 p) (.ofNat 3 d) (.ofNat 3 a) (.ofNat 3 b) (.ofNat 2 s))
    | _ => none

/-- POR (R221). -/
def rowPor : Row where
  segs := [.fld 2, .zero 3, .fld 3, .zero 2, .fld 3, .zero 2, .fld 3, .zero 2, .fld 4]
  build
    | [s, b, a, d, p] => some (.por (.ofNat 4 p) (.ofNat 3 d) (.ofNat 3 a) (.ofNat 3 b) (.ofNat 2 s))
    | _ => none

/-- PXOR (R221). -/
def rowPxor : Row where
  segs := [.fld 2, .zero 3, .fld 3, .zero 2, .fld 3, .zero 2, .fld 3, .zero 2, .fld 4]
  build
    | [s, b, a, d, p] => some (.pxor (.ofNat 4 p) (.ofNat 3 d) (.ofNat 3 a) (.ofNat 3 b) (.ofNat 2 s))
    | _ => none

/-- PNOT (R221). -/
def rowPnot : Row where
  segs := [.zero 10, .fld 3, .zero 2, .fld 3, .zero 2, .fld 4]
  build
    | [a, d, p] => some (.pnot (.ofNat 4 p) (.ofNat 3 d) (.ofNat 3 a))
    | _ => none

/-- PMOV (R221). -/
def rowPmov : Row where
  segs := [.zero 10, .fld 3, .zero 2, .fld 3, .zero 2, .fld 4]
  build
    | [a, d, p] => some (.pmov (.ofNat 4 p) (.ofNat 3 d) (.ofNat 3 a))
    | _ => none

/-- GPRED.pack (R222). -/
def rowGpredPack : Row where
  segs := [.sel 3 0, .zero 12, .fld 5, .fld 4]
  build
    | [d, p] => some (.gpredPack (.ofNat 4 p) (.ofNat 5 d))
    | _ => none

/-- GPRED.unpack (R222). -/
def rowGpredUnpack : Row where
  segs := [.sel 3 1, .zero 1, .fld 1, .zero 5, .fld 5, .zero 5, .fld 4]
  build
    | [x, a, p] => some (.gpredUnpack (.ofNat 4 p) (.ofNat 5 a) (.ofNat 1 x))
    | _ => none

/-- GPRED.nz (R222). -/
def rowGpredNz : Row where
  segs := [.sel 3 2, .zero 1, .fld 1, .zero 5, .fld 5, .fld 3, .zero 2, .fld 4]
  build
    | [x, a, d, p] => some (.gpredNz (.ofNat 4 p) (.ofNat 3 d) (.ofNat 5 a) (.ofNat 1 x))
    | _ => none

/-- LD.n8 (R224). -/
def rowLdN8 : Row where
  segs := [.fld 10, .fld 5, .fld 5, .fld 4]
  build
    | [o, b, d, p] => some (.ldN8 (.ofNat 4 p) (.ofNat 5 d) (.ofNat 5 b) (.ofNat 10 o))
    | _ => none

/-- LD.n16 (R224). -/
def rowLdN16 : Row where
  segs := [.fld 10, .fld 5, .fld 5, .fld 4]
  build
    | [o, b, d, p] => some (.ldN16 (.ofNat 4 p) (.ofNat 5 d) (.ofNat 5 b) (.ofNat 10 o))
    | _ => none

/-- LD.n32 (R224). -/
def rowLdN32 : Row where
  segs := [.fld 10, .fld 5, .fld 5, .fld 4]
  build
    | [o, b, d, p] => some (.ldN32 (.ofNat 4 p) (.ofNat 5 d) (.ofNat 5 b) (.ofNat 10 o))
    | _ => none

/-- LD.n64 (R224). -/
def rowLdN64 : Row where
  segs := [.fld 10, .fld 5, .fld 5, .fld 4]
  build
    | [o, b, d, p] => some (.ldN64 (.ofNat 4 p) (.ofNat 5 d) (.ofNat 5 b) (.ofNat 10 o))
    | _ => none

/-- LDS.i8 (R224). -/
def rowLdsI8 : Row where
  segs := [.fld 10, .fld 5, .fld 5, .fld 4]
  build
    | [o, b, d, p] => some (.ldsI8 (.ofNat 4 p) (.ofNat 5 d) (.ofNat 5 b) (.ofNat 10 o))
    | _ => none

/-- LDS.i16 (R224). -/
def rowLdsI16 : Row where
  segs := [.fld 10, .fld 5, .fld 5, .fld 4]
  build
    | [o, b, d, p] => some (.ldsI16 (.ofNat 4 p) (.ofNat 5 d) (.ofNat 5 b) (.ofNat 10 o))
    | _ => none

/-- LDS.i32 (R224). -/
def rowLdsI32 : Row where
  segs := [.fld 10, .fld 5, .fld 5, .fld 4]
  build
    | [o, b, d, p] => some (.ldsI32 (.ofNat 4 p) (.ofNat 5 d) (.ofNat 5 b) (.ofNat 10 o))
    | _ => none

/-- ST.n8 (R224). -/
def rowStN8 : Row where
  segs := [.fld 10, .fld 5, .fld 5, .fld 4]
  build
    | [o, b, d, p] => some (.stN8 (.ofNat 4 p) (.ofNat 5 d) (.ofNat 5 b) (.ofNat 10 o))
    | _ => none

/-- ST.n16 (R224). -/
def rowStN16 : Row where
  segs := [.fld 10, .fld 5, .fld 5, .fld 4]
  build
    | [o, b, d, p] => some (.stN16 (.ofNat 4 p) (.ofNat 5 d) (.ofNat 5 b) (.ofNat 10 o))
    | _ => none

/-- ST.n32 (R224). -/
def rowStN32 : Row where
  segs := [.fld 10, .fld 5, .fld 5, .fld 4]
  build
    | [o, b, d, p] => some (.stN32 (.ofNat 4 p) (.ofNat 5 d) (.ofNat 5 b) (.ofNat 10 o))
    | _ => none

/-- ST.n64 (R224). -/
def rowStN64 : Row where
  segs := [.fld 10, .fld 5, .fld 5, .fld 4]
  build
    | [o, b, d, p] => some (.stN64 (.ofNat 4 p) (.ofNat 5 d) (.ofNat 5 b) (.ofNat 10 o))
    | _ => none

/-- LDV (R225). -/
def rowLdv : Row where
  segs := [.fld 10, .fld 5, .fld 4, .zero 1, .fld 4]
  build
    | [o, b, d, p] => some (.ldv (.ofNat 4 p) (.ofNat 4 d) (.ofNat 5 b) (.ofNat 10 o))
    | _ => none

/-- STV (R225). -/
def rowStv : Row where
  segs := [.fld 10, .fld 5, .fld 4, .zero 1, .fld 4]
  build
    | [o, b, d, p] => some (.stv (.ofNat 4 p) (.ofNat 4 d) (.ofNat 5 b) (.ofNat 10 o))
    | _ => none

/-- LDP (R226). -/
def rowLdp : Row where
  segs := [.sel 3 0, .fld 1, .fld 1, .fld 5, .fld 5, .fld 5, .fld 4]
  build
    | [y, x, b, a, d, p] => some (.ldp (.ofNat 4 p) (.ofNat 5 d) (.ofNat 5 a) (.ofNat 5 b) (.ofNat 1 x) (.ofNat 1 y))
    | _ => none

/-- STP (R226). -/
def rowStp : Row where
  segs := [.sel 3 1, .fld 1, .fld 1, .fld 5, .fld 5, .fld 5, .fld 4]
  build
    | [y, x, b, a, d, p] => some (.stp (.ofNat 4 p) (.ofNat 5 d) (.ofNat 5 a) (.ofNat 5 b) (.ofNat 1 x) (.ofNat 1 y))
    | _ => none

/-- LDX (R227). -/
def rowLdx : Row where
  segs := [.sel 3 0, .fld 1, .fld 1, .fld 4, .zero 1, .fld 5, .fld 4, .zero 1, .fld 4]
  build
    | [y, x, b, a, d, p] => some (.ldx (.ofNat 4 p) (.ofNat 4 d) (.ofNat 5 a) (.ofNat 4 b) (.ofNat 1 x) (.ofNat 1 y))
    | _ => none

/-- STX (R227). -/
def rowStx : Row where
  segs := [.sel 3 1, .fld 1, .fld 1, .fld 4, .zero 1, .fld 5, .fld 4, .zero 1, .fld 4]
  build
    | [y, x, b, a, d, p] => some (.stx (.ofNat 4 p) (.ofNat 4 d) (.ofNat 5 a) (.ofNat 4 b) (.ofNat 1 x) (.ofNat 1 y))
    | _ => none

/-- AMO (R228). -/
def rowAmo : Row where
  segs := [.fld 5, .fld 5, .fld 5, .fld 5, .fld 4]
  build
    | [s, b, a, d, p] => some (.amo (.ofNat 4 p) (.ofNat 5 d) (.ofNat 5 a) (.ofNat 5 b) (.ofNat 5 s))
    | _ => none

/-- RLD (R230). -/
def rowRld : Row where
  segs := [.fld 3, .fld 1, .fld 1, .fld 5, .fld 5, .fld 5, .fld 4]
  build
    | [s, y, x, b, a, d, p] => some (.rld (.ofNat 4 p) (.ofNat 5 d) (.ofNat 5 a) (.ofNat 5 b) (.ofNat 1 x) (.ofNat 1 y) (.ofNat 3 s))
    | _ => none

/-- RST (R231). -/
def rowRst : Row where
  segs := [.fld 2, .zero 1, .fld 1, .fld 1, .fld 5, .fld 5, .fld 5, .fld 4]
  build
    | [s, y, x, b, a, d, p] => some (.rst (.ofNat 4 p) (.ofNat 5 d) (.ofNat 5 a) (.ofNat 5 b) (.ofNat 1 x) (.ofNat 1 y) (.ofNat 2 s))
    | _ => none

/-- RAMO (R232). -/
def rowRamo : Row where
  segs := [.fld 5, .fld 5, .fld 5, .fld 5, .fld 4]
  build
    | [s, b, a, d, p] => some (.ramo (.ofNat 4 p) (.ofNat 5 d) (.ofNat 5 a) (.ofNat 5 b) (.ofNat 5 s))
    | _ => none

/-- RCPY (R233). -/
def rowRcpy : Row where
  segs := [.fld 5, .fld 5, .fld 5, .zero 5, .fld 4]
  build
    | [c, b, a, p] => some (.rcpy (.ofNat 4 p) (.ofNat 5 a) (.ofNat 5 b) (.ofNat 5 c))
    | _ => none

/-- VLD (R234). -/
def rowVld : Row where
  segs := [.fld 1, .zero 2, .fld 1, .fld 1, .fld 5, .fld 5, .fld 5, .fld 4]
  build
    | [s, y, x, b, a, d, p] => some (.vld (.ofNat 4 p) (.ofNat 5 d) (.ofNat 5 a) (.ofNat 5 b) (.ofNat 1 x) (.ofNat 1 y) (.ofNat 1 s))
    | _ => none

/-- VST (R235). -/
def rowVst : Row where
  segs := [.fld 3, .fld 1, .fld 1, .fld 5, .fld 5, .zero 5, .fld 4]
  build
    | [s, y, x, b, a, p] => some (.vst (.ofNat 4 p) (.ofNat 5 a) (.ofNat 5 b) (.ofNat 1 x) (.ofNat 1 y) (.ofNat 3 s))
    | _ => none

/-- VRECL (R236). -/
def rowVrecl : Row where
  segs := [.fld 1, .zero 2, .fld 1, .fld 1, .fld 5, .fld 5, .zero 5, .fld 4]
  build
    | [s, y, x, b, a, p] => some (.vrecl (.ofNat 4 p) (.ofNat 5 a) (.ofNat 5 b) (.ofNat 1 x) (.ofNat 1 y) (.ofNat 1 s))
    | _ => none

/-- FENCE (R237). -/
def rowFence : Row where
  segs := [.fld 2, .zero 18, .fld 4]
  build
    | [i, p] => some (.fence (.ofNat 4 p) (.ofNat 2 i))
    | _ => none

/-- QFENCE (R237). -/
def rowQfence : Row where
  segs := [.fld 8, .zero 12, .fld 4]
  build
    | [i, p] => some (.qfence (.ofNat 4 p) (.ofNat 8 i))
    | _ => none

/-- SEND (R239). -/
def rowSend : Row where
  segs := [.fld 4, .zero 1, .fld 5, .fld 5, .fld 5, .fld 4]
  build
    | [s, b, a, d, p] => some (.send (.ofNat 4 p) (.ofNat 5 d) (.ofNat 5 a) (.ofNat 5 b) (.ofNat 4 s))
    | _ => none

/-- SENDV (R240). -/
def rowSendv : Row where
  segs := [.zero 3, .fld 1, .zero 1, .fld 5, .fld 5, .fld 5, .fld 4]
  build
    | [s, b, a, d, p] => some (.sendv (.ofNat 4 p) (.ofNat 5 d) (.ofNat 5 a) (.ofNat 5 b) (.ofNat 1 s))
    | _ => none

/-- REPLY (R242). -/
def rowReply : Row where
  segs := [.sel 5 0, .fld 5, .fld 5, .zero 5, .fld 4]
  build
    | [b, a, p] => some (.reply (.ofNat 4 p) (.ofNat 5 a) (.ofNat 5 b))
    | _ => none

/-- REPLY.st (R242). -/
def rowReplySt : Row where
  segs := [.sel 5 1, .fld 5, .fld 5, .zero 5, .fld 4]
  build
    | [b, a, p] => some (.replySt (.ofNat 4 p) (.ofNat 5 a) (.ofNat 5 b))
    | _ => none

/-- REPLY.key (R242). -/
def rowReplyKey : Row where
  segs := [.sel 5 2, .fld 5, .fld 5, .zero 5, .fld 4]
  build
    | [b, a, p] => some (.replyKey (.ofNat 4 p) (.ofNat 5 a) (.ofNat 5 b))
    | _ => none

/-- SPAWN (R244). -/
def rowSpawn : Row where
  segs := [.fld 1, .zero 4, .fld 5, .fld 5, .fld 5, .fld 4]
  build
    | [s, b, a, d, p] => some (.spawn (.ofNat 4 p) (.ofNat 5 d) (.ofNat 5 a) (.ofNat 5 b) (.ofNat 1 s))
    | _ => none

/-- TINC (R248). -/
def rowTinc : Row where
  segs := [.zero 5, .fld 5, .fld 5, .zero 5, .fld 4]
  build
    | [b, a, p] => some (.tinc (.ofNat 4 p) (.ofNat 5 a) (.ofNat 5 b))
    | _ => none

/-- TDEC (R248). -/
def rowTdec : Row where
  segs := [.zero 5, .fld 5, .fld 5, .zero 5, .fld 4]
  build
    | [b, a, p] => some (.tdec (.ofNat 4 p) (.ofNat 5 a) (.ofNat 5 b))
    | _ => none

/-- TARM (R249). -/
def rowTarm : Row where
  segs := [.zero 5, .fld 5, .fld 5, .zero 5, .fld 4]
  build
    | [b, a, p] => some (.tarm (.ofNat 4 p) (.ofNat 5 a) (.ofNat 5 b))
    | _ => none

/-- TRD (R250). -/
def rowTrd : Row where
  segs := [.zero 10, .fld 5, .fld 5, .fld 4]
  build
    | [a, d, p] => some (.trd (.ofNat 4 p) (.ofNat 5 d) (.ofNat 5 a))
    | _ => none

/-- KEYA (R252). -/
def rowKeya : Row where
  segs := [.zero 3, .sel 1 0, .zero 11, .fld 5, .fld 4]
  build
    | [d, p] => some (.keya (.ofNat 4 p) (.ofNat 5 d))
    | _ => none

/-- KEYA.nb (R252). -/
def rowKeyaNb : Row where
  segs := [.fld 3, .sel 1 1, .zero 11, .fld 5, .fld 4]
  build
    | [s, d, p] => some (.keyaNb (.ofNat 4 p) (.ofNat 5 d) (.ofNat 3 s))
    | _ => none

/-- KEYF (R253). -/
def rowKeyf : Row where
  segs := [.zero 4, .fld 1, .zero 5, .fld 5, .zero 5, .fld 4]
  build
    | [x, a, p] => some (.keyf (.ofNat 4 p) (.ofNat 5 a) (.ofNat 1 x))
    | _ => none

/-- WAITANY (R254). -/
def rowWaitany : Row where
  segs := [.zero 4, .fld 1, .zero 5, .fld 5, .fld 5, .fld 4]
  build
    | [x, a, d, p] => some (.waitany (.ofNat 4 p) (.ofNat 5 d) (.ofNat 5 a) (.ofNat 1 x))
    | _ => none

/-- WAITALL (R254). -/
def rowWaitall : Row where
  segs := [.zero 4, .fld 1, .zero 5, .fld 5, .fld 5, .fld 4]
  build
    | [x, a, d, p] => some (.waitall (.ofNat 4 p) (.ofNat 5 d) (.ofNat 5 a) (.ofNat 1 x))
    | _ => none

/-- FFR (R254). -/
def rowFfr : Row where
  segs := [.zero 4, .fld 1, .zero 5, .fld 5, .fld 5, .fld 4]
  build
    | [x, a, d, p] => some (.ffr (.ofNat 4 p) (.ofNat 5 d) (.ofNat 5 a) (.ofNat 1 x))
    | _ => none

/-- TRIGGER (R255). -/
def rowTrigger : Row where
  segs := [.zero 20, .fld 4]
  build
    | [p] => some (.trigger (.ofNat 4 p))
    | _ => none

/-- QPUSH (R245). -/
def rowQpush : Row where
  segs := [.fld 4, .zero 1, .fld 5, .fld 5, .fld 5, .fld 4]
  build
    | [s, b, a, d, p] => some (.qpush (.ofNat 4 p) (.ofNat 5 d) (.ofNat 5 a) (.ofNat 5 b) (.ofNat 4 s))
    | _ => none

/-- QPOP (R246). -/
def rowQpop : Row where
  segs := [.sel 5 0, .fld 5, .fld 5, .fld 5, .fld 4]
  build
    | [b, a, d, p] => some (.qpop (.ofNat 4 p) (.ofNat 5 d) (.ofNat 5 a) (.ofNat 5 b))
    | _ => none

/-- QPOP.fwd (R246). -/
def rowQpopFwd : Row where
  segs := [.sel 5 1, .zero 5, .fld 5, .fld 5, .fld 4]
  build
    | [a, d, p] => some (.qpopFwd (.ofNat 4 p) (.ofNat 5 d) (.ofNat 5 a))
    | _ => none

/-- QPOP.len (R246). -/
def rowQpopLen : Row where
  segs := [.sel 5 2, .zero 5, .fld 5, .fld 5, .fld 4]
  build
    | [a, d, p] => some (.qpopLen (.ofNat 4 p) (.ofNat 5 d) (.ofNat 5 a))
    | _ => none

/-- MX.LEASE (R300). -/
def rowMxLease : Row where
  segs := [.fld 1, .sel 4 0, .zero 10, .fld 5, .fld 4]
  build
    | [s, d, p] => some (.mxLease (.ofNat 4 p) (.ofNat 5 d) (.ofNat 1 s))
    | _ => none

/-- MX.REL (R301). -/
def rowMxRel : Row where
  segs := [.zero 20, .fld 4]
  build
    | [p] => some (.mxRel (.ofNat 4 p))
    | _ => none

/-- MX.CTX (R302). -/
def rowMxCtx : Row where
  segs := [.sel 5 0, .zero 5, .fld 5, .zero 5, .fld 4]
  build
    | [a, p] => some (.mxCtx (.ofNat 4 p) (.ofNat 5 a))
    | _ => none

/-- MX.A (R303). -/
def rowMxA : Row where
  segs := [.sel 5 0, .zero 5, .fld 5, .fld 5, .fld 4]
  build
    | [a, d, p] => some (.mxA (.ofNat 4 p) (.ofNat 5 d) (.ofNat 5 a))
    | _ => none

/-- MX.B (R303). -/
def rowMxB : Row where
  segs := [.sel 5 0, .zero 5, .fld 5, .fld 5, .fld 4]
  build
    | [a, d, p] => some (.mxB (.ofNat 4 p) (.ofNat 5 d) (.ofNat 5 a))
    | _ => none

/-- MX.RUN (R304). -/
def rowMxRun : Row where
  segs := [.sel 5 0, .fld 5, .fld 5, .fld 5, .fld 4]
  build
    | [b, a, d, p] => some (.mxRun (.ofNat 4 p) (.ofNat 5 d) (.ofNat 5 a) (.ofNat 5 b))
    | _ => none

/-- MX.ZERO (R304). -/
def rowMxZero : Row where
  segs := [.sel 5 0, .zero 5, .fld 5, .fld 5, .fld 4]
  build
    | [a, d, p] => some (.mxZero (.ofNat 4 p) (.ofNat 5 d) (.ofNat 5 a))
    | _ => none

/-- MX.DRAIN (R305). -/
def rowMxDrain : Row where
  segs := [.fld 1, .sel 4 0, .fld 5, .fld 5, .fld 5, .fld 4]
  build
    | [s, b, a, d, p] => some (.mxDrain (.ofNat 4 p) (.ofNat 5 d) (.ofNat 5 a) (.ofNat 5 b) (.ofNat 1 s))
    | _ => none

/-- MX.DRAIN.msg (R305). -/
def rowMxDrainMsg : Row where
  segs := [.fld 1, .sel 4 1, .fld 5, .fld 5, .fld 5, .fld 4]
  build
    | [s, b, a, d, p] => some (.mxDrainMsg (.ofNat 4 p) (.ofNat 5 d) (.ofNat 5 a) (.ofNat 5 b) (.ofNat 1 s))
    | _ => none

/-- MX.RAW.cell (R306). -/
def rowMxRawCell : Row where
  segs := [.sel 5 0, .zero 5, .fld 5, .fld 5, .fld 4]
  build
    | [a, d, p] => some (.mxRawCell (.ofNat 4 p) (.ofNat 5 d) (.ofNat 5 a))
    | _ => none

/-- MX.RAW.stat (R306). -/
def rowMxRawStat : Row where
  segs := [.sel 5 1, .zero 10, .fld 5, .fld 4]
  build
    | [d, p] => some (.mxRawStat (.ofNat 4 p) (.ofNat 5 d))
    | _ => none

/-- MX.SORT (R307). -/
def rowMxSort : Row where
  segs := [.fld 3, .sel 2 0, .fld 5, .fld 5, .fld 5, .fld 4]
  build
    | [s, b, a, d, p] => some (.mxSort (.ofNat 4 p) (.ofNat 5 d) (.ofNat 5 a) (.ofNat 5 b) (.ofNat 3 s))
    | _ => none

/-- STRM.GO (R353). -/
def rowStrmGo : Row where
  segs := [.fld 1, .zero 4, .fld 5, .fld 5, .fld 5, .fld 4]
  build
    | [s, b, a, d, p] => some (.strmGo (.ofNat 4 p) (.ofNat 5 d) (.ofNat 5 a) (.ofNat 5 b) (.ofNat 1 s))
    | _ => none

/-- STRM.EXT (R354). -/
def rowStrmExt : Row where
  segs := [.zero 5, .fld 5, .fld 5, .fld 5, .fld 4]
  build
    | [b, a, d, p] => some (.strmExt (.ofNat 4 p) (.ofNat 5 d) (.ofNat 5 a) (.ofNat 5 b))
    | _ => none

/-- STRM.STOP (R354). -/
def rowStrmStop : Row where
  segs := [.zero 10, .fld 5, .fld 5, .fld 4]
  build
    | [a, d, p] => some (.strmStop (.ofNat 4 p) (.ofNat 5 d) (.ofNat 5 a))
    | _ => none

/-- COL.RED (R355). -/
def rowColRed : Row where
  segs := [.zero 5, .fld 5, .fld 5, .fld 5, .fld 4]
  build
    | [b, a, d, p] => some (.colRed (.ofNat 4 p) (.ofNat 5 d) (.ofNat 5 a) (.ofNat 5 b))
    | _ => none

/-- COL.BC (R355). -/
def rowColBc : Row where
  segs := [.zero 5, .fld 5, .fld 5, .fld 5, .fld 4]
  build
    | [b, a, d, p] => some (.colBc (.ofNat 4 p) (.ofNat 5 d) (.ofNat 5 a) (.ofNat 5 b))
    | _ => none

/-- VADD (R261). -/
def rowVadd : Row where
  segs := [.zero 5, .fld 3, .fld 4, .fld 4, .fld 4, .fld 4]
  build
    | [t, b, a, d, p] => some (.vadd (.ofNat 4 p) (.ofNat 4 d) (.ofNat 4 a) (.ofNat 4 b) (.ofNat 3 t))
    | _ => none

/-- VSUB (R261). -/
def rowVsub : Row where
  segs := [.zero 5, .fld 3, .fld 4, .fld 4, .fld 4, .fld 4]
  build
    | [t, b, a, d, p] => some (.vsub (.ofNat 4 p) (.ofNat 4 d) (.ofNat 4 a) (.ofNat 4 b) (.ofNat 3 t))
    | _ => none

/-- VMUL (R261). -/
def rowVmul : Row where
  segs := [.zero 5, .fld 3, .fld 4, .fld 4, .fld 4, .fld 4]
  build
    | [t, b, a, d, p] => some (.vmul (.ofNat 4 p) (.ofNat 4 d) (.ofNat 4 a) (.ofNat 4 b) (.ofNat 3 t))
    | _ => none

/-- VFMA (R261). -/
def rowVfma : Row where
  segs := [.zero 5, .fld 3, .fld 4, .fld 4, .fld 4, .fld 4]
  build
    | [t, b, a, d, p] => some (.vfma (.ofNat 4 p) (.ofNat 4 d) (.ofNat 4 a) (.ofNat 4 b) (.ofNat 3 t))
    | _ => none

/-- VFMS (R261). -/
def rowVfms : Row where
  segs := [.zero 5, .fld 3, .fld 4, .fld 4, .fld 4, .fld 4]
  build
    | [t, b, a, d, p] => some (.vfms (.ofNat 4 p) (.ofNat 4 d) (.ofNat 4 a) (.ofNat 4 b) (.ofNat 3 t))
    | _ => none

/-- VMIN (R262). -/
def rowVmin : Row where
  segs := [.zero 5, .fld 3, .fld 4, .fld 4, .fld 4, .fld 4]
  build
    | [t, b, a, d, p] => some (.vmin (.ofNat 4 p) (.ofNat 4 d) (.ofNat 4 a) (.ofNat 4 b) (.ofNat 3 t))
    | _ => none

/-- VMAX (R262). -/
def rowVmax : Row where
  segs := [.zero 5, .fld 3, .fld 4, .fld 4, .fld 4, .fld 4]
  build
    | [t, b, a, d, p] => some (.vmax (.ofNat 4 p) (.ofNat 4 d) (.ofNat 4 a) (.ofNat 4 b) (.ofNat 3 t))
    | _ => none

/-- VABS (R261). -/
def rowVabs : Row where
  segs := [.zero 5, .fld 3, .zero 4, .fld 4, .fld 4, .fld 4]
  build
    | [t, a, d, p] => some (.vabs (.ofNat 4 p) (.ofNat 4 d) (.ofNat 4 a) (.ofNat 3 t))
    | _ => none

/-- VNEG (R261). -/
def rowVneg : Row where
  segs := [.zero 5, .fld 3, .zero 4, .fld 4, .fld 4, .fld 4]
  build
    | [t, a, d, p] => some (.vneg (.ofNat 4 p) (.ofNat 4 d) (.ofNat 4 a) (.ofNat 3 t))
    | _ => none

/-- VCMP (R263). -/
def rowVcmp : Row where
  segs := [.fld 5, .fld 3, .fld 4, .fld 4, .fld 3, .zero 1, .fld 4]
  build
    | [s, t, b, a, d, p] => some (.vcmp (.ofNat 4 p) (.ofNat 3 d) (.ofNat 4 a) (.ofNat 4 b) (.ofNat 3 t) (.ofNat 5 s))
    | _ => none

/-- VSEL (R264). -/
def rowVsel : Row where
  segs := [.fld 3, .zero 2, .sel 3 0, .fld 4, .fld 4, .fld 4, .fld 4]
  build
    | [s, b, a, d, p] => some (.vsel (.ofNat 4 p) (.ofNat 4 d) (.ofNat 4 a) (.ofNat 4 b) (.ofNat 3 s))
    | _ => none

/-- VCVT (R266). -/
def rowVcvt : Row where
  segs := [.fld 5, .fld 3, .fld 4, .fld 4, .fld 4, .fld 4]
  build
    | [s, t, b, a, d, p] => some (.vcvt (.ofNat 4 p) (.ofNat 4 d) (.ofNat 4 a) (.ofNat 4 b) (.ofNat 3 t) (.ofNat 5 s))
    | _ => none

/-- VPACKB (R268). -/
def rowVpackb : Row where
  segs := [.fld 5, .sel 3 7, .zero 4, .fld 4, .fld 4, .fld 4]
  build
    | [s, a, d, p] => some (.vpackb (.ofNat 4 p) (.ofNat 4 d) (.ofNat 4 a) (.ofNat 5 s))
    | _ => none

/-- VUNPACKB (R269). -/
def rowVunpackb : Row where
  segs := [.fld 5, .sel 3 7, .zero 4, .fld 4, .fld 4, .fld 4]
  build
    | [s, a, d, p] => some (.vunpackb (.ofNat 4 p) (.ofNat 4 d) (.ofNat 4 a) (.ofNat 5 s))
    | _ => none

/-- VRCPA (R277). -/
def rowVrcpa : Row where
  segs := [.zero 5, .sel 3 0, .zero 4, .fld 4, .fld 4, .fld 4]
  build
    | [a, d, p] => some (.vrcpa (.ofNat 4 p) (.ofNat 4 d) (.ofNat 4 a))
    | _ => none

/-- VRSQA (R278). -/
def rowVrsqa : Row where
  segs := [.zero 5, .sel 3 0, .zero 4, .fld 4, .fld 4, .fld 4]
  build
    | [a, d, p] => some (.vrsqa (.ofNat 4 p) (.ofNat 4 d) (.ofNat 4 a))
    | _ => none

/-- VEXP2A (R279). -/
def rowVexp2a : Row where
  segs := [.zero 5, .sel 3 0, .zero 4, .fld 4, .fld 4, .fld 4]
  build
    | [a, d, p] => some (.vexp2a (.ofNat 4 p) (.ofNat 4 d) (.ofNat 4 a))
    | _ => none

/-- VLOG2A (R280). -/
def rowVlog2a : Row where
  segs := [.zero 5, .sel 3 0, .zero 4, .fld 4, .fld 4, .fld 4]
  build
    | [a, d, p] => some (.vlog2a (.ofNat 4 p) (.ofNat 4 d) (.ofNat 4 a))
    | _ => none

/-- VSQRT (R261). -/
def rowVsqrt : Row where
  segs := [.zero 5, .fld 3, .zero 4, .fld 4, .fld 4, .fld 4]
  build
    | [t, a, d, p] => some (.vsqrt (.ofNat 4 p) (.ofNat 4 d) (.ofNat 4 a) (.ofNat 3 t))
    | _ => none

/-- VRED (R270). -/
def rowVred : Row where
  segs := [.fld 2, .zero 3, .fld 3, .zero 4, .fld 4, .fld 4, .fld 4]
  build
    | [s, t, a, d, p] => some (.vred (.ofNat 4 p) (.ofNat 4 d) (.ofNat 4 a) (.ofNat 3 t) (.ofNat 2 s))
    | _ => none

/-- VPERM (R271). -/
def rowVperm : Row where
  segs := [.zero 5, .sel 3 0, .fld 4, .fld 4, .fld 4, .fld 4]
  build
    | [b, a, d, p] => some (.vperm (.ofNat 4 p) (.ofNat 4 d) (.ofNat 4 a) (.ofNat 4 b))
    | _ => none

/-- VBCAST (R271). -/
def rowVbcast : Row where
  segs := [.fld 5, .sel 3 0, .zero 4, .fld 4, .fld 4, .fld 4]
  build
    | [s, a, d, p] => some (.vbcast (.ofNat 4 p) (.ofNat 4 d) (.ofNat 4 a) (.ofNat 5 s))
    | _ => none

/-- VIDX (R271). -/
def rowVidx : Row where
  segs := [.fld 5, .sel 3 0, .fld 4, .zero 4, .fld 4, .fld 4]
  build
    | [s, b, d, p] => some (.vidx (.ofNat 4 p) (.ofNat 4 d) (.ofNat 4 b) (.ofNat 5 s))
    | _ => none

/-- VCOMPACT (R272). -/
def rowVcompact : Row where
  segs := [.zero 5, .sel 3 0, .zero 4, .fld 4, .fld 4, .fld 4]
  build
    | [a, d, p] => some (.vcompact (.ofNat 4 p) (.ofNat 4 d) (.ofNat 4 a))
    | _ => none

/-- VEXPAND (R272). -/
def rowVexpand : Row where
  segs := [.zero 5, .sel 3 0, .zero 4, .fld 4, .fld 4, .fld 4]
  build
    | [a, d, p] => some (.vexpand (.ofNat 4 p) (.ofNat 4 d) (.ofNat 4 a))
    | _ => none

/-- VAND (R265). -/
def rowVand : Row where
  segs := [.zero 5, .sel 3 0, .fld 4, .fld 4, .fld 4, .fld 4]
  build
    | [b, a, d, p] => some (.vand (.ofNat 4 p) (.ofNat 4 d) (.ofNat 4 a) (.ofNat 4 b))
    | _ => none

/-- VOR (R265). -/
def rowVor : Row where
  segs := [.zero 5, .sel 3 0, .fld 4, .fld 4, .fld 4, .fld 4]
  build
    | [b, a, d, p] => some (.vor (.ofNat 4 p) (.ofNat 4 d) (.ofNat 4 a) (.ofNat 4 b))
    | _ => none

/-- VXOR (R265). -/
def rowVxor : Row where
  segs := [.zero 5, .sel 3 0, .fld 4, .fld 4, .fld 4, .fld 4]
  build
    | [b, a, d, p] => some (.vxor (.ofNat 4 p) (.ofNat 4 d) (.ofNat 4 a) (.ofNat 4 b))
    | _ => none

/-- VSHL (R265). -/
def rowVshl : Row where
  segs := [.fld 5, .fld 3, .fld 4, .fld 4, .fld 4, .fld 4]
  build
    | [s, t, b, a, d, p] => some (.vshl (.ofNat 4 p) (.ofNat 4 d) (.ofNat 4 a) (.ofNat 4 b) (.ofNat 3 t) (.ofNat 5 s))
    | _ => none

/-- VSHR (R265). -/
def rowVshr : Row where
  segs := [.fld 5, .fld 3, .fld 4, .fld 4, .fld 4, .fld 4]
  build
    | [s, t, b, a, d, p] => some (.vshr (.ofNat 4 p) (.ofNat 4 d) (.ofNat 4 a) (.ofNat 4 b) (.ofNat 3 t) (.ofNat 5 s))
    | _ => none

/-- VIADD (R265). -/
def rowViadd : Row where
  segs := [.fld 2, .zero 3, .fld 3, .fld 4, .fld 4, .fld 4, .fld 4]
  build
    | [s, t, b, a, d, p] => some (.viadd (.ofNat 4 p) (.ofNat 4 d) (.ofNat 4 a) (.ofNat 4 b) (.ofNat 3 t) (.ofNat 2 s))
    | _ => none

/-- VIMUL (R265). -/
def rowVimul : Row where
  segs := [.fld 1, .zero 4, .fld 3, .fld 4, .fld 4, .fld 4, .fld 4]
  build
    | [s, t, b, a, d, p] => some (.vimul (.ofNat 4 p) (.ofNat 4 d) (.ofNat 4 a) (.ofNat 4 b) (.ofNat 3 t) (.ofNat 1 s))
    | _ => none

/-- VMOVG (R273). -/
def rowVmovg : Row where
  segs := [.fld 5, .fld 3, .sel 4 0, .fld 4, .zero 4, .fld 4]
  build
    | [s, t, a, p] => some (.vmovg (.ofNat 4 p) (.ofNat 4 a) (.ofNat 3 t) (.ofNat 5 s))
    | _ => none

/-- VMOVG.q (R273). -/
def rowVmovgQ : Row where
  segs := [.fld 5, .sel 3 0, .sel 4 1, .fld 3, .zero 5, .fld 4]
  build
    | [s, a, p] => some (.vmovgQ (.ofNat 4 p) (.ofNat 3 a) (.ofNat 5 s))
    | _ => none

/-- VMOVL (R273). -/
def rowVmovl : Row where
  segs := [.fld 5, .sel 3 0, .sel 4 0, .zero 4, .fld 4, .fld 4]
  build
    | [s, d, p] => some (.vmovl (.ofNat 4 p) (.ofNat 4 d) (.ofNat 5 s))
    | _ => none

/-- VMOVL.q (R273). -/
def rowVmovlQ : Row where
  segs := [.fld 5, .sel 3 0, .sel 4 1, .zero 4, .fld 3, .zero 1, .fld 4]
  build
    | [s, d, p] => some (.vmovlQ (.ofNat 4 p) (.ofNat 3 d) (.ofNat 5 s))
    | _ => none

/-- VLDM (R274). -/
def rowVldm : Row where
  segs := [.zero 5, .sel 3 0, .fld 4, .fld 4, .fld 4, .fld 4]
  build
    | [b, a, d, p] => some (.vldm (.ofNat 4 p) (.ofNat 4 d) (.ofNat 4 a) (.ofNat 4 b))
    | _ => none

/-- VSTM (R275). -/
def rowVstm : Row where
  segs := [.fld 5, .sel 3 0, .zero 4, .fld 4, .zero 4, .fld 4]
  build
    | [s, a, p] => some (.vstm (.ofNat 4 p) (.ofNat 4 a) (.ofNat 5 s))
    | _ => none

/-- QAND (R276). -/
def rowQand : Row where
  segs := [.zero 5, .sel 3 0, .fld 3, .zero 1, .fld 3, .zero 1, .fld 3, .zero 1, .fld 4]
  build
    | [b, a, d, p] => some (.qand (.ofNat 4 p) (.ofNat 3 d) (.ofNat 3 a) (.ofNat 3 b))
    | _ => none

/-- QOR (R276). -/
def rowQor : Row where
  segs := [.zero 5, .sel 3 0, .fld 3, .zero 1, .fld 3, .zero 1, .fld 3, .zero 1, .fld 4]
  build
    | [b, a, d, p] => some (.qor (.ofNat 4 p) (.ofNat 3 d) (.ofNat 3 a) (.ofNat 3 b))
    | _ => none

/-- QNOT (R276). -/
def rowQnot : Row where
  segs := [.zero 5, .sel 3 0, .zero 4, .fld 3, .zero 1, .fld 3, .zero 1, .fld 4]
  build
    | [a, d, p] => some (.qnot (.ofNat 4 p) (.ofNat 3 d) (.ofNat 3 a))
    | _ => none

/-- QPOPC (R276). -/
def rowQpopc : Row where
  segs := [.fld 5, .sel 3 0, .zero 4, .fld 3, .zero 5, .fld 4]
  build
    | [s, a, p] => some (.qpopc (.ofNat 4 p) (.ofNat 3 a) (.ofNat 5 s))
    | _ => none

/-- LAT.PATCH (R349). -/
def rowLatPatch : Row where
  segs := [.sel 5 0, .zero 5, .fld 5, .zero 5, .fld 4]
  build
    | [a, p] => some (.latPatch (.ofNat 4 p) (.ofNat 5 a))
    | _ => none

/-- LAT.SET (R343). -/
def rowLatSet : Row where
  segs := [.fld 5, .fld 5, .fld 5, .zero 5, .fld 4]
  build
    | [s, b, a, p] => some (.latSet (.ofNat 4 p) (.ofNat 5 a) (.ofNat 5 b) (.ofNat 5 s))
    | _ => none

/-- LAT.GET (R343). -/
def rowLatGet : Row where
  segs := [.fld 5, .zero 5, .fld 5, .fld 5, .fld 4]
  build
    | [s, a, d, p] => some (.latGet (.ofNat 4 p) (.ofNat 5 d) (.ofNat 5 a) (.ofNat 5 s))
    | _ => none

/-- LAT.RDV (R343). -/
def rowLatRdv : Row where
  segs := [.fld 5, .zero 5, .fld 5, .fld 4, .zero 1, .fld 4]
  build
    | [s, a, d, p] => some (.latRdv (.ofNat 4 p) (.ofNat 4 d) (.ofNat 5 a) (.ofNat 5 s))
    | _ => none

/-- LAT.INJ (R344). -/
def rowLatInj : Row where
  segs := [.sel 5 0, .fld 5, .fld 5, .zero 5, .fld 4]
  build
    | [b, a, p] => some (.latInj (.ofNat 4 p) (.ofNat 5 a) (.ofNat 5 b))
    | _ => none

/-- LAT.STEP (R345). -/
def rowLatStep : Row where
  segs := [.sel 5 0, .fld 5, .fld 5, .zero 5, .fld 4]
  build
    | [b, a, p] => some (.latStep (.ofNat 4 p) (.ofNat 5 a) (.ofNat 5 b))
    | _ => none

/-- LAT.CLK (R346). -/
def rowLatClk : Row where
  segs := [.sel 5 0, .fld 5, .fld 5, .zero 5, .fld 4]
  build
    | [b, a, p] => some (.latClk (.ofNat 4 p) (.ofNat 5 a) (.ofNat 5 b))
    | _ => none

/-- LAT.RUN (R346). -/
def rowLatRun : Row where
  segs := [.sel 5 0, .zero 5, .fld 5, .zero 5, .fld 4]
  build
    | [a, p] => some (.latRun (.ofNat 4 p) (.ofNat 5 a))
    | _ => none

/-- LAT.STOP (R346). -/
def rowLatStop : Row where
  segs := [.sel 5 0, .zero 5, .fld 5, .zero 5, .fld 4]
  build
    | [a, p] => some (.latStop (.ofNat 4 p) (.ofNat 5 a))
    | _ => none

/-- LAT.SAVE (R349). -/
def rowLatSave : Row where
  segs := [.sel 5 0, .zero 5, .fld 5, .zero 5, .fld 4]
  build
    | [a, p] => some (.latSave (.ofNat 4 p) (.ofNat 5 a))
    | _ => none

/-- LAT.REST (R349). -/
def rowLatRest : Row where
  segs := [.sel 5 0, .zero 5, .fld 5, .zero 5, .fld 4]
  build
    | [a, p] => some (.latRest (.ofNat 4 p) (.ofNat 5 a))
    | _ => none

/-- LAT.STAT (R347). -/
def rowLatStat : Row where
  segs := [.sel 5 0, .zero 10, .fld 5, .fld 4]
  build
    | [d, p] => some (.latStat (.ofNat 4 p) (.ofNat 5 d))
    | _ => none

/-- LAT.STAT.clr (R347). -/
def rowLatStatClr : Row where
  segs := [.sel 5 1, .zero 10, .fld 5, .fld 4]
  build
    | [d, p] => some (.latStatClr (.ofNat 4 p) (.ofNat 5 d))
    | _ => none

/-- MFS (R356). -/
def rowMfs : Row where
  segs := [.fld 10, .zero 5, .fld 5, .fld 4]
  build
    | [i, d, p] => some (.mfs (.ofNat 4 p) (.ofNat 5 d) (.ofNat 10 i))
    | _ => none

/-- MTS (R356). -/
def rowMts : Row where
  segs := [.fld 10, .fld 5, .zero 5, .fld 4]
  build
    | [i, a, p] => some (.mts (.ofNat 4 p) (.ofNat 5 a) (.ofNat 10 i))
    | _ => none

/-- TRESUME (R359). -/
def rowTresume : Row where
  segs := [.zero 10, .fld 5, .fld 5, .fld 4]
  build
    | [a, d, p] => some (.tresume (.ofNat 4 p) (.ofNat 5 d) (.ofNat 5 a))
    | _ => none

/-- TKILL (R359). -/
def rowTkill : Row where
  segs := [.zero 10, .fld 5, .fld 5, .fld 4]
  build
    | [a, d, p] => some (.tkill (.ofNat 4 p) (.ofNat 5 d) (.ofNat 5 a))
    | _ => none

/-- TRETRY (R359). -/
def rowTretry : Row where
  segs := [.zero 5, .fld 5, .fld 5, .fld 5, .fld 4]
  build
    | [b, a, d, p] => some (.tretry (.ofNat 4 p) (.ofNat 5 d) (.ofNat 5 a) (.ofNat 5 b))
    | _ => none

/-- TLBI (R360). -/
def rowTlbi : Row where
  segs := [.fld 2, .zero 3, .fld 5, .fld 5, .fld 5, .fld 4]
  build
    | [s, b, a, d, p] => some (.tlbi (.ofNat 4 p) (.ofNat 5 d) (.ofNat 5 a) (.ofNat 5 b) (.ofNat 2 s))
    | _ => none

/-- TLBP (R361). -/
def rowTlbp : Row where
  segs := [.fld 1, .zero 9, .fld 5, .fld 5, .fld 4]
  build
    | [s, a, d, p] => some (.tlbp (.ofNat 4 p) (.ofNat 5 d) (.ofNat 5 a) (.ofNat 1 s))
    | _ => none

/-- SEAL.OPEN (R362). -/
def rowSealOpen : Row where
  segs := [.zero 10, .fld 5, .fld 5, .fld 4]
  build
    | [a, d, p] => some (.sealOpen (.ofNat 4 p) (.ofNat 5 d) (.ofNat 5 a))
    | _ => none

/-- SEAL.FRAME (R363). -/
def rowSealFrame : Row where
  segs := [.zero 5, .fld 5, .fld 5, .fld 5, .fld 4]
  build
    | [b, a, d, p] => some (.sealFrame (.ofNat 4 p) (.ofNat 5 d) (.ofNat 5 a) (.ofNat 5 b))
    | _ => none

/-- SEAL.CLOSE (R363). -/
def rowSealClose : Row where
  segs := [.zero 10, .fld 5, .fld 5, .fld 4]
  build
    | [a, d, p] => some (.sealClose (.ofNat 4 p) (.ofNat 5 d) (.ofNat 5 a))
    | _ => none

/-- TRC.MARK (R364). -/
def rowTrcMark : Row where
  segs := [.fld 10, .fld 5, .zero 5, .fld 4]
  build
    | [i, a, p] => some (.trcMark (.ofNat 4 p) (.ofNat 5 a) (.ofNat 10 i))
    | _ => none

/-- TRC.CTL (R364). -/
def rowTrcCtl : Row where
  segs := [.zero 10, .fld 5, .fld 5, .fld 4]
  build
    | [a, d, p] => some (.trcCtl (.ofNat 4 p) (.ofNat 5 d) (.ofNat 5 a))
    | _ => none

/-- WATCH (R365). -/
def rowWatch : Row where
  segs := [.fld 2, .zero 3, .fld 5, .fld 5, .zero 5, .fld 4]
  build
    | [s, b, a, p] => some (.watch (.ofNat 4 p) (.ofNat 5 a) (.ofNat 5 b) (.ofNat 2 s))
    | _ => none

/-- PERF.RD (R366). -/
def rowPerfRd : Row where
  segs := [.fld 10, .zero 5, .fld 5, .fld 4]
  build
    | [i, d, p] => some (.perfRd (.ofNat 4 p) (.ofNat 5 d) (.ofNat 10 i))
    | _ => none

/-- CFG.LD (R324). -/
def rowCfgLd : Row where
  segs := [.fld 2, .zero 8, .fld 5, .zero 5, .fld 4]
  build
    | [s, a, p] => some (.cfgLd (.ofNat 4 p) (.ofNat 5 a) (.ofNat 2 s))
    | _ => none

/-- CFG.INV (R325). -/
def rowCfgInv : Row where
  segs := [.fld 2, .zero 1, .sel 2 0, .zero 15, .fld 4]
  build
    | [s, p] => some (.cfgInv (.ofNat 4 p) (.ofNat 2 s))
    | _ => none

/-- CFG.INV.all (R325). -/
def rowCfgInvAll : Row where
  segs := [.zero 3, .sel 2 1, .zero 15, .fld 4]
  build
    | [p] => some (.cfgInvAll (.ofNat 4 p))
    | _ => none

/-- CFG.INV.cb (R325). -/
def rowCfgInvCb : Row where
  segs := [.zero 3, .sel 2 2, .zero 15, .fld 4]
  build
    | [p] => some (.cfgInvCb (.ofNat 4 p))
    | _ => none

/-- CFG.BIND (R325). -/
def rowCfgBind : Row where
  segs := [.fld 2, .sel 1 0, .zero 12, .fld 4, .zero 1, .fld 4]
  build
    | [s, d, p] => some (.cfgBind (.ofNat 4 p) (.ofNat 4 d) (.ofNat 2 s))
    | _ => none

/-- CFG.BIND.u (R325). -/
def rowCfgBindU : Row where
  segs := [.zero 2, .sel 1 1, .zero 12, .fld 4, .zero 1, .fld 4]
  build
    | [d, p] => some (.cfgBindU (.ofNat 4 p) (.ofNat 4 d))
    | _ => none

/-- CFG.Q.res (R326). -/
def rowCfgQRes : Row where
  segs := [.sel 5 0, .zero 10, .fld 5, .fld 4]
  build
    | [d, p] => some (.cfgQRes (.ofNat 4 p) (.ofNat 5 d))
    | _ => none

/-- CFG.Q.id (R326). -/
def rowCfgQId : Row where
  segs := [.sel 5 1, .zero 5, .fld 5, .fld 5, .fld 4]
  build
    | [a, d, p] => some (.cfgQId (.ofNat 4 p) (.ofNat 5 d) (.ofNat 5 a))
    | _ => none

/-- CFG.Q.rot (R326). -/
def rowCfgQRot : Row where
  segs := [.sel 5 2, .zero 5, .fld 5, .fld 5, .fld 4]
  build
    | [a, d, p] => some (.cfgQRot (.ofNat 4 p) (.ofNat 5 d) (.ofNat 5 a))
    | _ => none

/-- CFG.Q.tag (R326). -/
def rowCfgQTag : Row where
  segs := [.sel 5 3, .zero 5, .fld 5, .fld 5, .fld 4]
  build
    | [a, d, p] => some (.cfgQTag (.ofNat 4 p) (.ofNat 5 d) (.ofNat 5 a))
    | _ => none

/-- CFG.SAVE (R327). -/
def rowCfgSave : Row where
  segs := [.zero 10, .fld 5, .zero 5, .fld 4]
  build
    | [a, p] => some (.cfgSave (.ofNat 4 p) (.ofNat 5 a))
    | _ => none

/-- CFG.REST (R327). -/
def rowCfgRest : Row where
  segs := [.zero 10, .fld 5, .zero 5, .fld 4]
  build
    | [a, p] => some (.cfgRest (.ofNat 4 p) (.ofNat 5 a))
    | _ => none

/-- Xn, with n in bits [27:24] (R314, R322). -/
def rowXn (n : Nat) : Row where
  segs := [.fld 4, .zero 1, .fld 4, .zero 1, .fld 4, .zero 1, .fld 4, .zero 1, .fld 4]
  build
    | [c, b, a, d, p] => some (.xn (.ofNat 4 n) (.ofNat 4 p) (.ofNat 4 d) (.ofNat 4 a) (.ofNat 4 b) (.ofNat 4 c))
    | _ => none

/-- The forms of opcodes 0x00 to 0x0F, by low nibble (Table 8-7). -/
def rows0 : Nat → List Row
  | 0 => [rowNop]
  | 1 => [rowExit]
  | 2 => [rowCall]
  | 3 => [rowRet]
  | 4 => [rowLoop]
  | 5 => [rowDone]
  | 6 => [rowCommit]
  | 7 => [rowYield]
  | 8 => [rowTrap]
  | 9 => [rowBkpt]
  | 10 => [rowWaitf]
  | 11 => [rowEmpty]
  | 12 => [rowExitr]
  | 13 => [rowCallr]
  | _ => []

/-- The forms of opcodes 0x10 to 0x1F, by low nibble (Table 8-7). -/
def rows1 : Nat → List Row
  | 0 => [rowAdd]
  | 1 => [rowAddi]
  | 2 => [rowSub]
  | 3 => [rowMul]
  | 4 => [rowMuli]
  | 5 => [rowMulh]
  | 6 => [rowMulhn]
  | 7 => [rowDiv]
  | 8 => [rowDivn]
  | 9 => [rowRem]
  | 10 => [rowRemn]
  | 11 => [rowAnd]
  | 12 => [rowAndi]
  | 13 => [rowAndn]
  | 14 => [rowOr]
  | 15 => [rowOri]
  | _ => []

/-- The forms of opcodes 0x20 to 0x2F, by low nibble (Table 8-7). -/
def rows2 : Nat → List Row
  | 0 => [rowXor]
  | 1 => [rowXori]
  | 2 => [rowShl]
  | 3 => [rowShli]
  | 4 => [rowShr]
  | 5 => [rowShri]
  | 6 => [rowSar]
  | 7 => [rowSari]
  | 8 => [rowRot]
  | 9 => [rowMin]
  | 10 => [rowMax]
  | 11 => [rowMinn]
  | 12 => [rowMaxn]
  | 13 => [rowAbs]
  | 14 => [rowClz]
  | 15 => [rowCtz]
  | _ => []

/-- The forms of opcodes 0x30 to 0x3F, by low nibble (Table 8-7). -/
def rows3 : Nat → List Row
  | 0 => [rowPopc]
  | 1 => [rowBfx]
  | 2 => [rowBfxs]
  | 3 => [rowBfi]
  | 4 => [rowMov]
  | 5 => [rowMovl]
  | 6 => [rowMovh]
  | 7 => [rowSel]
  | 8 => [rowAddx]
  | 9 => [rowSati]
  | 10 => [rowWkf]
  | 11 => [rowWks]
  | 12 => [rowNode]
  | 13 => [rowMovm]
  | _ => []

/-- The forms of opcodes 0x40 to 0x4F, by low nibble (Table 8-7). -/
def rows4 : Nat → List Row
  | 0 => [rowCmp]
  | 1 => [rowCmpi41]
  | 2 => [rowCmpi42]
  | 3 => [rowCmpi43]
  | 5 => [rowPand]
  | 6 => [rowPor]
  | 7 => [rowPxor]
  | 8 => [rowPnot]
  | 9 => [rowPmov]
  | 10 => [rowGpredPack, rowGpredUnpack, rowGpredNz]
  | _ => []

/-- The forms of opcodes 0x50 to 0x5F, by low nibble (Table 8-7). -/
def rows5 : Nat → List Row
  | 0 => [rowLdN8]
  | 1 => [rowLdN16]
  | 2 => [rowLdN32]
  | 3 => [rowLdN64]
  | 4 => [rowLdsI8]
  | 5 => [rowLdsI16]
  | 6 => [rowLdsI32]
  | 7 => [rowStN8]
  | 8 => [rowStN16]
  | 9 => [rowStN32]
  | 10 => [rowStN64]
  | 11 => [rowLdv]
  | 12 => [rowStv]
  | 13 => [rowLdp, rowStp]
  | 14 => [rowLdx, rowStx]
  | 15 => [rowAmo]
  | _ => []

/-- The forms of opcodes 0x60 to 0x6F, by low nibble (Table 8-7). -/
def rows6 : Nat → List Row
  | 0 => [rowRld]
  | 1 => [rowRst]
  | 2 => [rowRamo]
  | 3 => [rowRcpy]
  | 4 => [rowVld]
  | 5 => [rowVst]
  | 6 => [rowVrecl]
  | 7 => [rowFence]
  | 8 => [rowQfence]
  | _ => []

/-- The forms of opcodes 0x70 to 0x7F, by low nibble (Table 8-7). -/
def rows7 : Nat → List Row
  | 0 => [rowSend]
  | 1 => [rowSendv]
  | 2 => [rowReply, rowReplySt, rowReplyKey]
  | 3 => [rowSpawn]
  | 4 => [rowTinc]
  | 5 => [rowTdec]
  | 6 => [rowTarm]
  | 7 => [rowTrd]
  | 8 => [rowKeya, rowKeyaNb]
  | 9 => [rowKeyf]
  | 10 => [rowWaitany]
  | 11 => [rowWaitall]
  | 12 => [rowFfr]
  | 13 => [rowTrigger]
  | 14 => [rowQpush]
  | 15 => [rowQpop, rowQpopFwd, rowQpopLen]
  | _ => []

/-- The forms of opcodes 0x80 to 0x8F, by low nibble (Table 8-7). -/
def rows8 : Nat → List Row
  | 0 => [rowMxLease]
  | 1 => [rowMxRel]
  | 2 => [rowMxCtx]
  | 3 => [rowMxA]
  | 4 => [rowMxB]
  | 5 => [rowMxRun]
  | 6 => [rowMxZero]
  | 7 => [rowMxDrain, rowMxDrainMsg]
  | 8 => [rowMxRawCell, rowMxRawStat]
  | 9 => [rowMxSort]
  | 10 => [rowStrmGo]
  | 11 => [rowStrmExt]
  | 12 => [rowStrmStop]
  | 13 => [rowColRed]
  | 14 => [rowColBc]
  | _ => []

/-- The forms of opcodes 0x90 to 0x9F, by low nibble (Table 8-7). -/
def rows9 : Nat → List Row
  | 0 => [rowVadd]
  | 1 => [rowVsub]
  | 2 => [rowVmul]
  | 3 => [rowVfma]
  | 4 => [rowVfms]
  | 5 => [rowVmin]
  | 6 => [rowVmax]
  | 7 => [rowVabs]
  | 8 => [rowVneg]
  | 9 => [rowVcmp]
  | 10 => [rowVsel]
  | 11 => [rowVcvt]
  | 12 => [rowVpackb]
  | 13 => [rowVunpackb]
  | 14 => [rowVrcpa]
  | 15 => [rowVrsqa]
  | _ => []

/-- The forms of opcodes 0xA0 to 0xAF, by low nibble (Table 8-7). -/
def rowsA : Nat → List Row
  | 0 => [rowVexp2a]
  | 1 => [rowVlog2a]
  | 2 => [rowVsqrt]
  | 3 => [rowVred]
  | 4 => [rowVperm]
  | 5 => [rowVbcast]
  | 6 => [rowVidx]
  | 7 => [rowVcompact]
  | 8 => [rowVexpand]
  | 9 => [rowVand]
  | 10 => [rowVor]
  | 11 => [rowVxor]
  | 12 => [rowVshl]
  | 13 => [rowVshr]
  | 14 => [rowViadd]
  | 15 => [rowVimul]
  | _ => []

/-- The forms of opcodes 0xB0 to 0xBF, by low nibble (Table 8-7). -/
def rowsB : Nat → List Row
  | 0 => [rowVmovg, rowVmovgQ]
  | 1 => [rowVmovl, rowVmovlQ]
  | 2 => [rowVldm]
  | 3 => [rowVstm]
  | 4 => [rowQand]
  | 5 => [rowQor]
  | 6 => [rowQnot]
  | 7 => [rowQpopc]
  | _ => []

/-- The forms of opcodes 0xC0 to 0xCF, by low nibble (Table 8-7). -/
def rowsC : Nat → List Row
  | 0 => [rowLatPatch]
  | 1 => [rowLatSet]
  | 2 => [rowLatGet]
  | 3 => [rowLatRdv]
  | 4 => [rowLatInj]
  | 5 => [rowLatStep]
  | 6 => [rowLatClk]
  | 7 => [rowLatRun]
  | 8 => [rowLatStop]
  | 9 => [rowLatSave]
  | 10 => [rowLatRest]
  | 11 => [rowLatStat, rowLatStatClr]
  | _ => []

/-- The forms of opcodes 0xD0 to 0xDF, by low nibble (Table 8-7). -/
def rowsD : Nat → List Row
  | 0 => [rowMfs]
  | 1 => [rowMts]
  | 2 => [rowTresume]
  | 3 => [rowTkill]
  | 4 => [rowTretry]
  | 5 => [rowTlbi]
  | 6 => [rowTlbp]
  | 7 => [rowSealOpen]
  | 8 => [rowSealFrame]
  | 9 => [rowSealClose]
  | 10 => [rowTrcMark]
  | 11 => [rowTrcCtl]
  | 12 => [rowWatch]
  | 13 => [rowPerfRd]
  | _ => []

/-- The forms of opcodes 0xE0 to 0xEF, by low nibble (Table 8-7). -/
def rowsE : Nat → List Row
  | 0 => [rowCfgLd]
  | 1 => [rowCfgInv, rowCfgInvAll, rowCfgInvCb]
  | 2 => [rowCfgBind, rowCfgBindU]
  | 3 => [rowCfgQRes, rowCfgQId, rowCfgQRot, rowCfgQTag]
  | 4 => [rowCfgSave]
  | 5 => [rowCfgRest]
  | _ => []

/-- The forms of an opcode; none for an unassigned one (Table 8-7). -/
def rowsOf (op : Nat) : List Row :=
  match op / 16 with
  | 0 => rows0 (op % 16)
  | 1 => rows1 (op % 16)
  | 2 => rows2 (op % 16)
  | 3 => rows3 (op % 16)
  | 4 => rows4 (op % 16)
  | 5 => rows5 (op % 16)
  | 6 => rows6 (op % 16)
  | 7 => rows7 (op % 16)
  | 8 => rows8 (op % 16)
  | 9 => rows9 (op % 16)
  | 10 => rowsA (op % 16)
  | 11 => rowsB (op % 16)
  | 12 => rowsC (op % 16)
  | 13 => rowsD (op % 16)
  | 14 => rowsE (op % 16)
  | 15 => [rowXn (op % 16)]
  | _ => []

/-- The opcode, the form and the field values (lowest first) of an encoded instruction; none for a step that no word encodes. -/
def layout : Instr → Option (Nat × List Seg × List Nat)
  | .nop p => some (0, rowNop.segs, [p.toNat])
  | .exit p e o => some (1, rowExit.segs, [o.toNat, e.toNat, p.toNat])
  | .call p e o => some (2, rowCall.segs, [o.toNat, e.toNat, p.toNat])
  | .ret p e => some (3, rowRet.segs, [e.toNat, p.toNat])
  | .loop p e o => some (4, rowLoop.segs, [o.toNat, e.toNat, p.toNat])
  | .done p => some (5, rowDone.segs, [p.toNat])
  | .commit p => some (6, rowCommit.segs, [p.toNat])
  | .yield p i => some (7, rowYield.segs, [i.toNat, p.toNat])
  | .trap p d i => some (8, rowTrap.segs, [i.toNat, d.toNat, p.toNat])
  | .bkpt p i => some (9, rowBkpt.segs, [i.toNat, p.toNat])
  | .waitf p a s => some (10, rowWaitf.segs, [s.toNat, a.toNat, p.toNat])
  | .empty p d a s => some (11, rowEmpty.segs, [s.toNat, a.toNat, d.toNat, p.toNat])
  | .exitr p e a => some (12, rowExitr.segs, [a.toNat, e.toNat, p.toNat])
  | .callr p e a => some (13, rowCallr.segs, [a.toNat, e.toNat, p.toNat])
  | .add p d a b x y => some (16, rowAdd.segs, [y.toNat, x.toNat, b.toNat, a.toNat, d.toNat, p.toNat])
  | .addi p d a i => some (17, rowAddi.segs, [i.toNat, a.toNat, d.toNat, p.toNat])
  | .sub p d a b x y => some (18, rowSub.segs, [y.toNat, x.toNat, b.toNat, a.toNat, d.toNat, p.toNat])
  | .mul p d a b x y => some (19, rowMul.segs, [y.toNat, x.toNat, b.toNat, a.toNat, d.toNat, p.toNat])
  | .muli p d a i => some (20, rowMuli.segs, [i.toNat, a.toNat, d.toNat, p.toNat])
  | .mulh p d a b x y => some (21, rowMulh.segs, [y.toNat, x.toNat, b.toNat, a.toNat, d.toNat, p.toNat])
  | .mulhn p d a b x y => some (22, rowMulhn.segs, [y.toNat, x.toNat, b.toNat, a.toNat, d.toNat, p.toNat])
  | .div p d a b x y => some (23, rowDiv.segs, [y.toNat, x.toNat, b.toNat, a.toNat, d.toNat, p.toNat])
  | .divn p d a b x y => some (24, rowDivn.segs, [y.toNat, x.toNat, b.toNat, a.toNat, d.toNat, p.toNat])
  | .rem p d a b x y => some (25, rowRem.segs, [y.toNat, x.toNat, b.toNat, a.toNat, d.toNat, p.toNat])
  | .remn p d a b x y => some (26, rowRemn.segs, [y.toNat, x.toNat, b.toNat, a.toNat, d.toNat, p.toNat])
  | .and p d a b x y => some (27, rowAnd.segs, [y.toNat, x.toNat, b.toNat, a.toNat, d.toNat, p.toNat])
  | .andi p d a i => some (28, rowAndi.segs, [i.toNat, a.toNat, d.toNat, p.toNat])
  | .andn p d a b x y => some (29, rowAndn.segs, [y.toNat, x.toNat, b.toNat, a.toNat, d.toNat, p.toNat])
  | .or p d a b x y => some (30, rowOr.segs, [y.toNat, x.toNat, b.toNat, a.toNat, d.toNat, p.toNat])
  | .ori p d a i => some (31, rowOri.segs, [i.toNat, a.toNat, d.toNat, p.toNat])
  | .xor p d a b x y => some (32, rowXor.segs, [y.toNat, x.toNat, b.toNat, a.toNat, d.toNat, p.toNat])
  | .xori p d a i => some (33, rowXori.segs, [i.toNat, a.toNat, d.toNat, p.toNat])
  | .shl p d a b x y => some (34, rowShl.segs, [y.toNat, x.toNat, b.toNat, a.toNat, d.toNat, p.toNat])
  | .shli p d a i => some (35, rowShli.segs, [i.toNat, a.toNat, d.toNat, p.toNat])
  | .shr p d a b x y => some (36, rowShr.segs, [y.toNat, x.toNat, b.toNat, a.toNat, d.toNat, p.toNat])
  | .shri p d a i => some (37, rowShri.segs, [i.toNat, a.toNat, d.toNat, p.toNat])
  | .sar p d a b x y => some (38, rowSar.segs, [y.toNat, x.toNat, b.toNat, a.toNat, d.toNat, p.toNat])
  | .sari p d a i => some (39, rowSari.segs, [i.toNat, a.toNat, d.toNat, p.toNat])
  | .rot p d a b x y => some (40, rowRot.segs, [y.toNat, x.toNat, b.toNat, a.toNat, d.toNat, p.toNat])
  | .min p d a b x y => some (41, rowMin.segs, [y.toNat, x.toNat, b.toNat, a.toNat, d.toNat, p.toNat])
  | .max p d a b x y => some (42, rowMax.segs, [y.toNat, x.toNat, b.toNat, a.toNat, d.toNat, p.toNat])
  | .minn p d a b x y => some (43, rowMinn.segs, [y.toNat, x.toNat, b.toNat, a.toNat, d.toNat, p.toNat])
  | .maxn p d a b x y => some (44, rowMaxn.segs, [y.toNat, x.toNat, b.toNat, a.toNat, d.toNat, p.toNat])
  | .abs p d a x => some (45, rowAbs.segs, [x.toNat, a.toNat, d.toNat, p.toNat])
  | .clz p d a x => some (46, rowClz.segs, [x.toNat, a.toNat, d.toNat, p.toNat])
  | .ctz p d a x => some (47, rowCtz.segs, [x.toNat, a.toNat, d.toNat, p.toNat])
  | .popc p d a x => some (48, rowPopc.segs, [x.toNat, a.toNat, d.toNat, p.toNat])
  | .bfx p d a b x y => some (49, rowBfx.segs, [y.toNat, x.toNat, b.toNat, a.toNat, d.toNat, p.toNat])
  | .bfxs p d a b x y => some (50, rowBfxs.segs, [y.toNat, x.toNat, b.toNat, a.toNat, d.toNat, p.toNat])
  | .bfi p d a b x y => some (51, rowBfi.segs, [y.toNat, x.toNat, b.toNat, a.toNat, d.toNat, p.toNat])
  | .mov p d a x => some (52, rowMov.segs, [x.toNat, a.toNat, d.toNat, p.toNat])
  | .movl p d i => some (53, rowMovl.segs, [i.toNat, d.toNat, p.toNat])
  | .movh p d i => some (54, rowMovh.segs, [i.toNat, d.toNat, p.toNat])
  | .sel p d a b s => some (55, rowSel.segs, [s.toNat, b.toNat, a.toNat, d.toNat, p.toNat])
  | .addx p d a b x y s => some (56, rowAddx.segs, [s.toNat, y.toNat, x.toNat, b.toNat, a.toNat, d.toNat, p.toNat])
  | .sati p d a i => some (57, rowSati.segs, [i.toNat, a.toNat, d.toNat, p.toNat])
  | .wkf p d a i => some (58, rowWkf.segs, [i.toNat, a.toNat, d.toNat, p.toNat])
  | .wks p d a b s => some (59, rowWks.segs, [s.toNat, b.toNat, a.toNat, d.toNat, p.toNat])
  | .node p d a b c => some (60, rowNode.segs, [c.toNat, b.toNat, a.toNat, d.toNat, p.toNat])
  | .movm p d a i => some (61, rowMovm.segs, [i.toNat, a.toNat, d.toNat, p.toNat])
  | .cmp p d a b s => some (64, rowCmp.segs, [s.toNat, b.toNat, a.toNat, d.toNat, p.toNat])
  | .cmpi41 p k d a i => some (65, rowCmpi41.segs, [i.toNat, a.toNat, d.toNat, k.toNat, p.toNat])
  | .cmpi42 p k d a i => some (66, rowCmpi42.segs, [i.toNat, a.toNat, d.toNat, k.toNat, p.toNat])
  | .cmpi43 p k d a i => some (67, rowCmpi43.segs, [i.toNat, a.toNat, d.toNat, k.toNat, p.toNat])
  | .pand p d a b s => some (69, rowPand.segs, [s.toNat, b.toNat, a.toNat, d.toNat, p.toNat])
  | .por p d a b s => some (70, rowPor.segs, [s.toNat, b.toNat, a.toNat, d.toNat, p.toNat])
  | .pxor p d a b s => some (71, rowPxor.segs, [s.toNat, b.toNat, a.toNat, d.toNat, p.toNat])
  | .pnot p d a => some (72, rowPnot.segs, [a.toNat, d.toNat, p.toNat])
  | .pmov p d a => some (73, rowPmov.segs, [a.toNat, d.toNat, p.toNat])
  | .gpredPack p d => some (74, rowGpredPack.segs, [d.toNat, p.toNat])
  | .gpredUnpack p a x => some (74, rowGpredUnpack.segs, [x.toNat, a.toNat, p.toNat])
  | .gpredNz p d a x => some (74, rowGpredNz.segs, [x.toNat, a.toNat, d.toNat, p.toNat])
  | .ldN8 p d b o => some (80, rowLdN8.segs, [o.toNat, b.toNat, d.toNat, p.toNat])
  | .ldN16 p d b o => some (81, rowLdN16.segs, [o.toNat, b.toNat, d.toNat, p.toNat])
  | .ldN32 p d b o => some (82, rowLdN32.segs, [o.toNat, b.toNat, d.toNat, p.toNat])
  | .ldN64 p d b o => some (83, rowLdN64.segs, [o.toNat, b.toNat, d.toNat, p.toNat])
  | .ldsI8 p d b o => some (84, rowLdsI8.segs, [o.toNat, b.toNat, d.toNat, p.toNat])
  | .ldsI16 p d b o => some (85, rowLdsI16.segs, [o.toNat, b.toNat, d.toNat, p.toNat])
  | .ldsI32 p d b o => some (86, rowLdsI32.segs, [o.toNat, b.toNat, d.toNat, p.toNat])
  | .stN8 p d b o => some (87, rowStN8.segs, [o.toNat, b.toNat, d.toNat, p.toNat])
  | .stN16 p d b o => some (88, rowStN16.segs, [o.toNat, b.toNat, d.toNat, p.toNat])
  | .stN32 p d b o => some (89, rowStN32.segs, [o.toNat, b.toNat, d.toNat, p.toNat])
  | .stN64 p d b o => some (90, rowStN64.segs, [o.toNat, b.toNat, d.toNat, p.toNat])
  | .ldv p d b o => some (91, rowLdv.segs, [o.toNat, b.toNat, d.toNat, p.toNat])
  | .stv p d b o => some (92, rowStv.segs, [o.toNat, b.toNat, d.toNat, p.toNat])
  | .ldp p d a b x y => some (93, rowLdp.segs, [y.toNat, x.toNat, b.toNat, a.toNat, d.toNat, p.toNat])
  | .stp p d a b x y => some (93, rowStp.segs, [y.toNat, x.toNat, b.toNat, a.toNat, d.toNat, p.toNat])
  | .ldx p d a b x y => some (94, rowLdx.segs, [y.toNat, x.toNat, b.toNat, a.toNat, d.toNat, p.toNat])
  | .stx p d a b x y => some (94, rowStx.segs, [y.toNat, x.toNat, b.toNat, a.toNat, d.toNat, p.toNat])
  | .amo p d a b s => some (95, rowAmo.segs, [s.toNat, b.toNat, a.toNat, d.toNat, p.toNat])
  | .rld p d a b x y s => some (96, rowRld.segs, [s.toNat, y.toNat, x.toNat, b.toNat, a.toNat, d.toNat, p.toNat])
  | .rst p d a b x y s => some (97, rowRst.segs, [s.toNat, y.toNat, x.toNat, b.toNat, a.toNat, d.toNat, p.toNat])
  | .ramo p d a b s => some (98, rowRamo.segs, [s.toNat, b.toNat, a.toNat, d.toNat, p.toNat])
  | .rcpy p a b c => some (99, rowRcpy.segs, [c.toNat, b.toNat, a.toNat, p.toNat])
  | .vld p d a b x y s => some (100, rowVld.segs, [s.toNat, y.toNat, x.toNat, b.toNat, a.toNat, d.toNat, p.toNat])
  | .vst p a b x y s => some (101, rowVst.segs, [s.toNat, y.toNat, x.toNat, b.toNat, a.toNat, p.toNat])
  | .vrecl p a b x y s => some (102, rowVrecl.segs, [s.toNat, y.toNat, x.toNat, b.toNat, a.toNat, p.toNat])
  | .fence p i => some (103, rowFence.segs, [i.toNat, p.toNat])
  | .qfence p i => some (104, rowQfence.segs, [i.toNat, p.toNat])
  | .send p d a b s => some (112, rowSend.segs, [s.toNat, b.toNat, a.toNat, d.toNat, p.toNat])
  | .sendv p d a b s => some (113, rowSendv.segs, [s.toNat, b.toNat, a.toNat, d.toNat, p.toNat])
  | .reply p a b => some (114, rowReply.segs, [b.toNat, a.toNat, p.toNat])
  | .replySt p a b => some (114, rowReplySt.segs, [b.toNat, a.toNat, p.toNat])
  | .replyKey p a b => some (114, rowReplyKey.segs, [b.toNat, a.toNat, p.toNat])
  | .spawn p d a b s => some (115, rowSpawn.segs, [s.toNat, b.toNat, a.toNat, d.toNat, p.toNat])
  | .tinc p a b => some (116, rowTinc.segs, [b.toNat, a.toNat, p.toNat])
  | .tdec p a b => some (117, rowTdec.segs, [b.toNat, a.toNat, p.toNat])
  | .tarm p a b => some (118, rowTarm.segs, [b.toNat, a.toNat, p.toNat])
  | .trd p d a => some (119, rowTrd.segs, [a.toNat, d.toNat, p.toNat])
  | .keya p d => some (120, rowKeya.segs, [d.toNat, p.toNat])
  | .keyaNb p d s => some (120, rowKeyaNb.segs, [s.toNat, d.toNat, p.toNat])
  | .keyf p a x => some (121, rowKeyf.segs, [x.toNat, a.toNat, p.toNat])
  | .waitany p d a x => some (122, rowWaitany.segs, [x.toNat, a.toNat, d.toNat, p.toNat])
  | .waitall p d a x => some (123, rowWaitall.segs, [x.toNat, a.toNat, d.toNat, p.toNat])
  | .ffr p d a x => some (124, rowFfr.segs, [x.toNat, a.toNat, d.toNat, p.toNat])
  | .trigger p => some (125, rowTrigger.segs, [p.toNat])
  | .qpush p d a b s => some (126, rowQpush.segs, [s.toNat, b.toNat, a.toNat, d.toNat, p.toNat])
  | .qpop p d a b => some (127, rowQpop.segs, [b.toNat, a.toNat, d.toNat, p.toNat])
  | .qpopFwd p d a => some (127, rowQpopFwd.segs, [a.toNat, d.toNat, p.toNat])
  | .qpopLen p d a => some (127, rowQpopLen.segs, [a.toNat, d.toNat, p.toNat])
  | .mxLease p d s => some (128, rowMxLease.segs, [s.toNat, d.toNat, p.toNat])
  | .mxRel p => some (129, rowMxRel.segs, [p.toNat])
  | .mxCtx p a => some (130, rowMxCtx.segs, [a.toNat, p.toNat])
  | .mxA p d a => some (131, rowMxA.segs, [a.toNat, d.toNat, p.toNat])
  | .mxB p d a => some (132, rowMxB.segs, [a.toNat, d.toNat, p.toNat])
  | .mxRun p d a b => some (133, rowMxRun.segs, [b.toNat, a.toNat, d.toNat, p.toNat])
  | .mxZero p d a => some (134, rowMxZero.segs, [a.toNat, d.toNat, p.toNat])
  | .mxDrain p d a b s => some (135, rowMxDrain.segs, [s.toNat, b.toNat, a.toNat, d.toNat, p.toNat])
  | .mxDrainMsg p d a b s => some (135, rowMxDrainMsg.segs, [s.toNat, b.toNat, a.toNat, d.toNat, p.toNat])
  | .mxRawCell p d a => some (136, rowMxRawCell.segs, [a.toNat, d.toNat, p.toNat])
  | .mxRawStat p d => some (136, rowMxRawStat.segs, [d.toNat, p.toNat])
  | .mxSort p d a b s => some (137, rowMxSort.segs, [s.toNat, b.toNat, a.toNat, d.toNat, p.toNat])
  | .strmGo p d a b s => some (138, rowStrmGo.segs, [s.toNat, b.toNat, a.toNat, d.toNat, p.toNat])
  | .strmExt p d a b => some (139, rowStrmExt.segs, [b.toNat, a.toNat, d.toNat, p.toNat])
  | .strmStop p d a => some (140, rowStrmStop.segs, [a.toNat, d.toNat, p.toNat])
  | .colRed p d a b => some (141, rowColRed.segs, [b.toNat, a.toNat, d.toNat, p.toNat])
  | .colBc p d a b => some (142, rowColBc.segs, [b.toNat, a.toNat, d.toNat, p.toNat])
  | .vadd p d a b t => some (144, rowVadd.segs, [t.toNat, b.toNat, a.toNat, d.toNat, p.toNat])
  | .vsub p d a b t => some (145, rowVsub.segs, [t.toNat, b.toNat, a.toNat, d.toNat, p.toNat])
  | .vmul p d a b t => some (146, rowVmul.segs, [t.toNat, b.toNat, a.toNat, d.toNat, p.toNat])
  | .vfma p d a b t => some (147, rowVfma.segs, [t.toNat, b.toNat, a.toNat, d.toNat, p.toNat])
  | .vfms p d a b t => some (148, rowVfms.segs, [t.toNat, b.toNat, a.toNat, d.toNat, p.toNat])
  | .vmin p d a b t => some (149, rowVmin.segs, [t.toNat, b.toNat, a.toNat, d.toNat, p.toNat])
  | .vmax p d a b t => some (150, rowVmax.segs, [t.toNat, b.toNat, a.toNat, d.toNat, p.toNat])
  | .vabs p d a t => some (151, rowVabs.segs, [t.toNat, a.toNat, d.toNat, p.toNat])
  | .vneg p d a t => some (152, rowVneg.segs, [t.toNat, a.toNat, d.toNat, p.toNat])
  | .vcmp p d a b t s => some (153, rowVcmp.segs, [s.toNat, t.toNat, b.toNat, a.toNat, d.toNat, p.toNat])
  | .vsel p d a b s => some (154, rowVsel.segs, [s.toNat, b.toNat, a.toNat, d.toNat, p.toNat])
  | .vcvt p d a b t s => some (155, rowVcvt.segs, [s.toNat, t.toNat, b.toNat, a.toNat, d.toNat, p.toNat])
  | .vpackb p d a s => some (156, rowVpackb.segs, [s.toNat, a.toNat, d.toNat, p.toNat])
  | .vunpackb p d a s => some (157, rowVunpackb.segs, [s.toNat, a.toNat, d.toNat, p.toNat])
  | .vrcpa p d a => some (158, rowVrcpa.segs, [a.toNat, d.toNat, p.toNat])
  | .vrsqa p d a => some (159, rowVrsqa.segs, [a.toNat, d.toNat, p.toNat])
  | .vexp2a p d a => some (160, rowVexp2a.segs, [a.toNat, d.toNat, p.toNat])
  | .vlog2a p d a => some (161, rowVlog2a.segs, [a.toNat, d.toNat, p.toNat])
  | .vsqrt p d a t => some (162, rowVsqrt.segs, [t.toNat, a.toNat, d.toNat, p.toNat])
  | .vred p d a t s => some (163, rowVred.segs, [s.toNat, t.toNat, a.toNat, d.toNat, p.toNat])
  | .vperm p d a b => some (164, rowVperm.segs, [b.toNat, a.toNat, d.toNat, p.toNat])
  | .vbcast p d a s => some (165, rowVbcast.segs, [s.toNat, a.toNat, d.toNat, p.toNat])
  | .vidx p d b s => some (166, rowVidx.segs, [s.toNat, b.toNat, d.toNat, p.toNat])
  | .vcompact p d a => some (167, rowVcompact.segs, [a.toNat, d.toNat, p.toNat])
  | .vexpand p d a => some (168, rowVexpand.segs, [a.toNat, d.toNat, p.toNat])
  | .vand p d a b => some (169, rowVand.segs, [b.toNat, a.toNat, d.toNat, p.toNat])
  | .vor p d a b => some (170, rowVor.segs, [b.toNat, a.toNat, d.toNat, p.toNat])
  | .vxor p d a b => some (171, rowVxor.segs, [b.toNat, a.toNat, d.toNat, p.toNat])
  | .vshl p d a b t s => some (172, rowVshl.segs, [s.toNat, t.toNat, b.toNat, a.toNat, d.toNat, p.toNat])
  | .vshr p d a b t s => some (173, rowVshr.segs, [s.toNat, t.toNat, b.toNat, a.toNat, d.toNat, p.toNat])
  | .viadd p d a b t s => some (174, rowViadd.segs, [s.toNat, t.toNat, b.toNat, a.toNat, d.toNat, p.toNat])
  | .vimul p d a b t s => some (175, rowVimul.segs, [s.toNat, t.toNat, b.toNat, a.toNat, d.toNat, p.toNat])
  | .vmovg p a t s => some (176, rowVmovg.segs, [s.toNat, t.toNat, a.toNat, p.toNat])
  | .vmovgQ p a s => some (176, rowVmovgQ.segs, [s.toNat, a.toNat, p.toNat])
  | .vmovl p d s => some (177, rowVmovl.segs, [s.toNat, d.toNat, p.toNat])
  | .vmovlQ p d s => some (177, rowVmovlQ.segs, [s.toNat, d.toNat, p.toNat])
  | .vldm p d a b => some (178, rowVldm.segs, [b.toNat, a.toNat, d.toNat, p.toNat])
  | .vstm p a s => some (179, rowVstm.segs, [s.toNat, a.toNat, p.toNat])
  | .qand p d a b => some (180, rowQand.segs, [b.toNat, a.toNat, d.toNat, p.toNat])
  | .qor p d a b => some (181, rowQor.segs, [b.toNat, a.toNat, d.toNat, p.toNat])
  | .qnot p d a => some (182, rowQnot.segs, [a.toNat, d.toNat, p.toNat])
  | .qpopc p a s => some (183, rowQpopc.segs, [s.toNat, a.toNat, p.toNat])
  | .latPatch p a => some (192, rowLatPatch.segs, [a.toNat, p.toNat])
  | .latSet p a b s => some (193, rowLatSet.segs, [s.toNat, b.toNat, a.toNat, p.toNat])
  | .latGet p d a s => some (194, rowLatGet.segs, [s.toNat, a.toNat, d.toNat, p.toNat])
  | .latRdv p d a s => some (195, rowLatRdv.segs, [s.toNat, a.toNat, d.toNat, p.toNat])
  | .latInj p a b => some (196, rowLatInj.segs, [b.toNat, a.toNat, p.toNat])
  | .latStep p a b => some (197, rowLatStep.segs, [b.toNat, a.toNat, p.toNat])
  | .latClk p a b => some (198, rowLatClk.segs, [b.toNat, a.toNat, p.toNat])
  | .latRun p a => some (199, rowLatRun.segs, [a.toNat, p.toNat])
  | .latStop p a => some (200, rowLatStop.segs, [a.toNat, p.toNat])
  | .latSave p a => some (201, rowLatSave.segs, [a.toNat, p.toNat])
  | .latRest p a => some (202, rowLatRest.segs, [a.toNat, p.toNat])
  | .latStat p d => some (203, rowLatStat.segs, [d.toNat, p.toNat])
  | .latStatClr p d => some (203, rowLatStatClr.segs, [d.toNat, p.toNat])
  | .mfs p d i => some (208, rowMfs.segs, [i.toNat, d.toNat, p.toNat])
  | .mts p a i => some (209, rowMts.segs, [i.toNat, a.toNat, p.toNat])
  | .tresume p d a => some (210, rowTresume.segs, [a.toNat, d.toNat, p.toNat])
  | .tkill p d a => some (211, rowTkill.segs, [a.toNat, d.toNat, p.toNat])
  | .tretry p d a b => some (212, rowTretry.segs, [b.toNat, a.toNat, d.toNat, p.toNat])
  | .tlbi p d a b s => some (213, rowTlbi.segs, [s.toNat, b.toNat, a.toNat, d.toNat, p.toNat])
  | .tlbp p d a s => some (214, rowTlbp.segs, [s.toNat, a.toNat, d.toNat, p.toNat])
  | .sealOpen p d a => some (215, rowSealOpen.segs, [a.toNat, d.toNat, p.toNat])
  | .sealFrame p d a b => some (216, rowSealFrame.segs, [b.toNat, a.toNat, d.toNat, p.toNat])
  | .sealClose p d a => some (217, rowSealClose.segs, [a.toNat, d.toNat, p.toNat])
  | .trcMark p a i => some (218, rowTrcMark.segs, [i.toNat, a.toNat, p.toNat])
  | .trcCtl p d a => some (219, rowTrcCtl.segs, [a.toNat, d.toNat, p.toNat])
  | .watch p a b s => some (220, rowWatch.segs, [s.toNat, b.toNat, a.toNat, p.toNat])
  | .perfRd p d i => some (221, rowPerfRd.segs, [i.toNat, d.toNat, p.toNat])
  | .cfgLd p a s => some (224, rowCfgLd.segs, [s.toNat, a.toNat, p.toNat])
  | .cfgInv p s => some (225, rowCfgInv.segs, [s.toNat, p.toNat])
  | .cfgInvAll p => some (225, rowCfgInvAll.segs, [p.toNat])
  | .cfgInvCb p => some (225, rowCfgInvCb.segs, [p.toNat])
  | .cfgBind p d s => some (226, rowCfgBind.segs, [s.toNat, d.toNat, p.toNat])
  | .cfgBindU p d => some (226, rowCfgBindU.segs, [d.toNat, p.toNat])
  | .cfgQRes p d => some (227, rowCfgQRes.segs, [d.toNat, p.toNat])
  | .cfgQId p d a => some (227, rowCfgQId.segs, [a.toNat, d.toNat, p.toNat])
  | .cfgQRot p d a => some (227, rowCfgQRot.segs, [a.toNat, d.toNat, p.toNat])
  | .cfgQTag p d a => some (227, rowCfgQTag.segs, [a.toNat, d.toNat, p.toNat])
  | .cfgSave p a => some (228, rowCfgSave.segs, [a.toNat, p.toNat])
  | .cfgRest p a => some (229, rowCfgRest.segs, [a.toNat, p.toNat])
  | .xn n p d a b c => some (240 + n.toNat, (rowXn n.toNat).segs, [c.toNat, b.toNat, a.toNat, d.toNat, p.toNat])
  | .blockEntry .. => none
  | .blockCommit .. => none
  | .parkingFault .. => none
  | .vstReservation .. => none
  | .invocationCommit .. => none
  | .tumblerFire .. => none
  | .departure .. => none
  | .handlerMessageArrival .. => none
  | .matchOverflowMove .. => none
  | .spillRefill .. => none
  | .dispatch .. => none
  | .replySlotFill .. => none
  | .acknowledgement .. => none
  | .keySetReply .. => none
  | .boltArrival .. => none
  | .remoteRead .. => none
  | .remoteWrite .. => none
  | .remoteAtomicAdd .. => none
  | .remoteAtomicAnd .. => none
  | .remoteAtomicOr .. => none
  | .remoteAtomicXor .. => none
  | .remoteAtomicMin .. => none
  | .remoteAtomicMax .. => none
  | .remoteAtomicMinn .. => none
  | .remoteAtomicMaxn .. => none
  | .remoteAtomicSwap .. => none
  | .remoteAtomicCas .. => none
  | .versionedRead .. => none
  | .versionedWrite .. => none
  | .versionRetire .. => none
  | .tumblerIncrement .. => none
  | .tumblerDecrement .. => none
  | .tumblerArm .. => none
  | .tumblerRead .. => none
  | .copy .. => none
  | .copyBeat .. => none
  | .refusedOperation .. => none
  | .go .. => none
  | .ext .. => none
  | .stop .. => none
  | .resume .. => none
  | .pull .. => none
  | .invalidStreamCommand .. => none
  | .streamRequestIssue .. => none
  | .loaderBeatWrite .. => none
  | .storerWrite .. => none
  | .strmGoResend .. => none
  | .pageWalkRead .. => none
  | .tlbiReceive .. => none
  | .tlbiComplete .. => none
  | .push .. => none
  | .pop .. => none
  | .len .. => none
  | .create .. => none
  | .destroy .. => none
  | .invalidQueueCommand .. => none
  | .leaseRequest .. => none
  | .leaseGrant .. => none
  | .leaseIdleTimeout .. => none
  | .arrayCtx .. => none
  | .arrayPanel .. => none
  | .arrayZero .. => none
  | .arrayRun .. => none
  | .arrayDrain .. => none
  | .arrayRaw .. => none
  | .arraySort .. => none
  | .arrayRel .. => none
  | .customOpcodeResult .. => none
  | .latticeInstructionPerform .. => none
  | .latticeClockTick .. => none
  | .budgetExpiry .. => none
  | .yieldIntervalEnd .. => none
  | .systemEntryTake .. => none
  | .transientEvent .. => none
  | .scrub .. => none
  | .placement .. => none
  | .initialMessageRelease .. => none
  | .triggerCount .. => none
  | .endOfJobSweep .. => none
  | .coreSave .. => none
  | .absentQueueReplay .. => none
  | .cmdtailWrite .. => none
  | .injtailWrite .. => none
  | .bar0RegisterWrite .. => none
  | .apertureRead .. => none
  | .apertureWrite .. => none
  | .hostPortReceive .. => none
  | .unmarkedManifestSign .. => none
  | .launch .. => none
  | .preempt .. => none
  | .cancel .. => none
  | .restore .. => none
  | .kill .. => none
  | .unknownHostCommand .. => none
  | .loadfw .. => none
  | .swap .. => none
  | .attest .. => none
  | .serviceFence .. => none
  | .unfence .. => none
  | .recal .. => none
  | .recalSchedule .. => none
  | .health .. => none
  | .traceout .. => none
  | .sealOpenPerform .. => none
  | .sealFramePerform .. => none
  | .sealClosePerform .. => none
  | .collectivePerform .. => none
  | .linkRetry .. => none
  | .skewMeasurement .. => none
  | .replayTimeout .. => none
  | .powerUp .. => none
  | .functionLevelReset .. => none
  | .throttle .. => none
  | .overTemperature .. => none
  | .stackRecalibrationPauseEnd .. => none
  | .systemContextRelease .. => none
  | .diesBelow95c .. => none

end Decode

open Decode in
/-- The instruction that a word holds, or why the word makes its block illegal (R174, R194). -/
def decode (w : BitVec 32) : Except Reject Instr :=
  match rowsOf (w.toNat / 2 ^ 24) with
  | [] => .error .unassigned
  | r :: rs => readRows (r :: rs) (w.toNat % 2 ^ 24)

/-- The little-endian value of a list of bytes (R8). -/
def bytesToNat : List Byte → Nat
  | [] => 0
  | b :: bs => b.toNat + 256 * bytesToNat bs

/-- The `n` lowest bytes of a number, little-endian (R8). -/
def natToBytes : Nat → Nat → List Byte
  | 0, _ => []
  | n + 1, x => BitVec.ofNat 8 x :: natToBytes n (x / 256)

/-- Decoding of bytes: four of them make a word, and fewer hold no instruction (R173). -/
def decodeBytes (bs : List Byte) : Except Reject Instr :=
  if bs.length < 4 then .error .unassigned else decode (BitVec.ofNat 32 (bytesToNat (bs.take 4)))

open Decode in
/-- The word of an encoded instruction; none for a step that no word encodes (R188). -/
def encode (i : Instr) : Option (BitVec 32) :=
  match layout i with
  | some (op, segs, vs) => some (BitVec.ofNat 32 (op * 2 ^ 24 + pack segs vs))
  | none => none

/-- The instruction that the decoder reads from an instruction whose bits the opcode table numbers `w`. -/
def decodeTableWord (nbits w : Nat) : Option Instr :=
  (decodeBytes (natToBytes 4 (w % 2 ^ nbits))).toOption

end Sys2Proof
end

