-- ==== Sys2Proof/Machine/Control.lean ====
section
/-! DEFINITION. Block control, compares and predicates: opcodes 0x00 to 0x0D and 0x40 to 0x4A (R201 to R209, R220 to R222). -/

namespace Sys2Proof.Machine

/-- Header address of the open block. -/
def State.header (s : State) : Nat := s.block.header

/-- The target of EXIT, CALL and LOOP (R202). -/
def State.offTarget (s : State) (o : BitVec 17) : Word := wordOfInt ((s.header : Int) + 4 * o.toInt)

/-- An exit fires; the first in program order is taken (R176). -/
def State.fire (s : State) (e : Exit) (n : Nat) : State :=
  if s.block.taken.isSome then s else s.onBlock (fun b => { b with taken := some e, exit := n })

/-- An exit with a target fires; the target is checked when the exit is taken (R202): canonical form (R24), then alignment (R176). -/
def State.fireTo (s : State) (t : Word) (link : Bool) (n : Nat) : Res State :=
  if s.block.taken.isSome then .ok s
  else if fieldOf t 63 48 ≠ 0 then .error (.trap 0x05 none none)
  else if t.toNat % 4 ≠ 0 then .error (.trap 0x03 none none)
  else .ok (s.fire (.target t link) n)

/-- NOP (R209). -/
def execNop (p : BitVec 4) (s : State) : Out := s.issue p 0x00 [] [] (fun s => .ok s)

/-- EXIT (R202). -/
def execExit (p : BitVec 4) (e : BitVec 3) (o : BitVec 17) (s : State) : Out :=
  s.issue p 0x01 [] [] (fun s => s.fireTo (s.offTarget o) false e.toNat)

/-- CALL, which links at the commit when taken (R202). -/
def execCall (p : BitVec 4) (e : BitVec 3) (o : BitVec 17) (s : State) : Out :=
  s.issue p 0x02 [] [] (fun s => s.fireTo (s.offTarget o) true e.toNat)

/-- RET (R202). -/
def execRet (p : BitVec 4) (e : BitVec 3) (s : State) : Out :=
  s.issue p 0x03 [.g 30 false] [] (fun s => s.fireTo (s.regs.gval 30) false e.toNat)

/-- LOOP (R202). -/
def execLoop (p : BitVec 4) (e : BitVec 3) (o : BitVec 17) (s : State) : Out :=
  s.issue p 0x04 [.g 31 false] [] (fun s =>
    let n := s.regs.gval 31
    if n = 0 then .ok s
    else
      let t := s.setRegs (s.regs.setG 31 (n - 1))
      if n = 1 then .ok t else t.fireTo (s.offTarget o) false e.toNat)

/-- DONE (R204). -/
def execDone (p : BitVec 4) (s : State) : Out := s.issue p 0x05 [] [] (fun s => .ok (s.fire .done 0))

/-- COMMIT (R205). -/
def execCommit (p : BitVec 4) (s : State) : Out :=
  s.issue p 0x06 [] [] (fun s => .ok (s.onBlock (fun b => { b with commit := true })))

/-- YIELD, the largest n of the block standing (R206). -/
def execYield (p : BitVec 4) (i : BitVec 15) (s : State) : Out :=
  s.issue p 0x07 [] [] (fun s => .ok (s.onBlock (fun b => { b with yield := max b.yield i.toNat })))

/-- A TRAP or BKPT of the block; the first in program order acts (R207). -/
def State.softTrap (s : State) (t : SoftTrap) : State :=
  if s.block.trap.isSome then s else s.onBlock (fun b => { b with trap := some t })

/-- TRAP (R207). -/
def execTrap (p : BitVec 4) (d : BitVec 5) (i : BitVec 15) (s : State) : Out :=
  s.issue p 0x08 [gsrc d] [] (fun s => .ok (s.softTrap ⟨0x70, s.regs.gval d.toNat, wordOf i.toNat⟩))

/-- BKPT, which has no effect while the breakpoint enable is clear (R207, R364). -/
def execBkpt (p : BitVec 4) (i : BitVec 15) (s : State) : Out :=
  s.issue p 0x09 [] [] (fun s =>
    if flagOf s.block.traceCtl 1 then .ok (s.softTrap ⟨0x71, 0, wordOf (i.toNat + 2 ^ 15)⟩) else .ok s)

/-- The register that WAITF and EMPTY name by a and bit 0 of s (R208). -/
def namedReg (a : BitVec 5) (t : BitVec 3) : Operand := if bitAt t.toNat 0 then .v a.toNat false else .g a.toNat false

/-- WAITF (R208). -/
def execWaitf (p : BitVec 4) (a : BitVec 5) (t : BitVec 3) (s : State) : Out :=
  s.issue p 0x0A [] [] (fun s =>
    match s.regs.stateOf (namedReg a t) with
    | .empty => .error .waitEmpty
    | .awaitCommit | .awaitBlock => .error (.trap 0x29 none (some (regInfo 0x0A (namedReg a t))))
    | _ => .ok s)

/-- EMPTY and EMPTY.nf (R208). -/
def execEmpty (p : BitVec 4) (d : BitVec 3) (a : BitVec 5) (t : BitVec 3) (s : State) : Out :=
  s.issueP p 0x0B [] d (fun s =>
    let st := s.regs.stateOf (namedReg a t)
    if bitAt t.toNat 1 then st != .full else st.isEmpty)

/-- EXITR (R202). -/
def execExitr (p : BitVec 4) (e : BitVec 3) (a : BitVec 5) (s : State) : Out :=
  s.issue p 0x0C [gsrc a] [] (fun s => s.fireTo (s.regs.gval a.toNat) false e.toNat)

/-- CALLR (R202). -/
def execCallr (p : BitVec 4) (e : BitVec 3) (a : BitVec 5) (s : State) : Out :=
  s.issue p 0x0D [gsrc a] [] (fun s => s.fireTo (s.regs.gval a.toNat) true e.toNat)

/-- The conditions of Table 8-6. -/
def condition (code : Nat) (a b : Word) : Bool :=
  match code with
  | 0 => a == b
  | 1 => a != b
  | 2 => decide (a.toInt < b.toInt)
  | 3 => decide (a.toInt ≤ b.toInt)
  | 4 => decide (b.toInt < a.toInt)
  | 5 => decide (b.toInt ≤ a.toInt)
  | 6 => decide (a.toNat < b.toNat)
  | 7 => decide (a.toNat ≤ b.toNat)
  | 8 => decide (b.toNat < a.toNat)
  | _ => decide (b.toNat ≤ a.toNat)

/-- CMP (R220). -/
def execCmp (p : BitVec 4) (d : BitVec 3) (a b : BitVec 5) (t : BitVec 5) (s : State) : Out :=
  s.issueP p 0x40 [gsrc a, gsrc b] d (fun s => condition t.toNat (s.regs.gval a.toNat) (s.regs.gval b.toNat))

/-- CMPI of a condition code (R191, R220). -/
def State.cmpImm (s : State) (p : BitVec 4) (op code : Nat) (d : BitVec 3) (a : BitVec 5) (i : BitVec 10) : Out :=
  s.issueP p op [gsrc a] d (fun s => condition code (s.regs.gval a.toNat) (wordOfInt i.toInt))

/-- CMPI with codes 0 to 3 (R191). -/
def execCmpi41 (p : BitVec 4) (k : BitVec 2) (d : BitVec 3) (a : BitVec 5) (i : BitVec 10) (s : State) : Out :=
  s.cmpImm p 0x41 k.toNat d a i

/-- CMPI with codes 4 to 7 (R191). -/
def execCmpi42 (p : BitVec 4) (k : BitVec 2) (d : BitVec 3) (a : BitVec 5) (i : BitVec 10) (s : State) : Out :=
  s.cmpImm p 0x42 (4 + k.toNat) d a i

/-- CMPI with codes 8 and 9 (R191). -/
def execCmpi43 (p : BitVec 4) (k : BitVec 1) (d : BitVec 3) (a : BitVec 5) (i : BitVec 10) (s : State) : Out :=
  s.cmpImm p 0x43 (8 + k.toNat) d a i

/-- A predicate source, negated by its bit of s (R221). -/
def Regs.predNeg (r : Regs) (a : BitVec 3) (neg : Bool) : Bool := r.pred a.toNat != neg

/-- PAND (R221). -/
def execPand (p : BitVec 4) (d a b : BitVec 3) (t : BitVec 2) (s : State) : Out :=
  s.issueP p 0x45 [] d (fun s => s.regs.predNeg a (bitAt t.toNat 0) && s.regs.predNeg b (bitAt t.toNat 1))

/-- POR (R221). -/
def execPor (p : BitVec 4) (d a b : BitVec 3) (t : BitVec 2) (s : State) : Out :=
  s.issueP p 0x46 [] d (fun s => s.regs.predNeg a (bitAt t.toNat 0) || s.regs.predNeg b (bitAt t.toNat 1))

/-- PXOR (R221). -/
def execPxor (p : BitVec 4) (d a b : BitVec 3) (t : BitVec 2) (s : State) : Out :=
  s.issueP p 0x47 [] d (fun s => s.regs.predNeg a (bitAt t.toNat 0) != s.regs.predNeg b (bitAt t.toNat 1))

/-- PNOT (R221). -/
def execPnot (p : BitVec 4) (d a : BitVec 3) (s : State) : Out := s.issueP p 0x48 [] d (fun s => !s.regs.pred a.toNat)

/-- PMOV (R221). -/
def execPmov (p : BitVec 4) (d a : BitVec 3) (s : State) : Out := s.issueP p 0x49 [] d (fun s => s.regs.pred a.toNat)

/-- GPRED.pack (R222). -/
def execGpredPack (p : BitVec 4) (d : BitVec 5) (s : State) : Out :=
  s.issueG p 0x4A [] d (fun s => wordOf (maskOf ((List.range 8).filter s.regs.pred)))

/-- GPRED.unpack (R222). -/
def execGpredUnpack (p : BitVec 4) (a : BitVec 5) (x : BitVec 1) (s : State) : Out :=
  s.issue p 0x4A [gsrcE a x] [] (fun s =>
    .ok (s.setRegs ((List.range 8).foldl (fun r k => r.setPred k (flagOf (s.regs.gval a.toNat) k)) s.regs)))

/-- GPRED.nz (R222). -/
def execGpredNz (p : BitVec 4) (d : BitVec 3) (a : BitVec 5) (x : BitVec 1) (s : State) : Out :=
  s.issueP p 0x4A [gsrcE a x] d (fun s => s.regs.gval a.toNat != 0)

end Sys2Proof.Machine
end

