-- ==== Sys2Proof/Machine/Blocks.lean ====
section
/-! DEFINITION. Entering and committing a block, and a parking fault as a step (R173 to R180, R184, R194, R202 to R207, R260, R384, R457). -/

namespace Sys2Proof.Machine

/-! The checks of a block (R174, R194). -/

/-- The exit that an instruction selects: its number, and its target for the rule of R203 (none for a register target). -/
def exitOf : Instr → Option (Nat × Option (BitVec 17))
  | .exit _ e o => some (e.toNat, some o)
  | .call _ e o => some (e.toNat, some o)
  | .loop _ e o => some (e.toNat, some o)
  | .ret _ e => some (e.toNat, none)
  | .exitr _ e _ => some (e.toNat, none)
  | .callr _ e _ => some (e.toNat, none)
  | _ => none

/-- The word's instruction belongs to a buffered class of Table 6-1, by its opcode. -/
def isBufferedOp (op sub : Nat) : Bool :=
  (0x57 ≤ op && op ≤ 0x5A) || op == 0x5C || (op == 0x5D && sub % 8 == 1) || (op == 0x5E && sub % 8 == 1) || op == 0x5F ||
  op == 0x61 || op == 0x62 || op == 0x63 || (0x65 ≤ op && op ≤ 0x68) ||
  (0x70 ≤ op && op ≤ 0x76) || op == 0x79 || (0x7D ≤ op && op ≤ 0x89) || (0x8B ≤ op && op ≤ 0x8E) ||
  op == 0xB3 || op == 0xD5 || (0xD7 ≤ op && op ≤ 0xD9)

def wordOpcode (w : BitVec 32) : Nat := w.toNat / 2 ^ 24

def isBuffered (w : BitVec 32) : Bool := isBufferedOp (wordOpcode w) (w.toNat % 32)

/-- TRAPINFO of an illegal block (Table 8-8). -/
def illegalInfo (idx op why word : Nat) : Word := wordOf (idx + op * 256 + why * 65536 + word % 2 ^ 32 * 2 ^ 32)

/-- The first offending word in block order (R174, R194): idx is the next word's index, seen the exits so far, count the buffered instructions so far. The order of the reasons of one word, and that a reason 2 to 5 of any word comes before reason 6, is the model's DESIGN CHOICE (log 110). -/
def checkWords (nex stb : Nat) : Nat → List (Nat × Option (BitVec 17)) → Nat → List (BitVec 32) → Option Word
  | _, _, _, [] => none
  | idx, seen, count, w :: r =>
    match decode w with
    | .error e => some (illegalInfo idx (wordOpcode w) e.why w.toNat)
    | .ok i =>
      let n := count + bitNat (isBuffered w)
      let clash := match exitOf i with
        | none => 0
        | some (e, t) =>
          if nex < e then 4
          else if seen.any (fun x => x.1 == e && (x.2.isNone || x.2 != t)) then 5 else 0
      if clash ≠ 0 then some (illegalInfo idx (wordOpcode w) clash w.toNat)
      else if stb < 63 ∧ isBuffered w ∧ stb < n then none
      else checkWords nex stb (idx + 1) (match exitOf i with | some x => x :: seen | none => seen) n r

/-- The block's static count of buffered instructions (R194). -/
def staticCount (l : List (BitVec 32)) : Nat := (l.filter isBuffered).length

/-- The word at which the static count first exceeds STB (R194). -/
def budgetWord (stb : Nat) : Nat → Nat → List (BitVec 32) → Option (Nat × BitVec 32)
  | _, _, [] => none
  | idx, count, w :: r =>
    let n := count + bitNat (isBuffered w)
    if stb < n then some (idx, w) else budgetWord stb (idx + 1) n r

/-- The check of a whole block (R174): TRAPINFO of the first offending word. -/
def checkBlock (hdr : BitVec 32) (l : List (BitVec 32)) : Option Word :=
  let nex := bits hdr.toNat 25 23
  let stb := bits hdr.toNat 21 16
  if hdr.toNat % 65536 ≠ 0 then some (illegalInfo 0 0 7 hdr.toNat)
  else
    match checkWords nex stb 1 [] 0 l with
    | some i => some i
    | none =>
      if stb < 63 then (budgetWord stb 1 0 l).map (fun e => illegalInfo e.1 (wordOpcode e.2) 6 (staticCount l)) else none

/-- One 32-bit word of memory. -/
def Memory.word32 (m : Memory) (a : Nat) : BitVec 32 := .ofNat 32 (natOfBytes (Memory.readN m a 4))

/-- A word of code through the quad's instruction cache, which is not kept coherent: a word that has been fetched before is the old one or, when its line is no longer held, the one in memory, as the hardware chooses (R180; log 67). -/
def State.fetchWord (s : State) (va pa : Nat) : BitVec 32 × State :=
  let q := s.quad s.cur
  let now := Memory.word32 s.mem pa
  let key := s.me.jobid * 2 ^ 48 + va
  match aget q.icache key with
  | some old =>
    if old = now then (now, s)
    else if Config.openChoice s.free % 2 = 0 then (old, s.useOpen)
    else (now, (s.setQuad s.cur { q with icache := aset q.icache key now }).useOpen)
  | none => (now, s.setQuad s.cur { q with icache := aset q.icache key now })

/-- The words of a run, each at its own translated page (R103). -/
def State.fetchWords (s : State) (va : Nat) : Nat → Res (List (BitVec 32) × State)
  | 0 => .ok ([], s)
  | n + 1 => do
    if 2 ^ 48 ≤ va then .error (.trap 0x05 none none)
    let (pa, s1) ← s.translate .fetch 0 va
    let (w, s2) := s1.fetchWord va pa
    s.afterLookup s1 (do
      let (l, s3) ← State.fetchWords s2 (va + 4) n
      pure (w :: l, s3))

/-- The header and words of the block at an address, and the TLB fills of its fetch (R173, R180). Every word that LEN counts is fetched before the header is checked, so that a fetch fault of one comes before WHY 7: the model's DESIGN CHOICE (log 110). -/
def State.fetchBlock (s : State) (va : Nat) : Res (BitVec 32 × List (BitVec 32) × State) := do
  let (h, s1) ← s.fetchWords va 1
  let hdr := h.headD 0
  s.afterLookup s1 (do
    let (l, s2) ← s1.fetchWords (va + 4) (bits hdr.toNat 31 26 + 1)
    pure (hdr, l, s2))

/-- The job of the current context is frozen by a replay divergence (R465). -/
def State.frozen (s : State) (job : Nat) : Bool := ((aget s.jobs job).map (fun j => j.frozen)).getD false

/-- What becomes of a block that cannot be fetched: a fetch fault reports the block address in TRAPADDR (R105). -/
def State.fetchStop (s : State) : Stop → State
  | .trap c _ info => ({ s with free := s.free + 2 }).takeFault s.cur s.curCtx c (wordOf s.me.pc) (s.given 1 info)
  | .counted n e => (s.countMulti s.cur n).fetchStop e
  | e => s.stop e

/-- Entering a block (R174, R179). -/
def State.enterBlock (s : State) : State :=
  let x := s.me
  if x.status ≠ .live ∨ x.block.isSome ∨ x.commit.isSome then s.passOver
  else if s.frozen x.jobid ∧ !s.isSystem then s.passOver
  else
    match s.fetchBlock x.pc with
    | .error e => s.fetchStop e
    | .ok (hdr, l, t) =>
      match checkBlock hdr l with
      | some info => ({ t with free := t.free + 1 }).takeFault s.cur s.curCtx 0x01 (t.given 0 none) info
      | none =>
        if (x.invocation.map (fun i => i.fresh)).getD false ∧ !bitAt hdr.toNat 22 then
          ({ t with free := t.free + 2 }).takeFault s.cur s.curCtx 0x04 (t.given 0 none) (t.given 1 none)
        else
          t.setMe { t.me with
            block := some { header := x.pc, words := l, entry := x.regs, fpmode := x.fpmode }
            miss := none
            invocation := x.invocation.map (fun i => { i with fresh := false }) }

/-- BLOCK_ENTRY (R174). -/
def execBlockEntry (node ctx : Nat) (s : State) : Out := .next { s with cur := node, curCtx := ctx }.enterBlock

/-- PARKING_FAULT (R384). -/
def execParkingFault (node ctx cause : Nat) (addr info : Word) (s : State) : Out :=
  .next (s.takeFault node ctx cause addr info)

end Sys2Proof.Machine
end

