-- ==== Sys2Proof/Machine/Commit.lean ====
section
/-! DEFINITION. The commit of a block, the reservations and turn of an invocation's commit, and departure (R33, R108, R116 to R120, R124 to R126, R130, R177, R202 to R207, R260, R364, R410, R457). -/

namespace Sys2Proof.Machine

/-! What a block's commit does beside its registers and effects (R177). -/

/-- The successor of a block; 0 when the exit taken is DONE (R176, R207). -/
def OpenBlock.next (b : OpenBlock) : Nat :=
  match b.taken with
  | some (.target t _) => t.toNat
  | some .done => 0
  | none => b.header + 4 * (b.words.length + 1)

def OpenBlock.isDone (b : OpenBlock) : Bool := b.taken == some .done

/-- The taken exit links (R202). -/
def OpenBlock.links (b : OpenBlock) : Bool :=
  match b.taken with
  | some (.target _ l) => l
  | _ => false

/-- Every register that waits in one way waits no longer so (R120, R352). -/
def Regs.release (r : Regs) (from_ : RegState) : Regs :=
  { r with g := r.g.map (fun x => if x.st = from_ then ⟨x.val, .empty⟩ else x) }

/-- A write of a special register by MTS, to its writable fields (Tables 15-3 to 15-7, 11-2, 1-2, 7-2, 13-5, 12-5). -/
def State.writeSpecial (s : State) (n : Nat) (v : Word) : State :=
  let c := s.myCore
  match n with
  | 0x07 => s.setMe { s.me with jobid := fieldOf v 11 0 }
  | 0x08 => s.setMyCore { c with plbase := v &&& 0x3F7F3F7F }
  | 0x09 => s.setMyCore { c with wkdesc := v &&& wordOf (2 ^ 45 - 1) }
  | 0x0A => s.setMe { s.me with fpmode := .ofNat 8 (fieldOf v 7 0) }
  | 0x0C => if flagOf v 0 then s.setMyCore { c with fpfirst := putField c.fpfirst 0 0 0 } else s
  | 0x16 => s.setMyCore { c with opmap := v &&& 0xBBBBBBBBBBBBBBBB }
  | 0x18 =>
    let clear : BitVec 5 := .ofNat 5 (fieldOf v 14 10)
    let n := clusterOf s.cur
    let k := slotOf s.cur
    let cl := s.cluster n
    let x := cl.slot k
    (s.setCluster n (cl.setSlot k { x with flags := x.flags &&& ~~~clear })).setMyCore { c with mxflags := c.mxflags &&& ~~~clear }
  | 0x19 =>
    let old := c.dbg.replayctl
    let mode := if fieldOf v 1 0 = 3 then fieldOf old 1 0 else fieldOf v 1 0
    let w := mode + bitNat (flagOf v 2) * 4 + bitNat (flagOf old 3 && !flagOf v 3) * 8 + fieldOf v 31 16 * 65536
    s.setMyCore { c with dbg := { c.dbg with replayctl := wordOf w } }
  | _ => s

/-- TRETRY at its block's commit (R359): the entry moves where a target is given, and the invocation ends as TKILL ends it. -/
def State.actRetry (s : State) (k : Nat) (target : Option Nat) (status : Nat) : State :=
  if status = 4 then s
  else
    let s1 := match target with
      | some t => s.moveEntry s.cur k t
      | none => s
    let s2 := s1.killCtx s.cur k
    if status = 3 then s2.notice s.cur 0x33 k 0 0 else s2

/-- The entry that has paused a priority is read again, or discarded (R359, Table 2-8). -/
def Core.unpause (c : Core) (p : Nat) (kill : Bool) : Core :=
  let q := c.q.setPaused p false
  { c with q := q.setQueue p (if kill then (q.queueAt p).eraseP QEntry.stuck else (q.queueAt p).map (fun e => { e with stuck := false })) }

/-- An effect of a system instruction at its block's commit. -/
def State.act (s : State) (blk : Nat) : AtCommit → State
  | .mts n v => s.writeSpecial n v
  | .tresume k => s.resumeCtx s.cur k
  | .tkill k => s.killCtx s.cur k
  | .tretry k t st => s.actRetry k t st
  | .resumeHead p => s.setMyCore (s.myCore.unpause p false)
  | .killHead p => s.setMyCore (s.myCore.unpause p true)
  | .traceControl w =>
    let c := s.myCore
    let s1 := s.setMyCore { c with dbg := { c.dbg with traceCtl := w } }
    if flagOf w 0 ∧ !flagOf c.dbg.traceCtl 0 then s1.emitSkew (dieNode s.cur) else s1
  | .traceMark v code => s.traceIf true s.cur s.curCtx 3 code blk 0 [v]
  | .watch n a w =>
    let c := s.myCore
    s.setMyCore { c with dbg := { c.dbg with watch := c.dbg.watch.setIfInBounds n (if flagOf w 0 then ⟨a, w⟩ else {}) } }

def AtCommit.isMark : AtCommit → Bool
  | .traceMark _ _ => true
  | _ => false

/-- FPFIRST after a block that raised flags (R260). -/
def Core.latchFirst (c : Core) (b : OpenBlock) (serial : Word) : Core :=
  let f := (b.raised &&& (b.fpmode.extractLsb' 3 5)).toNat
  if f = 0 ∨ flagOf c.fpfirst 0 then c
  else { c with fpfirst := wordOf (1 + f * 2 + bits b.header 47 2 * 64 + serial.toNat % 4096 * 2 ^ 52) }

/-- The TRAP, BKPT or watchpoint match that parks the context after the block (R207, R457). -/
def OpenBlock.parksAfter (b : OpenBlock) : Option SoftTrap :=
  match b.trap, b.hits with
  | some t, _ => some t
  | none, h :: _ =>
    if flagOf b.traceCtl 1 then some ⟨0x71, h.addr, wordOf (h.watch + bitNat h.write * 4 + 2 ^ 15 + 2 ^ 16)⟩ else none
  | none, [] => none

/-- An immediate request leaves as its block commits: its slot is sent, its key is in flight, and its answer is awaited (R113, R353). -/
def State.sendRequest (s : State) (m : Packet) : State :=
  let x := s.me
  match x.slots.find? (fun e => e.2.tag == m.tag) with
  | some (z, u) =>
    let s1 := s.setMe { x with slots := aset x.slots z { u with sent := true } }
    let c := s1.myCore
    let c1 := match u.answer with
      | .streamGo k _ _ => c.setKey k { c.key k with flight := (c.key k).flight + 1 }
      | _ => c
    (s1.setMyCore { c1 with pending := c1.pending ++
      [{ tag := m.tag, ctx := s.curCtx, aclass := m.aclass, engine := some (nodeClass (destOf m)), answer := u.answer, read := true }] }).send m
  | none => s

/-- The trace records of a block's commit, in the order of R452. -/
def State.traceBlock (s : State) (b : OpenBlock) : State :=
  let c := { s.myCore with dbg := { s.myCore.dbg with traceCtl := b.traceCtl } }
  let s1 := s.traceIf (c.traces 4 && !s.isSystem) s.cur s.curCtx 2 (b.exit + bitNat b.isDone * 8 + bitNat b.commit * 16) b.header 0 []
  let s2 := if c.traces 2 then (b.acts.filter AtCommit.isMark).foldl (fun t a => t.act b.header a) s1 else s1
  match b.hits with
  | h :: _ => s2.traceIf (c.traces 0) s.cur s.curCtx 5 (h.watch + bitNat h.write * 4) b.header 0 [h.addr]
  | [] => s2

/-- The context after a block's commit. -/
def Ctx.afterBlock (x : Ctx) (b : OpenBlock) (clk : Nat) : Ctx :=
  let r := x.regs.release .awaitBlock
  { x with
    regs := if b.links then r.setG 30 (wordOf (b.header + 4 * (b.words.length + 1))) else r
    block := none
    pc := b.next
    retire := x.retire ++ b.effects
    slots := x.slots.map (fun e => (e.1, { e.2 with inBlock := false }))
    yieldEnd := if b.isDone then x.yieldEnd else (b.yield.map (fun n => clk + n + 1)).or x.yieldEnd
    commit := if b.isDone ∨ b.commit then some { done := b.isDone, block := b.header, next := b.next, traceCtl := b.traceCtl } else none }

/-- The commit of the open block of the current context (R177). -/
def State.commitBlock (s : State) (b : OpenBlock) : State :=
  let stop := b.parksAfter
  let x := s.me.afterBlock b s.clk
  let x1 := { x with commit := x.commit.map (fun c => { c with trap := stop }) }
  let s0 := s.setMe x1
  let s1 := s0.setMyCore (s0.myCore.mapAwaited (fun a => if a.ctx = s.curCtx then { a with inBlock := false } else a))
  let s2 := b.requests.foldl State.sendRequest s1
  let s3 := s2.setMyCore ((s2.myCore.count 1 1).latchFirst b x.invser)
  let s4 := (b.acts.filter (fun a => !a.isMark)).foldl (fun t a => t.act b.header a) (s3.traceBlock b)
  let s5 := match b.yield with
    | some n => if b.isDone then s4 else s4.after (n + 1) (.yieldIntervalEnd s.cur s.curCtx)
    | none => s4
  if b.isDone ∨ b.commit then s5.due (.vstReservation s.cur s.curCtx)
  else
    match stop with
    | some t => s5.park s.cur s.curCtx t.cause b.next t.addr t.info
    | none => s5

/-- BLOCK_COMMIT (R177): a taken CALL or CALLR waits while g30 is empty (R182). -/
def execBlockCommit (node ctx : Nat) (s : State) : Out :=
  let s := { s with cur := node, curCtx := ctx }
  match s.me.block with
  | none => .next s.passOver
  | some b =>
    if b.links ∧ (s.regs.greg 30).st.isEmpty then .next (s.settle (.error .waitEmpty))
    else .next (s.commitBlock b)

/-! Reservations (R117, R130, R235). -/

/-- How the reservations of a commit stand. -/
inductive Reserved where
  | all
  | waits
  | fails (cause : Nat) (addr : Word)
deriving DecidableEq, Repr

/-- The named cell as its first reader finds it: poisoned, malformed, or neither (R235, R236). -/
def State.cellFault (s : State) (pa : Nat) : Option Nat :=
  if anyPoison s pa 64 then some 0x2A else if s.cellMalformed pa then some 0x2C else none

/-- The VSTs of a commit reserve their slots in program order; those that hold one are passed (R117, R130). -/
def State.reserveAll (s : State) : List Effect → List Effect × State × Reserved
  | [] => ([], s, .all)
  | .mem e :: r =>
    if e.scope.isNone then
      let (l, t, z) := State.reserveAll s r
      (.mem e :: l, t, z)
    else
      let quad := quadOf ((ownerOf e.pa).getD 0)
      let held := match e.reservation with
        | some n => (s.quad quad).reservations.any (fun x => x.tag == n && x.node == s.cur && x.ctx == s.curCtx)
        | none => false
      if held then
        let (l, t, z) := State.reserveAll s r
        (.mem e :: l, t, z)
      else
        match s.cellFault e.pa with
        | some c => (.mem e :: r, s, .fails c e.addr)
        | none =>
          let (n, s1) := match e.reservation with
            | some n => (n, s)
            | none => s.freshTag s.cur
          let e1 := { e with reservation := some n }
          match s1.reserveCell quad e.pa s.cur s.curCtx n with
          | some s2 =>
            let (l, t, z) := State.reserveAll s2 r
            (.mem e1 :: l, t, z)
          | none => (.mem e1 :: r, s1.waitCell quad e.pa s.cur s.curCtx n, .waits)
  | e :: r =>
    let (l, t, z) := State.reserveAll s r
    (e :: l, t, z)

/-- A fault of a waiting commit: its reservations are given back, and the context parks at the block with the DONE or COMMIT (R108, R235). -/
def State.failCommit (s : State) (blk cause : Nat) (addr info : Word) : State :=
  let s1 := s.giveBack s.cur s.curCtx
  let x := s1.me
  (s1.setMe { x with commit := x.commit.map (fun c => { c with reserved := false }) }).park s.cur s.curCtx cause blk addr info

/-- VST_RESERVATION (R130): what cannot be reserved yet waits, and is tried again in a later clk. -/
def execVstReservation (node ctx : Nat) (s : State) : Out :=
  let s := { s with cur := node, curCtx := ctx }
  match s.me.commit with
  | none => .next s
  | some c =>
    if s.me.status ≠ .live ∨ c.reserved then .next s
    else
      match s.reserveAll s.me.retire with
      | (l, t, .all) => .next ((t.setMe { t.me with retire := l, commit := some { c with reserved := true } }).due (.invocationCommit node ctx))
      | (l, t, .waits) => .next (t.setMe { t.me with retire := l })
      | (l, t, .fails cause addr) =>
        let t1 := t.setMe { t.me with retire := l }
        .next (({ t1 with free := t1.free + 1 }).failCommit c.block cause addr (t1.given 0 (if cause = 0x2A then some 0 else none)))

/-! Retranslation (R107, R108). -/

def MemEffect.access (e : MemEffect) : AccessKind := if e.op = 0x01 ∨ 0x10 ≤ e.op then .write else .atomic

/-- A translation under the job that an effect was issued under (R101). -/
def State.underJob {α : Type} (s : State) (job : Nat) (f : State → Res (α × State)) : Res (α × State) := do
  let old := s.me.jobid
  let (r, t) ← f (s.setMe { s.me with jobid := job })
  pure (r, t.setMe { t.me with jobid := old })

/-- The marked effects of a commit are translated afresh, in program order (R108). -/
def State.retranslate (s : State) : List Effect → Res (List Effect × State)
  | [] => .ok ([], s)
  | .mem e :: r => do
    if e.marked then
      let (pa, s1) ← s.underJob e.job (fun t => t.translate e.access e.opcode e.addr.toNat)
      s.afterLookup s1 (do
        if 0x11 ≤ e.op ∧ !inG pa then .error (.trap 0x08 (some e.addr) none)
        let (l, t) ← State.retranslate s1 r
        pure (.mem { e with pa := pa, marked := false, reservation := if pa = e.pa then e.reservation else none } :: l, t))
    else
      let (l, t) ← State.retranslate s r
      pure (.mem e :: l, t)
  | .copy d a n _ true j f :: r => do
    let (qs, s1) ← s.underJob j (fun t => t.splitCopy d.toNat a.toNat n)
    s.afterLookup s1 (do
      let (l, t) ← State.retranslate s1 r
      pure (.copy d a n qs false j f :: l, t))
  | e :: r => do
    let (l, t) ← State.retranslate s r
    pure (e :: l, t)

/-! The drain (R33, R117, R228, R410). -/

/-- A local write of the drain, with a notice for each poisoned word that it writes in part (R44). -/
def State.drainChunk (s : State) (c : Nat × List Byte) : State :=
  let pa := localPhys s.cur c.1
  let (t, lost) := writeUnits s pa c.2
  lost.foldl (fun (u : State) a => u.notice s.cur 0x2D s.curCtx (wordOf (c.1 + a - pa)) 0) t

/-- A local AMO of the drain; its result is discarded at DONE (R120, Table 2-8). -/
def State.drainAmo (s : State) (done : Bool) (la kind z : Nat) (b expect : Word) (d : Nat) : State :=
  match s.atomicAt (localPhys s.cur la) kind z b.toNat expect.toNat with
  | some (old, t) => if done then t else t.setRegs (t.regs.setG d (wordOf old))
  | none =>
    let t := if done then s else s.setRegs (s.regs.markG d .poisoned)
    t.notice s.cur 0x2D s.curCtx (wordOf (la / 8 * 8)) 0

/-- The stores and AMOs of a commit, in program order. -/
def State.drainStores (s : State) (done : Bool) : List Effect → State
  | [] => s
  | .store cs _ :: r => State.drainStores (cs.foldl State.drainChunk s) done r
  | .amo la k z b x d :: r => State.drainStores (s.drainAmo done la k z b x d) done r
  | _ :: r => State.drainStores s done r

/-- The tumbler operations of a commit, in program order. -/
def tumblerOps (node ctx : Nat) (l : List Effect) : List LocalUpdate :=
  l.filterMap (fun e => match e with
    | .tumbler op i w => some ⟨node, ctx, op, i, w⟩
    | _ => none)

/-- The tumbler operations of a commit go to the quad's tumbler file, which performs them at two updates in a clk, behind those of earlier commits (R136, R410). -/
def State.drainTumblers (s : State) (l : List LocalUpdate) : State :=
  let q := s.quad s.cur
  s.setQuad s.cur { q with drains := q.drains ++ l }

/-- The drain of a commit of the core is still in progress at the tumbler file (R33, R117, R410). -/
def State.draining (s : State) (node : Nat) : Bool := (s.quad node).drains.any (fun u => u.node == node)

/-! Step 3 of the turn. -/

/-- The effect drains into the own quad (Table 6-1). -/
def Effect.isLocal : Effect → Bool
  | .store _ _ | .amo _ _ _ _ _ _ | .tumbler _ _ _ => true
  | _ => false

/-- A handler message that SENT counts: to a core or the host port, and not to a system entry (R170). -/
def countsSent (m : Packet) : Bool :=
  kindOf m == 0 && decide (hidxOf m < 0xE0) && (!nodeIsEnd (destOf m) || nodeClass (destOf m) == 3)

/-- Messages of an effect that SENT counts (R170, R247). -/
def Effect.sent : Effect → Nat
  | .msg _ _ .spawn _ => 1
  | .msg m _ _ _ => bitNat (countsSent m) + mxMessages m
  | _ => 0

/-- The MSG record of a handler message that a commit appends (R451). -/
def State.traceMessage (s : State) (ctl : Word) (blk : Nat) (m : Packet) : State :=
  let d := digest s.myCore.wkdesc { inputs := [m], head := hidxOf m, tag := wkTag s.myCore.wkdesc m.w1, run := lengthOf m }
  s.traceIf (kindOf m == 0 && flagOf ctl 0 && flagOf ctl 5) s.cur s.curCtx 4 0 blk 0 [m.w0, m.w1, wordOf d, 0]

/-- MSG records of a commit's turn: its messages, and the bolts of a hinge commit, in program order (R451). -/
def State.traceMessages (s : State) (ctl : Word) (blk : Nat) (l : List Effect) : State :=
  l.foldl (fun t e => match e with
    | .msg m _ _ _ | .bolt m => t.traceMessage ctl blk m
    | _ => t) s

/-- The reservations of the current context's commit are taken (R130). -/
def State.takeReservations (s : State) : State :=
  { s with quads := s.quads.map (fun e => (e.1, { e.2 with
      reservations := e.2.reservations.map (fun r => if r.node = s.cur ∧ r.ctx = s.curCtx then { r with taken := true } else r) })) }

/-- The Held keys of an invocation become Owned (R251). -/
def Core.ownKeys (c : Core) (l : List Nat) : Core :=
  l.foldl (fun c k => if (c.key k).alloc = .held then c.setKey k { c.key k with alloc := .owned } else c) c

/-- A result that DONE discards: that of every buffered request (R120, R204, R241, R299; log 62). -/
def Answer.endsAtDone : Answer → Bool
  | .load _ _ | .version | .tumbler | .effect _ _ | .streamGo _ _ _ => false
  | _ => true

/-- A hinge commit appends bolts, with their MSG records, and lands its core (R117, R395, R396, R451). -/
def State.hingeCommit (s : State) (c : Commit) (hinge : Bool) : State :=
  if hinge ∧ s.myCore.hinge.arm then
    let t := s.sendBolts s.cur s.curCtx
    (t.traceMessages c.traceCtl c.block ((t.myCore.departure.drop s.myCore.departure.length).map (·.2))).land s.cur
  else s

/-- The context and what it was dispatched from, once a commit stands (R117 step 4, R119, R120). -/
def Ctx.committed (x : Ctx) (done : Bool) : Ctx :=
  { x with
    regs := x.regs.release .awaitCommit
    retire := []
    held := []
    commit := none
    pc := (x.commit.map (fun c => c.next)).getD x.pc
    miss := none
    hasp := x.retire.foldl haspAfter x.hasp
    invocation := x.invocation.map (fun i => { i with consumed := true, finished := i.finished || done })
    slots := if done then dropReplies (fun u => u.answer.endsAtDone) x.slots else x.slots }

/-- What follows a commit: the invocation ends, parks after TRAP or BKPT, or goes on (R204, R205, R207). -/
def State.afterCommit (s : State) (c : Commit) : State :=
  let s1 := if c.done then s.endHasp s.cur s.curCtx else s
  match c.trap with
  | some t => s1.park s.cur s.curCtx t.cause c.next t.addr t.info
  | none => if c.done then s1.leaveCtx s.cur s.curCtx else s1

/-- The turn of a commit whose effects stand translated (R117). -/
def State.takeTurn (s : State) (c : Commit) (l : List Effect) : State :=
  let s1 := s.drainStores c.done l
  let s2 := s1.drainTumblers (tumblerOps s.cur s.curCtx l)
  let out := l.filter (fun e => !e.isLocal)
  let k := s2.myCore
  let s3 := s2.setMyCore ({ k with
    departure := k.departure ++ out.map (fun e => (s.curCtx, e))
    sent := k.sent + (out.map Effect.sent).sum }.ownKeys s2.me.held)
  let s4 := s3.takeReservations.traceMessages c.traceCtl c.block out
  let hinge := c.done && (s4.me.invocation.map (fun i => i.hinge)).getD false
  let s5 := s4.setMe (s4.me.committed c.done)
  (s5.afterCommit c).hingeCommit c hinge

/-- Entries that a commit needs in the departure queue (R117). -/
def roomNeeded (l : List Effect) : Nat := entriesOf (l.filter (fun e => !e.isLocal))

/-- The first VRECL of a commit whose cell is poisoned or malformed (R236). -/
def State.retireFault (s : State) (l : List Effect) : Option (Nat × Word) :=
  l.findSome? (fun e => match e with
    | .mem m => if m.op = 0x12 then (s.cellFault m.pa).map (fun c => (c, m.addr)) else none
    | _ => none)

/-- Every VST of a commit holds its slot (R117). -/
def reservationsHeld (l : List Effect) : Bool :=
  l.all (fun e => match e with
    | .mem m => m.scope.isNone || m.reservation.isSome
    | _ => true)

/-- What becomes of a commit whose retranslation does not end: it faults with CMT set (R108), or its walk is made and it is tried again in a later clk. -/
def State.commitStop (s : State) (c : Commit) : Stop → State
  | .trap cause addr info =>
    let s1 := { s with free := s.free + 2 }
    s1.failCommit c.block cause (s.given 0 addr) (s.given 1 (info.map (fun w => w ||| 32)))
  | .walk w =>
    match s.coreMiss s.cur w with
    | some t => t.setMe { t.me with miss := some (.walking w.job w.va) }
    | none => s
  | .counted n e => (s.countMulti s.cur n).commitStop c e
  | .wait | .waitEmpty => s

/-- INVOCATION_COMMIT (R117): a commit that has no room yet, or comes while an earlier one of the core drains, is tried again in a later clk. -/
def execInvocationCommit (node ctx : Nat) (s : State) : Out :=
  let s := { s with cur := node, curCtx := ctx }
  match s.me.commit with
  | none => .next s
  | some c =>
    if s.me.status ≠ .live ∨ !c.reserved then .next s
    else
      match s.retireFault s.me.retire with
      | some (cause, addr) =>
        .next (({ s with free := s.free + 1 }).failCommit c.block cause addr (s.given 0 (if cause = 0x2A then some 0 else none)))
      | none =>
        if s.draining node ∨ 1024 < entriesOf (s.myCore.departure.map (·.2)) + roomNeeded s.me.retire then .next s
        else
          match s.retranslate s.me.retire with
          | .error e => .next (s.commitStop c e)
          | .ok (l, t) =>
            if reservationsHeld l then .next (t.takeTurn c l)
            else
              let t1 := t.giveBack node ctx
              .next ((t1.setMe { t1.me with retire := l, commit := some { c with reserved := false } }).due (.vstReservation node ctx))

/-! Departure (R117, R121, R124 to R126, R253). -/

/-- Every earlier remote effect in the scope is acknowledged (R125). -/
def Core.released (c : Core) (scope : Nat) : Bool :=
  c.pending.all (fun p => p.read || p.acked || decide (scope < p.aclass))

/-- Every command of the context to a class of the mask is performed (R124). -/
def Core.enginesDone (c : Core) (ctx mask : Nat) : Bool :=
  c.pending.all (fun p =>
    match p.engine with
    | some k => p.ctx != ctx || !bitAt mask k || p.performed
    | none => true)

/-- The scope of a release at the head of the departure queue (R125). -/
def Effect.scope : Effect → Option Nat
  | .mem e => e.scope
  | .msg _ _ _ sc => sc
  | .fence k => some k
  | .tlbi t => some (if t.domain then 2 else 1)
  | _ => none

/-- A request that has departed is awaited (R111, R125). -/
def State.await (s : State) (node : Nat) (p : Pending) (m : Packet) : State :=
  let c := s.core node
  (s.setCore node { c with pending := c.pending ++ [p] }).send m

/-- A slot's request has left the core. -/
def State.markSent (s : State) (node ctx : Nat) (slot : Option Nat) : State :=
  match slot with
  | some z =>
    let x := s.ctx node ctx
    match aget x.slots z with
    | some u => s.setCtx node ctx { x with slots := aset x.slots z { u with sent := true } }
    | none => s
  | none => s

/-- The name of a slot's request, or a new one (log 8). -/
def State.tagOf (s : State) (node ctx : Nat) (slot : Option Nat) : Nat × State :=
  match slot.bind (fun z => aget (s.ctx node ctx).slots z) with
  | some u => (u.tag, s)
  | none => s.freshTag node

/-- The units of a shootdown's scope that hold anything: those of the job's modules, and every host port whose windows have translated for the job (R107, R430). -/
def State.shootdownUnits (s : State) (t : Shootdown) : List TlbUnit :=
  let mods := if t.domain then ((s.record t.job).map (fun r => r.modmap.take (r.nmod + 1))).getD [nodeModule t.issuer] else [nodeModule t.issuer]
  let within (n : Nat) : Bool := mods.contains (nodeModule n)
  ((s.clusters.map (·.1)).filter within).map .cluster ++ ((s.cores.map (·.1)).filter within).map .core ++
  ((s.memCores.map (·.1)).filter within).map .memCore ++
  (mods ++ ((s.modules.filter (fun e => !mods.contains e.1 && (e.1 == nodeModule t.issuer || t.domain) && e.2.tlb.any (fun x => x.job == t.job))).map (·.1))).map .hostPort

/-- A shootdown departs: the invalidation goes to every unit in scope (R107). -/
def State.startShootdown (s : State) (node ctx : Nat) (t : Shootdown) : State :=
  let c := s.core node
  let units := s.shootdownUnits t
  let s1 := s.setCore node { c with pending := c.pending ++
    [{ tag := t.tag, ctx := ctx, aclass := if t.domain then 2 else 1, answer := .shootdown }] }
  ({ s1 with shootdowns := s1.shootdowns ++ [(t, units)] }).dueAll (units.map (fun u => .tlbiReceive u t))

/-- An access by physical address departs (R103, R229). -/
def State.departMem (s : State) (node ctx : Nat) (e : MemEffect) : State :=
  let (tag, s1) := match e.reservation with
    | some n => (n, s)
    | none => s.tagOf node ctx e.slot
  let m := withFlags e.xf (remoteOp node e.op e.size e.pa ((e.slot.map (fun z => ctx * 16 + z)).getD ackSelector) e.job tag e.payload)
  let ans := match e.slot with
    | some _ => Answer.atomic e.size
    | none => Answer.effect e.op e.addr
  (s1.markSent node ctx e.slot).await node { tag := tag, ctx := ctx, aclass := m.aclass, answer := ans, addr := e.addr, job := if e.virt then some e.job else none } m

/-- The pieces of an RCPY depart in ascending address order; it is one effect, whose destination nodes own the locations that it writes (R111, R233). -/
def State.departCopy (s : State) (node ctx : Nat) (dst : Word) (ps : List Piece) (job : Nat) (xf : BitVec 5) : State :=
  let (tag, s1) := s.freshTag node
  let ms := ps.map (fun p => withFlags xf (remoteOp node 0x20 0 p.src ackSelector job tag [wordOf p.dst, wordOf p.len]))
  let c := s1.core node
  let owners := ps.flatMap (fun p => (ownerOf p.dst).toList)
  let least := owners.foldl (fun a n => min a (aclassOf node n)) 2
  (s1.setCore node { c with pending := c.pending ++
    [{ tag := tag, ctx := ctx, aclass := least, answer := .effect 0x20 dst, addr := dst, job := some job, left := ms.length, copyTo := owners }] }).dueAll (ms.map route)

/-- A message or command departs (R111); the key that a collective names is in flight (R251). -/
def State.departMsg (s : State) (node ctx : Nat) (m : Packet) (slot : Option Nat) (ans : Answer) : State :=
  let (tag, s0) := s.tagOf node ctx slot
  let s1 := match ans with
    | .collective k => s0.setCore node ((s0.core node).setKey k { (s0.core node).key k with flight := ((s0.core node).key k).flight + 1 })
    | _ => s0
  (s1.markSent node ctx slot).await node
    { tag := tag, ctx := ctx, aclass := m.aclass, answer := ans
      engine := if kindOf m = 3 ∧ nodeIsEnd (destOf m) then some (nodeClass (destOf m)) else none } { m with tag := tag }

/-- KEYF at the head of the departure queue (R253). -/
def State.freeKeys (s : State) (node : Nat) (mask : Word) : State :=
  let c := s.core node
  let l := (List.range 64).filter (fun k => flagOf mask k && (c.key k).alloc != .free)
  let gone := l.filter (fun k => (c.key k).flight == 0)
  let c1 := c.releaseKeys l
  s.setCore node { c1 with ctxs := c1.ctxs.map (fun x => { x with held := x.held.filter (fun k => !gone.contains k) }) }

/-- The head of the departure queue departs. -/
def State.depart (s : State) (node ctx : Nat) : Effect → State
  | .mem e => s.departMem node ctx e
  | .copy d _ _ ps _ j f => s.departCopy node ctx d ps j f
  | .msg m z a _ => s.departMsg node ctx m z a
  | .tlbi t => s.startShootdown node ctx t
  | .keyf w => s.freeKeys node w
  | .bolt m => s.send m
  | _ => s

/-- The head of a departure queue must wait: for commands, for the effects of its scope, or for an RCPY that writes at its own destination (R121, R124, R125). -/
def Core.holdsHead (c : Core) (ctx : Nat) (e : Effect) : Bool :=
  c.pending.any (fun p => p.copyTo.any (fun n => e.dests.contains n)) ||
  match e with
  | .qfence mask => !c.enginesDone ctx mask
  | _ =>
    match e.scope with
    | some k => !c.released k
    | none => false

/-- An effect that a shootdown has met in the departure queue is translated afresh as it departs; where that gives no address, or a VST holds its slot at the old one, it keeps the old one (R109; log 104). -/
def State.afresh (s : State) : Effect → Effect
  | .mem e =>
    if e.marked ∧ e.reservation.isNone then
      match s.walkTo e.job e.addr.toNat e.access with
      | .ok pa => .mem (if 0x11 ≤ e.op ∧ !inG pa then e else { e with pa := pa, marked := false })
      | .error _ => .mem e
    else .mem e
  | .copy d a n ps true j f =>
    let pages (k : AccessKind) (va : Nat) : Except Nat (List (Nat × Nat)) := (pageStarts va n).mapM (fun v => (s.walkTo j v k).map (fun pa => (v, pa)))
    match pages .copySource a.toNat, pages .copyDest d.toNat with
    | .ok sp, .ok dp => .copy d a n (piecesOf sp dp d.toNat a.toNat n (pieceCuts d.toNat a.toNat n)) false j f
    | _, _ => .copy d a n ps true j f
  | e => e

/-- DEPARTURE (R117): the head departs, or is held by its release or marker, or by the drain of its core's last commit. -/
def execDeparture (node : Nat) (s : State) : Out :=
  let c := s.core node
  match c.departure with
  | [] => .next s
  | (k, e0) :: r =>
    let e := s.afresh e0
    if s.draining node ∨ c.holdsHead k e then .next s
    else .next ((s.setCore node { c with departure := r }).depart node k e)

end Sys2Proof.Machine
end

