-- ==== Sys2Proof/Machine/Depend.lean ====
section
/-! DEFINITION. What an instruction shares and what it claims, and which words of a block may issue before an earlier one (R175, R192, R259, R374; log 4). -/

namespace Sys2Proof.Machine

/-- The slot of an opcode: true for the vector slot (R192). -/
def vectorSlot (op : Nat) : Bool := (0x90 ≤ op && op ≤ 0xCF) || (0xE0 ≤ op && op ≤ 0xE7) || 0xF0 ≤ op

/-! What instructions of one block can act upon, numbered: g0 to g31 by their numbers, then v, p and q registers, then what follows. -/

def useV {n : Nat} (x : BitVec n) : Nat := 32 + x.toNat
def useP {n : Nat} (x : BitVec n) : Nat := 48 + x.toNat % 8
def useQ {n : Nat} (x : BitVec n) : Nat := 56 + x.toNat % 8
/-- FPFLAGS: what raises flags shares them, since the order of two that raise does not show; what reads them into XF claims them (R149, R259). -/
def useFlags : Nat := 64
/-- The effects that the block buffers: what buffers claims them; a local read shares them (R115). -/
def useBuffer : Nat := 65
/-- Reads at issue, requests that leave at issue, and waits on keys, which stay in program order (R114, R121, R254). -/
def useAccess : Nat := 66
/-- The key state (R251 to R254). -/
def useKeys : Nat := 67
/-- The exits of the block, of which the first in program order is taken (R176). -/
def useExit : Nat := 68
/-- TRAP and BKPT, of which the first in program order acts (R207). -/
def useTrap : Nat := 69
/-- The lattice and the patch array (R314, R349). -/
def useUnit : Nat := 70
/-- Everything: each instruction shares it. -/
def useAll : Nat := 71

/-- What an instruction shares with others that share it, and what it claims for itself. -/
structure Use where
  shares : List Nat := []
  claims : List Nat := []
deriving DecidableEq, Repr

/-- The use of a predicate-qualified instruction. -/
def predUse (p : BitVec 4) (shares claims : List Nat) : Use := ⟨useAll :: useP p :: shares, claims⟩

/-- The use of a lane-masked instruction; qualifier 0 reads no q register (R187). -/
def laneUse (p : BitVec 4) (shares claims : List Nat) : Use := ⟨useAll :: if p = 0 then shares else useQ p :: shares, claims⟩

/-- What each encoded instruction uses (R175). One that is not named, such as MFS or MTS, claims everything, and so issues in program order. -/
def useOf : Instr → Use
  | .nop p | .commit p | .yield p _ => predUse p [] []
  | .exit p _ _ | .call p _ _ | .done p => predUse p [] [useExit]
  | .bkpt p _ => predUse p [] [useTrap]
  | .ret p _ => predUse p [30] [useExit]
  | .loop p _ _ => predUse p [] [31, useExit]
  | .trap p d _ => predUse p [d.toNat] [useTrap]
  | .exitr p _ a | .callr p _ a => predUse p [a.toNat] [useExit]
  | .waitf p a t => predUse p [if bitAt t.toNat 0 then useV a else a.toNat] []
  | .empty p d a t => predUse p [if bitAt t.toNat 0 then useV a else a.toNat] [useP d]
  | .add p d a b _ _ | .sub p d a b _ _ | .mul p d a b _ _ | .mulh p d a b _ _ | .mulhn p d a b _ _ | .div p d a b _ _ | .divn p d a b _ _
  | .rem p d a b _ _ | .remn p d a b _ _ | .and p d a b _ _ | .andn p d a b _ _ | .or p d a b _ _ | .xor p d a b _ _ | .shl p d a b _ _
  | .shr p d a b _ _ | .sar p d a b _ _ | .rot p d a b _ _ | .min p d a b _ _ | .max p d a b _ _ | .minn p d a b _ _ | .maxn p d a b _ _
  | .bfx p d a b _ _ | .bfxs p d a b _ _ | .bfi p d a b _ _ | .addx p d a b _ _ _ | .wks p d a b _ => predUse p [a.toNat, b.toNat] [d.toNat]
  | .addi p d a _ | .muli p d a _ | .andi p d a _ | .ori p d a _ | .xori p d a _ | .shli p d a _ | .shri p d a _ | .sari p d a _
  | .abs p d a _ | .clz p d a _ | .ctz p d a _ | .popc p d a _ | .mov p d a _ | .sati p d a _ | .wkf p d a _ => predUse p [a.toNat] [d.toNat]
  | .movl p d _ | .movh p d _ | .movm p d _ _ => predUse p [] [d.toNat]
  | .sel p d a b t => predUse p [a.toNat, b.toNat, useP t] [d.toNat]
  | .node p d a b c => predUse p [a.toNat, b.toNat, c.toNat] [d.toNat]
  | .cmp p d a b _ => predUse p [a.toNat, b.toNat] [useP d]
  | .cmpi41 p _ d a _ | .cmpi42 p _ d a _ | .cmpi43 p _ d a _ | .gpredNz p d a _ => predUse p [a.toNat] [useP d]
  | .pand p d a b _ | .por p d a b _ | .pxor p d a b _ => predUse p [useP a, useP b] [useP d]
  | .pnot p d a | .pmov p d a => predUse p [useP a] [useP d]
  | .gpredPack p d => predUse p ((List.range 8).map (48 + ·)) [d.toNat]
  | .gpredUnpack p a _ => predUse p [a.toNat] ((List.range 8).map (48 + ·))
  | .ldN8 p d b _ | .ldN16 p d b _ | .ldN32 p d b _ | .ldN64 p d b _ | .ldsI8 p d b _ | .ldsI16 p d b _ | .ldsI32 p d b _ =>
    predUse p [b.toNat, useBuffer] [d.toNat, useAccess]
  | .stN8 p d b _ | .stN16 p d b _ | .stN32 p d b _ | .stN64 p d b _ => predUse p [b.toNat, d.toNat] [useBuffer]
  | .ldv p d b _ => laneUse p [b.toNat, useBuffer] [useV d, useAccess]
  | .stv p d b _ => laneUse p [b.toNat, useV d] [useBuffer]
  | .ldp p d a b _ _ => predUse p [a.toNat, b.toNat, useBuffer] [d.toNat, d.toNat + 1, useAccess]
  | .stp p d a b _ _ => predUse p [a.toNat, b.toNat, d.toNat, d.toNat + 1] [useBuffer]
  | .ldx p d a b _ _ => laneUse p [a.toNat, useV b, useBuffer] [useV d, useAccess]
  | .stx p d a b _ _ => laneUse p [a.toNat, useV b, useV d] [useBuffer]
  | .amo p d a b _ => predUse p [a.toNat, b.toNat] [d.toNat, useBuffer]
  | .rld p d a b _ _ _ | .vld p d a b _ _ _ => predUse p [a.toNat, b.toNat] [d.toNat, useFlags, useBuffer, useAccess]
  | .rst p d a b _ _ _ => predUse p [a.toNat, b.toNat, d.toNat] [useFlags, useBuffer, useAccess]
  | .ramo p d a b _ => predUse p [a.toNat, b.toNat] [d.toNat, useFlags, useBuffer, useAccess]
  | .rcpy p a b c => predUse p [a.toNat, b.toNat, c.toNat] [useFlags, useBuffer, useAccess]
  | .vst p a b _ _ _ | .vrecl p a b _ _ _ => predUse p [a.toNat, b.toNat] [useFlags, useBuffer, useAccess]
  | .fence p _ | .qfence p _ => predUse p [] [useBuffer]
  | .send p d a b _ | .sendv p d a b _ | .spawn p d a b _ | .qpush p d a b _ | .qpop p d a b =>
    predUse p [a.toNat, b.toNat] [d.toNat, useFlags, useBuffer, useAccess]
  | .qpopFwd p d a | .qpopLen p d a => predUse p [a.toNat] [d.toNat, useFlags, useBuffer, useAccess]
  | .reply p a b | .replySt p a b | .replyKey p a b | .tinc p a b | .tdec p a b | .tarm p a b => predUse p [a.toNat, b.toNat] [useFlags, useBuffer]
  | .trd p d a => predUse p [a.toNat] [d.toNat, useFlags, useBuffer, useAccess]
  | .keya p d | .keyaNb p d _ => predUse p [] [d.toNat, useKeys]
  | .keyf p a _ => predUse p [a.toNat] [useBuffer]
  | .waitany p d a _ | .waitall p d a _ | .ffr p d a _ => predUse p [a.toNat, useKeys] [d.toNat, useAccess]
  | .trigger p => predUse p [] [useFlags, useBuffer]
  | .mxLease p d _ | .mxRawStat p d => predUse p [useKeys] [d.toNat, useFlags, useBuffer, useAccess]
  | .mxRel p => predUse p [useKeys] [useFlags, useBuffer, useAccess]
  | .mxCtx p a => predUse p [a.toNat, useKeys] [useFlags, useBuffer, useAccess]
  | .mxA p d a | .mxB p d a | .mxZero p d a | .mxRawCell p d a => predUse p [a.toNat, useKeys] [d.toNat, useFlags, useBuffer, useAccess]
  | .mxRun p d a b | .mxDrain p d a b _ | .mxDrainMsg p d a b _ | .mxSort p d a b _ =>
    predUse p [a.toNat, b.toNat, useKeys] [d.toNat, useFlags, useBuffer, useAccess]
  | .strmGo p d a b _ | .strmExt p d a b | .colRed p d a b | .colBc p d a b | .sealFrame p d a b =>
    predUse p [a.toNat, b.toNat, useKeys] [d.toNat, useFlags, useBuffer, useAccess]
  | .strmStop p d a | .sealOpen p d a | .sealClose p d a => predUse p [a.toNat, useKeys] [d.toNat, useFlags, useBuffer, useAccess]
  | .vadd p d a b _ | .vsub p d a b _ | .vmul p d a b _ | .vfma p d a b _ | .vfms p d a b _ | .vmin p d a b _ | .vmax p d a b _
  | .vcvt p d a b _ _ | .vshl p d a b _ _ | .vshr p d a b _ _ | .viadd p d a b _ _ | .vimul p d a b _ _
  | .vperm p d a b | .vand p d a b | .vor p d a b | .vxor p d a b => laneUse p [useV a, useV b, useFlags] [useV d]
  | .vabs p d a _ | .vneg p d a _ | .vsqrt p d a _ | .vpackb p d a _ | .vunpackb p d a _ | .vrcpa p d a | .vrsqa p d a | .vexp2a p d a | .vlog2a p d a
  | .vred p d a _ _ | .vbcast p d a _ | .vcompact p d a | .vexpand p d a => laneUse p [useV a, useFlags] [useV d]
  | .vcmp p d a b _ _ => laneUse p [useV a, useV b, useFlags] [useQ d]
  | .vsel p d a b t => laneUse p [useV a, useV b, useQ t, useFlags] [useV d]
  | .vidx p d _ _ | .vldm p d _ _ => laneUse p [useFlags] [useV d]
  | .vmovg p a _ d => laneUse p [useV a] [d.toNat]
  | .vmovgQ p a d | .qpopc p a d => laneUse p [useQ a] [d.toNat]
  | .vmovl p d g => laneUse p [g.toNat, useFlags] [useV d]
  | .vmovlQ p d g => laneUse p [g.toNat] [useQ d]
  | .vstm p a g => laneUse p [useV a, g.toNat] [useBuffer]
  | .qand p d a b | .qor p d a b => laneUse p [useQ a, useQ b] [useQ d]
  | .qnot p d a => laneUse p [useQ a] [useQ d]
  | .latPatch p a | .latSave p a | .latRest p a | .latRun p a | .latStop p a => predUse p [a.toNat] [useUnit, useBuffer, useAccess]
  | .latSet p a b _ | .latInj p a b | .latStep p a b | .latClk p a b => predUse p [a.toNat, b.toNat] [useUnit]
  | .latGet p d a _ => predUse p [a.toNat] [d.toNat, useUnit]
  | .latRdv p d a _ => predUse p [a.toNat] [useV d, useUnit]
  | .latStat p d | .latStatClr p d => predUse p [] [d.toNat, useUnit]
  | .xn _ p d a b c => laneUse p [useV a, useV b, useV c, useFlags] [useV d, useV (d + 1), useV (d + 2), useV (d + 3), useUnit]
  | _ => ⟨[], [useAll]⟩

/-- Two instructions act on nothing that one of them claims; g0 and p0 take no write (R181). -/
def Use.apart (a b : Use) : Bool :=
  let meets (x y : List Nat) : Bool := x.any (fun r => r != 0 && r != 48 && y.contains r)
  !meets a.claims b.claims && !meets a.claims b.shares && !meets a.shares b.claims

/-- A word may issue before an earlier one of its block: nothing that one of them claims concerns the other, so that the outcome is the one of program order (R175; log 4). -/
def mayPass (earlier later : BitVec 32) : Bool :=
  match decode earlier, decode later with
  | .ok i, .ok j => (useOf i).apart (useOf j)
  | _, _ => false

end Sys2Proof.Machine
end

