-- ==== Sys2Proof/Machine/Dispatcher.lean ====
section
/-! DEFINITION. The dispatcher and the system context's queue (R37, R153 to R156, R161, R165, R184, R358, R387, R395, R396, R461, R462, Table 2-8). -/

namespace Sys2Proof.Machine

/-! Binding a context (R155, R184). -/

/-- Every g and v register is full, with its value (R184). -/
def Regs.allFull (r : Regs) : Regs := { r with g := r.g.map (fun x => ⟨x.val, .full⟩), v := r.v.map (fun x => ⟨x.lanes, .full⟩) }

/-- The flags that all inputs carry in XF (R155). -/
def inputFlags (l : List Packet) : BitVec 5 := l.foldl (fun a m => a ||| .ofNat 5 (fieldOf m.w0 7 3)) 0

/-- The lanes of a run, as q0 takes them (R155). -/
def runMask (n : Nat) : Lane := .ofNat 32 (2 ^ n - 1)

/-- The context as an invocation begins on it (R155). -/
def Ctx.begin (x : Ctx) (node k job : Nat) (serial : Word) (h : HandlerEntry) (index : Nat) (e : QEntry) (logged : Option Nat) : Ctx :=
  let r := x.regs.allFull
  { x with
    status := .live
    regs := { r.setG 29 (wordOf (stackBase node k + 0x800)) with q := r.q.setIfInBounds 0 (runMask e.run), flags := inputFlags e.inputs }
    pc := h.entry
    block := none
    retire := []
    jobid := job
    fpmode := h.mode
    invser := serial
    budgetLeft := if k = 10 then 0 else h.budget
    budgetOn := k != 10 && h.budget != 0
    held := []
    hasp := .none
    haspCnt := 0
    report := none
    yieldEnd := none
    rankLast := false
    commit := none
    miss := none
    acquire := []
    parity := []
    invocation := some { entry := e, handler := index, arity := h.arity, budget := h.budget, logged := logged,
                         hinge := h.hinge, source := h.source, retry := h.retry } }

/-- A context of the core takes an invocation: the serial rises by one, and counter 0 counts a dispatch to a handler context (R155, R366). -/
def State.bind (s : State) (node k job : Nat) (h : HandlerEntry) (index : Nat) (e : QEntry) (logged : Option Nat) : State :=
  let c := s.core node
  let c1 := c.setCtx k ((c.ctx k).begin node k job c.serial h index e logged)
  s.setCore node ({ c1 with serial := c1.serial + 1 }.count 0 (bitNat (k != 10)))

/-! Selection (R165). -/

/-- The lowest-numbered Free handler context. -/
def Core.freeCtx (c : Core) : Option Nat := (List.range 10).find? (fun k => (c.ctx k).status == .free)

/-- The dispatcher may take the entry: while pre-emption is armed it passes over source handlers (R165, R395). -/
def State.takes (s : State) (node : Nat) (e : QEntry) : Bool :=
  !(s.core node).hinge.arm || e.unrouted || !(((s.codeOf node e).map HandlerEntry.source).getD false)

/-- The position of the first entry of a priority that may be taken. -/
def State.firstTaken (s : State) (node p : Nat) : Option Nat := ((s.core node).q.queueAt p).findIdx? (s.takes node)

/-- A priority counts as non-empty (R165). -/
def State.nonEmpty (s : State) (node p : Nat) : Bool :=
  let q := (s.core node).q
  !q.pausedAt p &&
  (if (q.queueAt p).isEmpty then !(q.spillAt p).isEmpty || (q.refillAt p).isSome else (s.firstTaken node p).isSome)

/-- The priority to be served, and AGE afterwards (R165). -/
def State.selectPri (s : State) (node : Nat) : Option (Nat × Nat) :=
  let l := (List.range 4).filter (s.nonEmpty node)
  let age := (s.core node).q.age
  match l with
  | [] => none
  | [p] => some (p, 0)
  | p :: p2 :: _ => if age = 64 then some (p2, 0) else some (p, age + 1)

/-- A poisoned handler entry pauses dispatch at the priority, for the queue entry at a position (Table 2-8). -/
def State.pausePri (s : State) (node p i h : Nat) : State :=
  let c := s.core node
  (s.setCore node { c with q := (c.q.setQueue p ((c.q.queueAt p).modify i (fun e => { e with stuck := true }))).setPaused p true }).notice node 0x2E 15 0 (wordOf (h % 256 + p * 256))

/-- The inputs whose scaled flag disagrees with SCX (R161). -/
def scaledWrong (h : HandlerEntry) (e : QEntry) : Nat :=
  maskOf ((List.range e.inputs.length).filter (fun i => flagOf ((e.inputs.getD i Packet.none).w0) 8 != bitAt h.scx i))

/-- The entry at a position of a priority's queue leaves it; AGE takes its new value. -/
def Core.takeAt (c : Core) (p i age : Nat) : Core :=
  { c with q := { c.q.setQueue p ((c.q.queueAt p).eraseIdx i) with age := age } }

/-- The entry at a position is dispatched, or delivered to the system context (R153, R161, R165). -/
def State.dispatchAt (s : State) (node p i age : Nat) (e : QEntry) : State :=
  if s.codePoison node e then s.pausePri node p i e.head
  else
    let s1 := s.setCore node ((s.core node).takeAt p i age)
    match s1.codeOf node e with
    | none => s1.noticeWith node 0x30 0 e.inputs
    | some h =>
      if scaledWrong h e ≠ 0 then s1.noticeWith node 0x31 (wordOf (scaledWrong h e)) e.inputs
      else
        match (s.core node).freeCtx with
        | none => s
        | some k =>
          let (logged, s2) := s1.logAppend node p e
          let s3 := s2.bind node k (((s.quad node).job).getD 0) h (s1.codeIndex node e) e logged
          s3.traceIf ((s3.core node).traces 3) node k 1 (e.head + p * 256) h.entry 0 []

/-- An unrouted message at the head is read again: it pauses the priority, is routed with its stamp and the clk of its arrival, or is found to be plain; a plain one is dispatched where the selection asks for it and may take it, and else keeps its place (R395, R454, Table 2-8). -/
def State.dispatchUnrouted (s : State) (node p i age : Nat) (e : QEntry) (go : Bool) : State :=
  let m := e.inputs.headD Packet.none
  if s.handlerPoison node e.head then s.pausePri node p i e.head
  else
    let c := s.core node
    match (s.setCore node (c.takeAt p i age)).routeMessage node m e.stamp e.since with
    | some (some f, _) =>
      let g := { f with retries := e.retries }
      let t := s.setCore node { c with q := c.q.setQueue p ((c.q.queueAt p).set i g) }
      if go ∧ t.takes node g then t.dispatchAt node p i age g else t
    | some (none, t) => t
    | none => s

/-- One selection of a core that is not in replay (R165). -/
def State.dispatchNext (s : State) (node : Nat) : State :=
  match s.selectPri node with
  | none => s
  | some (p, age) =>
    match s.firstTaken node p with
    | none => s
    | some i =>
      match ((s.core node).q.queueAt p)[i]? with
      | none => s
      | some e => if e.unrouted then s.dispatchUnrouted node p i age e true else s.dispatchAt node p i age e

/-- The priority, place and entry that match entry k of the replay log (R462). -/
def State.replayHit (s : State) (node k : Nat) : Option (Nat × Nat × QEntry) :=
  let c := s.core node
  let w := s.logEntry node k
  let p := fieldOf w 41 40
  let hit (e : QEntry) : Bool := !e.unrouted && e.head == fieldOf w 39 32 && (s.quad node).job == some (fieldOf w 53 42) && digest c.wkdesc e == s.logDigest node k
  match (c.q.queueAt p).findIdx? hit with
  | some i => ((c.q.queueAt p)[i]?).map (fun e => (p, i, e))
  | none => none

/-- The wait for the expected entry begins: withdrawn entries are passed over, and the timeout runs from now (R462, R463). -/
def State.expectEntry (s : State) (node : Nat) : State :=
  let c := s.core node
  let k := s.expectedEntry node
  let s0 := s.setCore node { c with dbg := { c.dbg with replayPos := k } }
  if c.dbg.replayWait.isSome ∨ s.logCount node ≤ k then s0
  else (s0.setCore node { c with dbg := { c.dbg with replayPos := k, replayWait := some s.clk } }).after
    (max 1 (fieldOf c.dbg.replayctl 31 16) * 1024) (.replayTimeout node s.clk)

/-- One selection of a core in replay (R462, R463): an unrouted head is read again first, and an entry is used up only when it is dispatched. -/
def State.dispatchReplay (s : State) (node : Nat) : State :=
  let c := s.core node
  let k := c.dbg.replayPos
  match (List.range 4).find? (fun p => !c.q.pausedAt p && (((c.q.queueAt p).head?).map QEntry.unrouted).getD false) with
  | some p =>
    match (c.q.queueAt p).head? with
    | some e => s.dispatchUnrouted node p 0 c.q.age e false
    | none => s
  | none =>
    if s.logCount node ≤ k then
      if s.logTrunc node then s.leaveReplay node 1
      else if (List.range 4).any (fun p => !(c.q.queueAt p).isEmpty) then s.diverge node false
      else s
    else
      match s.replayHit node k with
      | some (p, i, e) =>
        if c.q.pausedAt p ∨ !s.takes node e then s
        else if s.codePoison node e then s.pausePri node p i e.head
        else
          ((s.setCore node { c with dbg := { c.dbg with replayPos := k + 1, replayWait := none } }).dispatchAt node p i c.q.age e).expectEntry node
      | none => s

/-- The dispatcher of a core is stopped: it is landed or fenced, its job is frozen, or no context is Free (R165, R391, R396, R465). -/
def State.dispatchStops (s : State) (node : Nat) : Bool :=
  let c := s.core node
  c.hinge.landed || c.fenced || (s.quad node).restoring || (((s.quad node).job).map s.frozen).getD false || c.freeCtx.isNone

/-- DISPATCH (R165). -/
def execDispatch (node : Nat) (s : State) : Out :=
  let replay := (s.core node).replayMode == 2
  let s := if replay ∧ (s.quad node).job.isSome then s.expectEntry node else s
  if s.dispatchStops node then .next s
  else if replay then .next (s.dispatchReplay node)
  else .next (s.dispatchNext node)

/-! The system context (R156, R358, R386, R387). -/

/-- The trap class of a cause code (Table 17-1). -/
def trapClass (cause : Nat) : Nat :=
  if cause < 0x20 then 0
  else if cause < 0x28 then 1
  else if cause < 0x30 then 2
  else if cause < 0x38 then 3
  else if cause < 0x40 then 4
  else if cause < 0x48 then 5
  else if cause < 0x50 then 6
  else if cause < 0x58 then 7
  else if cause < 0x60 then 8
  else if cause < 0x68 then 9
  else if cause < 0x70 then 10
  else if cause < 0x78 then 11
  else if cause < 0x80 then 12
  else 13

def SysEntry.isMessage : SysEntry → Bool
  | .message _ => true
  | _ => false

/-- The system entry that an entry of the system queue names, its trap registers and its messages (R358, R384, R386). -/
def State.sysView (s : State) : SysEntry → Nat × TrapRegs × List Packet
  | .trap n k =>
    let t := (s.ctx n k).trap
    (0xE0 + trapClass (t.cause.toNat % 256), t, [])
  | .notice cause k addr info inputs => (0xE0 + trapClass cause, ⟨trapCause cause k true, addr, 0, info⟩, inputs)
  | .message m =>
    let record := nodeIsEnd m.src && nodeClass m.src == 0 && hidxOf m == 0xE5
    (hidxOf m, ⟨if record then trapCause 0x41 15 true else 0x1000, 0, 0, 0⟩, [m])

/-- The system context may take an entry: it runs none and is not parked (R387, R388). -/
def Core.systemIdle (c : Core) : Bool := (c.ctx 10).status == .free || (c.ctx 10).status == .draining

/-- SYSTEM_ENTRY_TAKE (R387). R179 asks the entry mark of a dispatch alone, so the first block of a system entry needs none. Table 2-8 gives no outcome for a poisoned handler-table entry 0xE0 or above that the system context takes: its stored bytes are used, which is the model's DESIGN CHOICE (log 94). -/
def execSystemEntryTake (node : Nat) (s : State) : Out :=
  let c := s.core node
  match c.sysq with
  | [] => .next s
  | e :: _ =>
    if c.systemIdle then
      let (index, trap, inputs) := s.sysView e
      let h := s.handler node index
      let q : QEntry := { inputs := inputs, head := index, tag := wkTag c.wkdesc ((inputs.headD Packet.none).w1) }
      let s1 := (s.setCore node (c.takeSys node)).bind node 10 (c.ctx 10).jobid h index q none
      let x := s1.ctx node 10
      .next (s1.setCtx node 10 { x with trap := trap
                                        invocation := x.invocation.map (fun i =>
                                          { i with arity := max i.arity (inputs.length - 1), fresh := false, keyless := !e.isMessage }) })
    else .next s

end Sys2Proof.Machine
end

