-- ==== Sys2Proof/Machine/Lattice.lean ====
section
/-! DEFINITION. The integrator lattice: its cells and clocks, its images, its queue, and opcodes 0xC0 to 0xCB (R329 to R349). -/

namespace Sys2Proof.Machine

/-! Parts of a lattice. -/

def Lattice.cell (l : Lattice) (c : Nat) : LatCell := agetD l.cells c {}
def Lattice.setCell (l : Lattice) (c : Nat) (x : LatCell) : Lattice := { l with cells := aset l.cells c x }
def Lattice.clock (l : Lattice) (k : Nat) : LatClock := l.clocks[k]?.getD {}
def Lattice.setClock (l : Lattice) (k : Nat) (x : LatClock) : Lattice := { l with clocks := l.clocks.setIfInBounds k x }
def Lattice.injAt (l : Lattice) (j : Nat) : LatInj := l.inj[j]?.getD {}
def Lattice.setInj (l : Lattice) (j : Nat) (x : LatInj) : Lattice := { l with inj := l.inj.setIfInBounds j x }

/-- The width w (R329). -/
def Lattice.width (l : Lattice) : Nat := 16 + 8 * l.wsel

/-- A lattice with its clocks, cells and registers at their values of a job load; its queue stays (R330). -/
def Lattice.cleared (l : Lattice) : Lattice := { queue := l.queue, nextId := l.nextId, faultAt := l.faultAt, fenced := l.fenced }

/-- A number of 32 bits as a signed integer. -/
def int32 (n : Nat) : Int := signExt n 32

/-- An increment's code (R329). -/
def incCode (x : Int) : Nat := if x = 1 then 1 else if x = -1 then 3 else 0

/-- The increment of a code; the invalid code is taken as 0 (R329, R343). -/
def incOf (c : Nat) : Int := if c % 4 = 1 then 1 else if c % 4 = 3 then -1 else 0

/-- The sign of an integer. -/
def signOf (x : Int) : Int := if 0 < x then 1 else if x < 0 then -1 else 0

/-! The network (R331). -/

/-- A source of a cell (Table 14-1). -/
inductive LatSource where
  | zero
  | cell (p : Nat)
  | tick
  | inj (j : Nat)
  | invalid
deriving DecidableEq, Repr

def sourceOf (code : Nat) : LatSource :=
  match code / 256 % 4, code % 256 with
  | 0, 0 => .zero
  | 1, p => .cell p
  | 2, 0 => .tick
  | 3, j => if j < 8 then .inj j else .invalid
  | _, _ => .invalid

/-- The source of an edge: 0 is dX, 1 to 4 are DY0 to DY3 (Table 14-4). -/
def edgeSource (net : Word) (i : Nat) : LatSource := sourceOf (fieldOf net (11 + 10 * i) (2 + 10 * i))

def LatCell.clk (c : LatCell) : Nat := fieldOf c.net 1 0

/-- The clock of an edge's producer. -/
def Lattice.producerClk (l : Lattice) : LatSource → Option Nat
  | .cell p => some (l.cell p).clk
  | .inj j => some (l.injAt j).clk
  | _ => none

/-- The edge has a crossing latch (R334). -/
def Lattice.hasLatch (l : Lattice) (c : LatCell) (i : Nat) : Bool :=
  match l.producerClk (edgeSource c.net i) with
  | some k => k != c.clk
  | none => false

def LatCell.latchAt (c : LatCell) (i : Nat) : Int := (c.latch[i]?).getD 0

/-! The step (R333, R334). -/

/-- The value of an edge at a step (Table 14-1). -/
def Lattice.edgeValue (l : Lattice) (c : LatCell) (i : Nat) : Int :=
  if l.hasLatch c i then c.latchAt i
  else
    match edgeSource c.net i with
    | .cell p => (l.cell p).dz
    | .inj j => (l.injAt j).dl
    | .tick => 1
    | _ => 0

/-- dy of a step. -/
def Lattice.dySum (l : Lattice) (c : LatCell) : Int :=
  ((List.range 4).map (fun i => if flagOf c.net (52 + i) then - l.edgeValue c (i + 1) else l.edgeValue c (i + 1))).sum

/-- q of a step, before it is cut to the width. -/
def Lattice.newQ (l : Lattice) (c : LatCell) : Int := c.q + l.edgeValue c 0 * c.y.toInt

/-- dz of a step. -/
def Lattice.newDz (l : Lattice) (c : LatCell) : Int := l.newQ c / 2 ^ l.width

/-- What a cell or an injection register produces in a clk in which the listed clocks tick. -/
def Lattice.produced (l : Lattice) (ticks : List Nat) (src : LatSource) : Int :=
  match l.producerClk src with
  | some k =>
    if ticks.contains k then
      match src with
      | .cell p => l.newDz (l.cell p)
      | .inj j => signOf (l.injAt j).n
      | _ => 0
    else 0
  | none => 0

/-- The first fault of a cell: FC, FCLK and FSRC (R336). -/
def Lattice.cellFault (l : Lattice) (ticks : List Nat) (c : LatCell) : Option (Nat × Nat × Nat) :=
  let on := ticks.contains c.clk
  let y := c.y.toInt + l.dySum c
  if on && (decide (l.newDz c < -1) || decide (1 < l.newDz c)) then some (1, c.clk, 0)
  else if on && (decide (y < -2 ^ 31) || decide (2 ^ 31 - 1 < y)) then some (2, c.clk, 0)
  else
    ((List.range 5).find? (fun i => l.hasLatch c i && !on && c.latchAt i != 0 && l.produced ticks (edgeSource c.net i) != 0)).map
      (fun i => (3, (l.producerClk (edgeSource c.net i)).getD 0, i))

/-- A cell after a clk without a fault: its step, consumptions, then deposits. -/
def Lattice.stepCell (l : Lattice) (ticks : List Nat) (c : LatCell) : LatCell :=
  let on := ticks.contains c.clk
  let latch := Vector.ofFn (fun i : Fin 5 =>
    let x := if l.hasLatch c i.val then l.produced ticks (edgeSource c.net i.val) else 0
    if x ≠ 0 then x else if on then 0 else c.latchAt i.val)
  if on then
    { c with
      q := (l.newQ c % 2 ^ l.width).toNat
      y := .ofInt 32 (c.y.toInt + l.dySum c)
      z := c.z + .ofInt 32 (l.newDz c)
      dz := l.newDz c
      latch := latch }
  else { c with latch := latch }

/-- An injection register at a tick of its clock (R335). -/
def LatInj.step (j : LatInj) (ticks : List Nat) : LatInj :=
  if ticks.contains j.clk then { j with dl := signOf j.n, n := j.n - signOf j.n } else j

/-- Step 4 of a clk: every step is performed (R336). -/
def Lattice.performTicks (l : Lattice) (ticks : List Nat) : Lattice :=
  { l with
    cells := l.cells.map (fun (e : Nat × LatCell) => (e.1, l.stepCell ticks e.2))
    inj := l.inj.map (fun (j : LatInj) => j.step ticks)
    clocks := Vector.ofFn (fun k : Fin 4 => if ticks.contains k.val then { l.clocks[k] with tk := (l.clocks[k].tk + 1) % 2 ^ 32 } else l.clocks[k]) }

/-- The first fault of a clk: FC, FCELL, FCLK and FSRC (R336). -/
def Lattice.firstFault (l : Lattice) (ticks : List Nat) : Option (Nat × Nat × Nat × Nat) :=
  l.cells.findSome? (fun (e : Nat × LatCell) => (l.cellFault ticks e.2).map (fun (f : Nat × Nat × Nat) => (f.1, e.1, f.2.1, f.2.2)))

/-- LATSTAT (Table 14-2). -/
def Lattice.latstat (l : Lattice) : Word :=
  let sum (f : LatClock → Bool) : Nat := ((List.range 4).map (fun k => bitNat (f (l.clock k)) * 2 ^ k)).sum
  wordOf (sum (fun c => c.run) + sum (fun c => c.instr) * 2 ^ 4 + l.wsel % 4 * 2 ^ 8 + bitNat l.isat * 2 ^ 10 + l.fc % 16 * 2 ^ 12 +
    l.fcell % 256 * 2 ^ 16 + l.fclk % 4 * 2 ^ 24 + l.fsrc % 8 * 2 ^ 26 + l.ftk % 2 ^ 32 * 2 ^ 32)

/-- A clock's phase after step 1, and whether it ticks (R332). -/
def LatClock.phase (c : LatClock) : Nat × Bool :=
  if c.run ∧ !c.instr then (if c.divm < c.ph + 1 then (0, true) else (c.ph + 1, false)) else (c.ph, false)

/-- The clocks that tick in a clk, with the mask that a LAT.STEP in performance gives. -/
def Lattice.ticking (l : Lattice) (mask : Nat) : List Nat :=
  (List.range 4).filter (fun k => (l.clock k).phase.2 || (bitAt mask k && (l.clock k).run && (l.clock k).instr))

/-- The instruction at the head of the queue takes part in a clk (R339). -/
def Lattice.headDue (l : Lattice) (clk : Nat) : Option LatOp :=
  match l.queue with
  | o :: _ => if o.issued < clk then some o else none
  | [] => none

/-- LAT.PATCH, LAT.SAVE and LAT.REST (R339). -/
def LatOp.isTransfer (o : LatOp) : Bool := o.op == 0xC0 || o.op == 0xC9 || o.op == 0xCA

def LatOp.isStep (o : LatOp) : Bool := o.op == 0xC5

/-- Clocks advance in a clk: not while a transfer is under way (R338, R339). -/
def Lattice.clocksMove (l : Lattice) (clk : Nat) : Bool :=
  !l.fenced && !((l.headDue clk).map (fun o => o.isTransfer)).getD false &&
  ((List.range 4).any (fun k => (l.clock k).run && !(l.clock k).instr) || ((l.headDue clk).map (fun o => o.isStep)).getD false)

/-- LATTICE_CLOCK_TICK (R332, R333, R336): steps 1 to 4 of a clk; a fault stops every clock and ends a LAT.STEP. -/
def execLatticeClockTick (node : Nat) (s : State) : Out :=
  let c := s.core node
  let l := c.lattice
  if !l.clocksMove s.clk then .next s
  else
    let mask := match l.headDue s.clk with
      | some o => if o.isStep then fieldOf o.a 3 0 else 0
      | none => 0
    let ticks := l.ticking mask
    match l.firstFault ticks with
    | some (fc, cell, k, src) =>
      let queue := match l.headDue s.clk with
        | some o => if o.isStep then l.queue.drop 1 else l.queue
        | none => l.queue
      let l1 := { l with
        clocks := l.clocks.map (fun (x : LatClock) => { x with run := false })
        fc := fc, fcell := cell, fclk := k, fsrc := src, ftk := (l.clock k).tk, queue := queue, faultAt := some s.clk }
      .next ((s.setCore node { c with lattice := l1 }).notice node 0x58 15 0 l1.latstat)
    | none =>
      let l1 := { l with clocks := l.clocks.map (fun (x : LatClock) => { x with ph := x.phase.1 }) }
      .next (s.setCore node { c with lattice := l1.performTicks ticks })

/-! Images (R340, R341, R349). -/

/-- Bytes of a lattice image. -/
def imageSize : Nat := 0x1900

/-- The lattice that an image describes; without the cell state and the counts where they are not read (R349). -/
def Lattice.ofImage (l : Lattice) (bs : List Byte) (rest : Bool) : Lattice :=
  let init := rest || bitAt (numAt bs 0 8) 2
  let stat := wordAt bs 8
  let clock (k : Nat) : LatClock :=
    let w := wordAt bs (16 + 8 * k)
    { instr := flagOf w 0, run := rest && flagOf w 1, divm := fieldOf w 17 2
      ph := if rest then fieldOf w 33 18 else 0, tk := if rest then numAt bs (48 + 4 * k) 4 else 0 }
  let reg (j : Nat) : LatInj :=
    let w := wordAt bs (64 + 8 * j)
    { clk := fieldOf w 33 32, n := if rest then int32 (fieldOf w 31 0) else 0, dl := if rest then incOf (fieldOf w 35 34) else 0 }
  let cell (c : Nat) : LatCell :=
    let net := wordAt bs (0x100 + 8 * c)
    if init then
      let b := (bs.drop (0x900 + 16 * c)).take 16
      let w := numAt b 12 4
      { net := net, y := .ofNat 32 (numAt b 0 4), q := numAt b 4 4, z := .ofNat 32 (numAt b 8 4), dz := incOf w
        latch := Vector.ofFn (fun i : Fin 5 => incOf (w / 4 ^ (i.val + 1))) }
    else { net := net }
  { l.cleared with
    wsel := numAt bs 0 1 % 4
    clocks := Vector.ofFn (fun k : Fin 4 => clock k.val)
    inj := Vector.ofFn (fun j : Fin 8 => reg j.val)
    cells := ((List.range 256).map (fun c => (c, cell c))).filter (fun (e : Nat × LatCell) => e.2 != {})
    isat := rest && flagOf stat 10
    fc := if rest then fieldOf stat 15 12 else 0
    fcell := if rest then fieldOf stat 23 16 else 0
    fclk := if rest then fieldOf stat 25 24 else 0
    fsrc := if rest then fieldOf stat 28 26 else 0
    ftk := if rest then fieldOf stat 63 32 else 0 }

/-- The first index below n that fails a check. -/
def firstBad (n : Nat) (p : Nat → Bool) : Option Nat := (List.range n).find? (fun k => !p k)

/-- Check 5 of R341 for one cell. -/
def cellGood (l : Lattice) (bs : List Byte) (c : Nat) : Bool :=
  let b := (bs.drop (0x900 + 16 * c)).take 16
  let w := numAt b 12 4
  decide (numAt b 4 4 < 2 ^ l.width) && decide (w < 2 ^ 12) &&
  (List.range 6).all (fun i => w / 4 ^ i % 4 != 2) &&
  (List.range 5).all (fun i => w / 4 ^ (i + 1) % 4 == 0 || l.hasLatch (l.cell c) i)

/-- The first check of R341 that fails: its reason and index. -/
def imageFault (l : Lattice) (bs : List Byte) (rest : Bool) : Option (Nat × Nat) :=
  let w0 := wordAt bs 0
  let stat := wordAt bs 8
  let clock (k : Nat) : Bool :=
    let w := wordAt bs (16 + 8 * k)
    fieldOf w 63 34 == 0 && (!rest || decide (fieldOf w 33 18 ≤ fieldOf w 17 2))
  let reg (j : Nat) : Bool :=
    let w := wordAt bs (64 + 8 * j)
    fieldOf w 63 36 == 0 && (!rest || fieldOf w 35 34 != 2)
  let net (c : Nat) : Bool :=
    let w := wordAt bs (0x100 + 8 * c)
    fieldOf w 63 56 == 0 && (List.range 5).all (fun i => edgeSource w i != .invalid)
  if fieldOf w0 15 3 ≠ 0 ∨ fieldOf w0 63 32 ≠ 0 ∨ fieldOf w0 1 0 = 3 ∨ !((bs.drop 128).take 128).all (fun (b : Byte) => b == 0) ∨
      (rest ∧ (flagOf stat 11 ∨ fieldOf stat 31 29 ≠ 0)) then some (1, 0)
  else
    match firstBad 4 clock, firstBad 8 reg, firstBad 256 net with
    | some k, _, _ => some (2, k)
    | none, some j, _ => some (3, j)
    | none, none, some c => some (4, c)
    | none, none, none =>
      if rest ∨ flagOf w0 2 then (firstBad 256 (cellGood (l.ofImage bs rest) bs)).map (fun c => (5, c)) else none

/-- The bytes of the image that LAT.SAVE writes; ID and INIT are no state of the lattice and take open values (R340, R349). -/
def Lattice.image (l : Lattice) (openBits : Word) : List Byte :=
  let clock (k : Nat) : List Byte :=
    let c := l.clock k
    bytesOfNat 8 (bitNat c.instr + bitNat c.run * 2 + c.divm % 65536 * 4 + c.ph % 65536 * 2 ^ 18)
  let reg (j : Nat) : List Byte :=
    let x := l.injAt j
    bytesOfNat 8 ((x.n % 2 ^ 32).toNat + x.clk % 4 * 2 ^ 32 + incCode x.dl * 2 ^ 34)
  let cell (c : Nat) : List Byte :=
    let x := l.cell c
    bytesOfNat 4 x.y.toNat ++ bytesOfNat 4 x.q ++ bytesOfNat 4 x.z.toNat ++
      bytesOfNat 4 (incCode x.dz + ((List.range 5).map (fun i => incCode (x.latchAt i) * 4 ^ (i + 1))).sum)
  bytesOfNat 8 (l.wsel % 4 + bitNat (flagOf openBits 2) * 4 + fieldOf openBits 31 16 * 65536) ++ bytesOfWord l.latstat ++
  (List.range 4).flatMap clock ++ (List.range 4).flatMap (fun k => bytesOfNat 4 (l.clock k).tk) ++ (List.range 8).flatMap reg ++
  List.replicate 128 0 ++ (List.range 256).flatMap (fun c => bytesOfWord (l.cell c).net) ++ (List.range 256).flatMap cell

/-! The instruction at the head of the queue (R336 step 5, R339, R343 to R349). -/

/-- A result of the lattice or the patch reaches its g register, in the block's copy or in both (R178, R182, R339). -/
def State.fillG (s : State) (node : Nat) (u : Awaited) (reg : Nat) (w : Word) : State :=
  if u.dropped then s
  else
    let x := s.ctx node u.ctx
    let x1 := { x with regs := x.regs.setG reg w }
    s.setCtx node u.ctx (if u.inBlock then x1 else { x1 with block := x1.block.map (fun b => { b with entry := b.entry.setG reg w }) })

/-- A result of the lattice or the patch reaches its v register (R178, R182, R316, R339). -/
def State.fillV (s : State) (node : Nat) (u : Awaited) (reg : Nat) (w : Vector Lane 32) : State :=
  if u.dropped then s
  else
    let x := s.ctx node u.ctx
    let x1 := { x with regs := x.regs.setV reg w }
    s.setCtx node u.ctx (if u.inBlock then x1 else { x1 with block := x1.block.map (fun b => { b with entry := b.entry.setV reg w }) })

/-- Cell word 3, bits [11:0] (Table 14-5). -/
def LatCell.word3 (x : LatCell) : Nat := incCode x.dz + ((List.range 5).map (fun i => incCode (x.latchAt i) * 4 ^ (i + 1))).sum

/-- What LAT.GET gives (R343). -/
def Lattice.get (l : Lattice) (a : Word) (f : Nat) : Word :=
  let x := l.cell (fieldOf a 7 0)
  match f with
  | 0 => wordOfInt x.y.toInt
  | 1 => wordOf x.q
  | 2 => wordOfInt x.z.toInt
  | 3 => wordOf x.word3
  | 4 => wordOf (l.clock (fieldOf a 1 0)).tk
  | _ => wordOfInt (l.injAt (fieldOf a 2 0)).n

/-- What LAT.SET writes (R343). -/
def Lattice.set (l : Lattice) (a b : Word) (f : Nat) : Lattice :=
  let c := fieldOf a 7 0
  let x := l.cell c
  let v := fieldOf b 31 0
  match f with
  | 0 => l.setCell c { x with y := .ofNat 32 v }
  | 1 => l.setCell c { x with q := v % 2 ^ l.width }
  | 2 => l.setCell c { x with z := .ofNat 32 v }
  | 3 => l.setCell c { x with
      dz := incOf v
      latch := Vector.ofFn (fun i : Fin 5 => if l.hasLatch x i.val then incOf (v / 4 ^ (i.val + 1)) else x.latch[i]) }
  | 4 => l.setClock (fieldOf a 1 0) { l.clock (fieldOf a 1 0) with tk := v }
  | _ => l.setInj (fieldOf a 2 0) { l.injAt (fieldOf a 2 0) with n := int32 v }

/-- What LAT.RDV gives (R343). -/
def Lattice.row (l : Lattice) (a : Word) (f : Nat) : Vector Lane 32 :=
  Vector.ofFn (fun k : Fin 32 =>
    let x := l.cell (fieldOf a 7 0 + k.val)
    match f with
    | 0 => x.y
    | 1 => .ofNat 32 x.q
    | _ => x.z)

/-- LAT.INJ (R344). -/
def Lattice.inject (l : Lattice) (j : Nat) (amount : Int) : Lattice :=
  let x := l.injAt j
  let n := x.n + amount
  let v := max (-2 ^ 31) (min (2 ^ 31 - 1) n)
  { l.setInj j { x with n := v } with isat := l.isat || v != n }

/-- LAT.RUN (R346). -/
def Lattice.start (l : Lattice) (mask : Nat) : Lattice :=
  if l.fc ≠ 0 then l
  else { l with clocks := Vector.ofFn (fun k : Fin 4 =>
    if bitAt mask k.val ∧ !l.clocks[k].run then { l.clocks[k] with run := true, ph := 0 } else l.clocks[k]) }

/-- LAT.STOP (R346). -/
def Lattice.stop (l : Lattice) (mask : Nat) : Lattice :=
  { l with clocks := Vector.ofFn (fun k : Fin 4 => if bitAt mask k.val then { l.clocks[k] with run := false } else l.clocks[k]) }

/-- LAT.CLK (R346). -/
def Lattice.setMode (l : Lattice) (k : Nat) (b : Word) : Lattice :=
  l.setClock k { l.clock k with instr := flagOf b 0, divm := fieldOf b 16 1, ph := 0 }

/-- LAT.STAT.clr (R347). -/
def Lattice.clearStat (l : Lattice) : Lattice := { l with isat := false, fc := 0, fcell := 0, fclk := 0, fsrc := 0, ftk := 0 }

/-- The state with the lattice of a core changed. -/
def State.setLattice (s : State) (node : Nat) (l : Lattice) : State := s.setCore node { s.core node with lattice := l }

/-- The block that waits for a transfer learns how it ended (R348). -/
def State.endTransfer (s : State) (node : Nat) (o : LatOp) (t : Transfer) : State :=
  let x := s.ctx node o.dest.ctx
  s.setCtx node o.dest.ctx { x with block := x.block.map (fun b =>
    if b.transfer = some (o.id, .waiting) then { b with transfer := some (o.id, t) } else b) }

/-- The work of a transfer in its first clk (R339, R348, R349). -/
def State.transfer (s : State) (node : Nat) (o : LatOp) : State × Transfer :=
  let l := (s.core node).lattice
  let pa := localPhys node o.a.toNat
  if o.op = 0xC9 then ((writeUnits s pa (l.image (Config.openWord s.free))).1.useOpen, .done)
  else if anyPoison s pa imageSize then (s, .failed 0x2A none (some 0))
  else
    let bs := Memory.readN s.mem pa imageSize
    let rest := o.op == 0xCA
    match imageFault l bs rest with
    | some (why, k) => (s, .failed 0x0F none (some (wordOf (why + o.op * 256 + k * 65536))))
    | none => (s.setLattice node (l.ofImage bs rest), .done)

/-- The instruction at the head is performed; it has left the queue. -/
def State.performLat (s : State) (node : Nat) (o : LatOp) : State :=
  let l := (s.core node).lattice
  match o.op with
  | 0xC1 => s.setLattice node (l.set o.a o.b o.f)
  | 0xC2 => s.fillG node o.dest o.reg (l.get o.a o.f)
  | 0xC3 => s.fillV node o.dest o.reg (l.row o.a o.f)
  | 0xC4 => s.setLattice node (l.inject (fieldOf o.a 2 0) (int32 (fieldOf o.b 31 0)))
  | 0xC6 => s.setLattice node (l.setMode (fieldOf o.a 1 0) o.b)
  | 0xC7 => s.setLattice node (l.start (fieldOf o.a 3 0))
  | 0xC8 => s.setLattice node (l.stop (fieldOf o.a 3 0))
  | 0xCB => (if o.f = 1 then s.setLattice node l.clearStat else s).fillG node o.dest o.reg l.latstat
  | _ => s

/-- LATTICE_INSTRUCTION_PERFORM (R336, R339): the head of the queue; nothing in a clk that faulted. -/
def execLatticeInstructionPerform (node : Nat) (s : State) : Out :=
  let l := (s.core node).lattice
  match l.queue, l.headDue s.clk with
  | o :: r, some _ =>
    let popped := s.setLattice node { l with queue := r }
    if l.faultAt = some s.clk then .next s
    else if o.isStep then
      if o.left ≤ 1 then .next popped else .next (s.setLattice node { l with queue := { o with left := o.left - 1 } :: r })
    else if o.isTransfer then
      if o.started then
        if o.left ≤ 1 then .next (popped.endTransfer node o .done)
        else .next (s.setLattice node { l with queue := { o with left := o.left - 1 } :: r })
      else
        match s.transfer node o with
        | (t, .done) =>
          let l1 := (t.core node).lattice
          .next (t.setLattice node { l1 with queue := { o with started := true, left := Config.openChoice t.free } :: r }).useOpen
        | (t, e) => .next ((t.setLattice node { (t.core node).lattice with queue := r }).endTransfer node o e)
    else .next (popped.performLat node o)
  | _, _ => .next s

/-! Issue (R339, R342, R348). -/

/-- The lattice-operand fault (R342). -/
def latticeOperand (op reg : Nat) : Stop := .trap 0x0D none (some (wordOf (reg % 32 + op * 256)))

/-- An operand has no bit set outside its field, or the lattice-operand fault follows. -/
def needField (op : Nat) (reg : BitVec 5) (ok : Bool) : Res Unit := if ok then .ok () else .error (latticeOperand op reg.toNat)

/-- The value fits in n bits. -/
def within (w : Word) (n : Nat) : Bool := decide (w.toNat < 2 ^ n)

/-- The course of a LAT instruction: on a fenced lattice it raises the lattice-unavailable fault (R330). -/
def State.issueLat (s : State) (p : BitVec 4) (op : Nat) (srcs dsts : List Operand) (body : State → Res State) : Out :=
  if s.regs.qualified p ∧ s.myCore.lattice.fenced then .next (s.settle (.error (.trap 0x59 none none)))
  else s.issue p op srcs dsts body

/-- An instruction enters the lattice queue (R339). -/
def State.enterLattice (s : State) (op : Nat) (a b : Word) (f reg left : Nat) : State :=
  let l := s.myCore.lattice
  let o : LatOp := { id := l.nextId, op := op, a := a, b := b, f := f, reg := reg, dest := { ctx := s.curCtx }, issued := s.clk, left := left }
  s.setLattice s.cur { l with queue := l.queue ++ [o], nextId := l.nextId + 1 }

/-- The selector of LAT.SET and LAT.GET lies in its field (R343). -/
def selectorOk (a : Word) (f : Nat) : Bool := within a (if f = 4 then 2 else if f = 5 then 3 else 8)

/-- A transfer of a lattice image: checked and queued at its first attempt, and waited for (R348). -/
def State.issueTransfer (s : State) (op : Nat) (a : BitVec 5) (write : Bool) : Res State :=
  match s.block.transfer with
  | some (_, .done) => .ok (s.onBlock (fun b => { b with transfer := none }))
  | some (_, .failed c x i) => .error (.trap c x i)
  | some (_, .waiting) => .error .wait
  | none => do
    let la := (s.regs.gval a.toNat).toNat
    s.checkJobRegion op la imageSize write 256
    let id := s.myCore.lattice.nextId
    let t := s.enterLattice op (wordOf la) 0 0 0 0
    pure (t.onBlock (fun b => { b with transfer := some (id, .waiting) }))

/-- The course of a transfer: the instruction completes when the transfer has. -/
def State.latTransfer (s : State) (p : BitVec 4) (op : Nat) (a : BitVec 5) (write : Bool) : Out :=
  if s.regs.qualified p then
    if s.myCore.lattice.fenced then .next (s.settle (.error (.trap 0x59 none none)))
    else
      .next (match s.regs.checkSources op [gsrc a] with
        | .error e => s.settle (.error e)
        | .ok _ =>
          match s.issueTransfer op a write with
          | .ok t => if t.block.transfer.isSome then t.passOver else t.advance
          | .error e => s.settle (.error e))
  else .next s.advance

/-- LAT.PATCH (R348, R349). -/
def execLatPatch (p : BitVec 4) (a : BitVec 5) (s : State) : Out := s.latTransfer p 0xC0 a false

/-- LAT.SET (R343). -/
def execLatSet (p : BitVec 4) (a b : BitVec 5) (f : BitVec 5) (s : State) : Out :=
  s.issueLat p 0xC1 [gsrc a, gsrc b] [] (fun s => do
    let sel := s.regs.gval a.toNat
    needField 0xC1 a (selectorOk sel f.toNat)
    pure (s.enterLattice 0xC1 sel (s.regs.gval b.toNat) f.toNat 0 0))

/-- LAT.GET (R343). -/
def execLatGet (p : BitVec 4) (d a : BitVec 5) (f : BitVec 5) (s : State) : Out :=
  s.issueLat p 0xC2 [gsrc a] [.g d.toNat false] (fun s => do
    let sel := s.regs.gval a.toNat
    needField 0xC2 a (selectorOk sel f.toNat)
    pure ((s.enterLattice 0xC2 sel 0 f.toNat d.toNat 0).setRegs (s.regs.markG d.toNat .empty)))

/-- LAT.RDV (R343). -/
def execLatRdv (p : BitVec 4) (d : BitVec 4) (a : BitVec 5) (f : BitVec 5) (s : State) : Out :=
  s.issueLat p 0xC3 [gsrc a] [.v d.toNat false] (fun s => do
    let sel := s.regs.gval a.toNat
    needField 0xC3 a (within sel 8 && sel.toNat % 32 == 0)
    pure ((s.enterLattice 0xC3 sel 0 f.toNat d.toNat 0).setRegs (s.regs.markV d.toNat .empty)))

/-- LAT.INJ (R344): the amount is the field [31:0] of g[b] (log 73). -/
def execLatInj (p : BitVec 4) (a b : BitVec 5) (s : State) : Out :=
  s.issueLat p 0xC4 [gsrc a, gsrc b] [] (fun s => do
    let sel := s.regs.gval a.toNat
    let v := s.regs.gval b.toNat
    needField 0xC4 a (within sel 3)
    needField 0xC4 b (within v 32)
    pure (s.enterLattice 0xC4 sel v 0 0 0))

/-- LAT.STEP (R345); a mask of 0 occupies one clk. -/
def execLatStep (p : BitVec 4) (a b : BitVec 5) (s : State) : Out :=
  s.issueLat p 0xC5 [gsrc a, gsrc b] [] (fun s => do
    let m := s.regs.gval a.toNat
    let v := s.regs.gval b.toNat
    needField 0xC5 a (within m 4)
    needField 0xC5 b (within v 16)
    pure (s.enterLattice 0xC5 m v 0 0 (if m = 0 then 1 else v.toNat + 1)))

/-- LAT.CLK (R346). -/
def execLatClk (p : BitVec 4) (a b : BitVec 5) (s : State) : Out :=
  s.issueLat p 0xC6 [gsrc a, gsrc b] [] (fun s => do
    let k := s.regs.gval a.toNat
    let v := s.regs.gval b.toNat
    needField 0xC6 a (within k 2)
    needField 0xC6 b (within v 17)
    pure (s.enterLattice 0xC6 k v 0 0 0))

/-- LAT.RUN (R346). -/
def execLatRun (p : BitVec 4) (a : BitVec 5) (s : State) : Out :=
  s.issueLat p 0xC7 [gsrc a] [] (fun s => do
    needField 0xC7 a (within (s.regs.gval a.toNat) 4)
    pure (s.enterLattice 0xC7 (s.regs.gval a.toNat) 0 0 0 0))

/-- LAT.STOP (R346). -/
def execLatStop (p : BitVec 4) (a : BitVec 5) (s : State) : Out :=
  s.issueLat p 0xC8 [gsrc a] [] (fun s => do
    needField 0xC8 a (within (s.regs.gval a.toNat) 4)
    pure (s.enterLattice 0xC8 (s.regs.gval a.toNat) 0 0 0 0))

/-- LAT.SAVE, privileged (R342, R348, R349). -/
def execLatSave (p : BitVec 4) (a : BitVec 5) (s : State) : Out :=
  if s.regs.qualified p ∧ !s.isSystem then .next (s.settle (.error (.trap 0x02 none none)))
  else s.latTransfer p 0xC9 a true

/-- LAT.REST, privileged (R342, R348, R349). -/
def execLatRest (p : BitVec 4) (a : BitVec 5) (s : State) : Out :=
  if s.regs.qualified p ∧ !s.isSystem then .next (s.settle (.error (.trap 0x02 none none)))
  else s.latTransfer p 0xCA a false

/-- LAT.STAT (R347). -/
def State.latStat (s : State) (p : BitVec 4) (d : BitVec 5) (clr : Nat) : Out :=
  s.issueLat p 0xCB [] [.g d.toNat false] (fun s =>
    .ok ((s.enterLattice 0xCB 0 0 clr d.toNat 0).setRegs (s.regs.markG d.toNat .empty)))

def execLatStat (p : BitVec 4) (d : BitVec 5) (s : State) : Out := s.latStat p d 0

/-- LAT.STAT.clr (R347). -/
def execLatStatClr (p : BitVec 4) (d : BitVec 5) (s : State) : Out := s.latStat p d 1

end Sys2Proof.Machine
end

