-- ==== Sys2Proof/Machine/Flags.lean ====
section
/-! DEFINITION. Floating point, its exception flags, block floating point and the approximation tables (R73 to R87, R261, R262, R267, R277 to R281). -/

namespace Sys2Proof.Machine

/-! Formats (R74, Table 4-2). -/

/-- A floating-point format: exponent bits and fraction bits. -/
structure FpFormat where
  eb : Nat
  fb : Nat
deriving DecidableEq, Repr

def f32 : FpFormat := ⟨8, 23⟩
def f16 : FpFormat := ⟨5, 10⟩
def bf16 : FpFormat := ⟨8, 7⟩

def FpFormat.bias (f : FpFormat) : Nat := 2 ^ (f.eb - 1) - 1
def FpFormat.width (f : FpFormat) : Nat := 1 + f.eb + f.fb

/-- The bits of an infinity, a zero, the largest finite value, or a magnitude, with a sign. -/
def FpFormat.signed (f : FpFormat) (neg : Bool) (mag : Nat) : Nat := bitNat neg * 2 ^ (f.eb + f.fb) + mag
def FpFormat.infinity (f : FpFormat) (neg : Bool) : Nat := f.signed neg ((2 ^ f.eb - 1) * 2 ^ f.fb)
def FpFormat.largest (f : FpFormat) (neg : Bool) : Nat := f.signed neg ((2 ^ f.eb - 1) * 2 ^ f.fb - 1)

/-- The default NaN (Table 4-3). -/
def FpFormat.nan (f : FpFormat) : Nat := (2 ^ f.eb - 1) * 2 ^ f.fb + 2 ^ (f.fb - 1)

/-- Exception flags (Table 4-5). -/
def flagNV : BitVec 5 := 16
def flagDZ : BitVec 5 := 8
def flagOF : BitVec 5 := 4
def flagUF : BitVec 5 := 2
def flagNX : BitVec 5 := 1

/-- A result and the flags that it raises. -/
abbrev FpResult := Nat × BitVec 5

/-- Rounding and flushing: RM and FTZ of an FP mode (Table 15-5, R258). -/
structure FpMode where
  rm : Nat
  ftz : Bool
deriving DecidableEq, Repr

def fpModeOf (w : BitVec 8) : FpMode := ⟨w.toNat % 4, bitAt w.toNat 2⟩

/-- What an encoding means (R75): a finite value is (-1)^neg × m × 2^e. -/
inductive FpValue where
  | nan (bits : Nat)
  | inf (neg : Bool)
  | fin (neg : Bool) (m : Nat) (e : Int)
deriving DecidableEq, Repr

def FpFormat.sign (f : FpFormat) (x : Nat) : Bool := bitAt x (f.eb + f.fb)
def FpFormat.exponent (f : FpFormat) (x : Nat) : Nat := x / 2 ^ f.fb % 2 ^ f.eb
def FpFormat.fraction (f : FpFormat) (x : Nat) : Nat := x % 2 ^ f.fb

def FpFormat.isNan (f : FpFormat) (x : Nat) : Bool := f.exponent x == 2 ^ f.eb - 1 && f.fraction x != 0
def FpFormat.isSignalling (f : FpFormat) (x : Nat) : Bool := f.isNan x && !bitAt x (f.fb - 1)
def FpFormat.isSubnormal (f : FpFormat) (x : Nat) : Bool := f.exponent x == 0 && f.fraction x != 0

/-- The value of an encoding (R75). -/
def FpFormat.value (f : FpFormat) (x : Nat) : FpValue :=
  let neg := f.sign x
  let e := f.exponent x
  let m := f.fraction x
  if e = 2 ^ f.eb - 1 then (if m = 0 then .inf neg else .nan x)
  else if e = 0 then .fin neg m (1 - (f.bias : Int) - f.fb)
  else .fin neg (2 ^ f.fb + m) ((e : Int) - f.bias - f.fb)

/-- An operand as the flush bit has it read: a subnormal is a zero of its sign (R78). -/
def FpFormat.operand (f : FpFormat) (ftz : Bool) (x : Nat) : Nat := if ftz && f.isSubnormal x then f.signed (f.sign x) 0 else x

/-! Rounding (R76 to R78). -/

/-- m × 2^k rounded to an integer by a mode, and whether it was inexact (R76). -/
def roundInteger (rm : Nat) (neg : Bool) (m : Nat) (k : Int) : Nat × Bool :=
  if 0 ≤ k then (m * 2 ^ k.toNat, false)
  else
    let d := 2 ^ (-k).toNat
    let q := m / d
    let r := m % d
    let up := match rm with
      | 0 => decide (d < 2 * r) || (decide (2 * r = d) && q % 2 == 1)
      | 1 => false
      | 2 => !neg && r != 0
      | _ => neg && r != 0
    (if up then q + 1 else q, r != 0)

/-- The overflow result (Table 4-4). -/
def FpFormat.overflow (f : FpFormat) (rm : Nat) (neg : Bool) : FpResult :=
  let toInf := match rm with
    | 0 => true
    | 1 => false
    | 2 => !neg
    | _ => neg
  (if toInf then f.infinity neg else f.largest neg, flagOF ||| flagNX)

/-- Round of an exact non-zero value (-1)^neg × m × 2^e (R76 to R78). -/
def FpFormat.round (f : FpFormat) (md : FpMode) (neg : Bool) (m : Nat) (e : Int) : FpResult :=
  let top : Int := (m.log2 : Int) + e
  let q := top - f.fb
  let (n, inexact) := roundInteger md.rm neg m (e - q)
  let least : Int := 1 - (f.bias : Int)
  let reaches : Int := if 2 ^ (f.fb + 1) ≤ n then top + 1 else top
  if (f.bias : Int) < reaches then f.overflow md.rm neg
  else if reaches < least then
    if md.ftz then (f.signed neg 0, flagUF ||| flagNX)
    else
      let (k, lost) := roundInteger md.rm neg m (e - (least - f.fb))
      (f.signed neg k, if lost then flagUF ||| flagNX else 0)
  else
    let biased := (q + f.fb + f.bias).toNat
    (f.signed neg (biased * 2 ^ f.fb + n - 2 ^ f.fb), if inexact then flagNX else 0)

/-- Round of an exact value, a zero taking the given sign. -/
def FpFormat.roundInt (f : FpFormat) (md : FpMode) (x : Int) (e : Int) (zeroNeg : Bool) : FpResult :=
  if x = 0 then (f.signed zeroNeg 0, 0) else f.round md (decide (x < 0)) x.natAbs e

/-! NaNs (R80, R81). -/

/-- The first NaN of the operands, quieted, and NV where any is signalling (R80). -/
def FpFormat.nanResult (f : FpFormat) (l : List Nat) : Option FpResult :=
  (l.find? f.isNan).map (fun x => (x ||| 2 ^ (f.fb - 1), if l.any f.isSignalling then flagNV else 0))

/-- The result of an invalid operation. -/
def FpFormat.invalid (f : FpFormat) : FpResult := (f.nan, flagNV)

/-! Arithmetic (R261). -/

/-- The sum of two finite values, exactly, then rounded (R76). -/
def FpFormat.sumFinite (f : FpFormat) (md : FpMode) (s1 : Bool) (m1 : Nat) (e1 : Int) (s2 : Bool) (m2 : Nat) (e2 : Int) : FpResult :=
  let e := if e1 < e2 then e1 else e2
  let part (s : Bool) (m : Nat) (k : Int) : Int := (if s then -1 else 1) * ((m * 2 ^ (k - e).toNat : Nat) : Int)
  f.roundInt md (part s1 m1 e1 + part s2 m2 e2) e (if s1 == s2 then s1 else md.rm == 3)

/-- Round(a + b), with b negated for a difference. -/
def FpFormat.add (f : FpFormat) (md : FpMode) (negB : Bool) (a b : Nat) : FpResult :=
  match f.nanResult [a, b] with
  | some r => r
  | none =>
    match f.value (f.operand md.ftz a), f.value (f.operand md.ftz b) with
    | .inf s, .inf t => if s = (t != negB) then (f.infinity s, 0) else f.invalid
    | .inf s, _ => (f.infinity s, 0)
    | _, .inf t => (f.infinity (t != negB), 0)
    | .fin s m e, .fin t n k => f.sumFinite md s m e (t != negB) n k
    | _, _ => f.invalid

/-- Round(a × b). -/
def FpFormat.mul (f : FpFormat) (md : FpMode) (a b : Nat) : FpResult :=
  match f.nanResult [a, b] with
  | some r => r
  | none =>
    match f.value (f.operand md.ftz a), f.value (f.operand md.ftz b) with
    | .inf s, .inf t => (f.infinity (s != t), 0)
    | .inf s, .fin t n _ => if n = 0 then f.invalid else (f.infinity (s != t), 0)
    | .fin s m _, .inf t => if m = 0 then f.invalid else (f.infinity (s != t), 0)
    | .fin s m e, .fin t n k => if m * n = 0 then (f.signed (s != t) 0, 0) else f.round md (s != t) (m * n) (e + k)
    | _, _ => f.invalid

/-- Round(a × b + c), rounded once; the product is negated for VFMS. -/
def FpFormat.fma (f : FpFormat) (md : FpMode) (negP : Bool) (a b c : Nat) : FpResult :=
  let a' := f.operand md.ftz a
  let b' := f.operand md.ftz b
  let c' := f.operand md.ftz c
  let zeroTimesInf := match f.value a', f.value b' with
    | .inf _, .fin _ n _ => n == 0
    | .fin _ m _, .inf _ => m == 0
    | _, _ => false
  match f.nanResult [a, b, c] with
  | some (x, fl) => (x, if zeroTimesInf then fl ||| flagNV else fl)
  | none =>
    if zeroTimesInf then f.invalid
    else
      match f.value a', f.value b', f.value c' with
      | .fin s m e, .fin t n k, .fin u p j => f.sumFinite md ((s != t) != negP) (m * n) (e + k) u p j
      | .fin _ _ _, .fin _ _ _, .inf u => (f.infinity u, 0)
      | x, y, .inf u =>
        let s := (FpValue.neg x != FpValue.neg y) != negP
        if s = u then (f.infinity u, 0) else f.invalid
      | x, y, _ => (f.infinity ((FpValue.neg x != FpValue.neg y) != negP), 0)
where
  /-- The sign of a value that is not a NaN. -/
  FpValue.neg : FpValue → Bool
    | .nan _ => false
    | .inf s => s
    | .fin s _ _ => s

/-- The largest n with n × n ≤ x, for x below 4^k. -/
def isqrt (k x : Nat) : Nat := ((List.range k).reverse).foldl (fun r j => if (r + 2 ^ j) * (r + 2 ^ j) ≤ x then r + 2 ^ j else r) 0

/-- Round(√a): the root of m × 4^j to 28 bits or more, with a last bit that says whether it was exact. -/
def FpFormat.sqrt (f : FpFormat) (md : FpMode) (a : Nat) : FpResult :=
  match f.nanResult [a] with
  | some r => r
  | none =>
    match f.value (f.operand md.ftz a) with
    | .inf s => if s then f.invalid else (f.infinity false, 0)
    | .fin s m e =>
      if m = 0 then (f.signed s 0, 0)
      else if s then f.invalid
      else
        let m1 := if e % 2 = 0 then m else 2 * m
        let e1 := if e % 2 = 0 then e else e - 1
        let big := m1 * 4 ^ 28
        let r := isqrt 42 big
        f.round md false (2 * r + (if r * r = big then 0 else 1)) (e1 / 2 - 29)
    | .nan _ => f.invalid

/-! Comparison (R262, R263). -/

/-- A number in the order of the encodings, -0 below +0. -/
def FpFormat.orderKey (f : FpFormat) (x : Nat) : Int :=
  let mag := x % 2 ^ (f.eb + f.fb)
  if f.sign x then -(mag : Int) - 1 else mag

/-- A number in the order of the values, -0 with +0. -/
def FpFormat.valueKey (f : FpFormat) (x : Nat) : Int :=
  let mag := x % 2 ^ (f.eb + f.fb)
  if f.sign x then -(mag : Int) else mag

/-- The smaller or the larger (R262). -/
def FpFormat.minMax (f : FpFormat) (larger : Bool) (a b : Nat) : FpResult :=
  match f.nanResult [a, b] with
  | some r => r
  | none => (if larger then (if f.orderKey b ≤ f.orderKey a then a else b) else (if f.orderKey a ≤ f.orderKey b then a else b), 0)

/-- A comparison of R263. -/
def FpFormat.compare (f : FpFormat) (cc a b : Nat) : Bool × BitVec 5 :=
  let un := f.isNan a || f.isNan b
  let quiet : BitVec 5 := if f.isSignalling a || f.isSignalling b then flagNV else 0
  let loud : BitVec 5 := if un then flagNV else 0
  let x := f.valueKey a
  let y := f.valueKey b
  match cc with
  | 0 => (!un && decide (x = y), quiet)
  | 1 => (un || decide (x ≠ y), quiet)
  | 2 => (!un && decide (x < y), loud)
  | 3 => (!un && decide (x ≤ y), loud)
  | 4 => (!un && decide (y < x), loud)
  | 5 => (!un && decide (y ≤ x), loud)
  | 6 => (un, quiet)
  | _ => (!un, quiet)

/-! Conversions (R81, R83, R267). -/

/-- A NaN carried to another format (R81). -/
def convertNan (src dst : FpFormat) (x : Nat) : Nat :=
  let fr := if dst.fb ≤ src.fb then src.fraction x / 2 ^ (src.fb - dst.fb) else src.fraction x * 2 ^ (dst.fb - src.fb)
  dst.signed (src.sign x) ((2 ^ dst.eb - 1) * 2 ^ dst.fb + (fr ||| 2 ^ (dst.fb - 1)))

/-- Floating point to floating point (R267). -/
def convertFloat (src dst : FpFormat) (md : FpMode) (x : Nat) : FpResult :=
  match src.value (src.operand md.ftz x) with
  | .nan _ => (convertNan src dst x, if src.isSignalling x then flagNV else 0)
  | .inf s => (dst.infinity s, 0)
  | .fin s m e => if m = 0 then (dst.signed s 0, 0) else dst.round md s m e

/-- Floating point to an integer in a range (R83). -/
def convertToInt (src : FpFormat) (md : FpMode) (lo hi : Int) (x : Nat) : Int × BitVec 5 :=
  match src.value (src.operand md.ftz x) with
  | .nan _ => (0, flagNV)
  | .inf s => (if s then lo else hi, flagNV)
  | .fin s m e =>
    let (n, inexact) := roundInteger md.rm s m e
    let v : Int := if s then -(n : Int) else n
    if v < lo then (lo, flagNV) else if hi < v then (hi, flagNV) else (v, if inexact then flagNX else 0)

/-- An integer to floating point (R83). -/
def convertFromInt (dst : FpFormat) (md : FpMode) (x : Int) : FpResult := dst.roundInt md x 0 false

/-! Block floating point (R84 to R87). -/

/-- Element m of a block with exponent E, as .f32 (R86): apart from flushing it raises no flag.
R86 calls every value representable, but the value -2^128 of E = 0xFE and m = -2^(w-1) is not a finite .f32; that it reads as -infinity, without a flag, is the model's DESIGN CHOICE (log 101). -/
def blockElement (md : FpMode) (w e : Nat) (m : Int) : FpResult :=
  if e = 0xFF then (f32.nan, 0)
  else if e = 0xFE ∧ m = -(2 ^ (w - 1)) then (0xFF800000, 0)
  else f32.roundInt { md with rm := 0 } m ((e : Int) - 127 - ((w : Int) - 2)) false

/-- The shared exponent of a block of .f32 values that holds a non-zero and no NaN or infinity (R87). -/
def blockExponent (l : List Nat) : Nat := ((l.filter (fun x => f32.fraction x != 0 || f32.exponent x != 0)).map (fun x => max (f32.exponent x) 1)).foldl max 0

/-- One mantissa of a block: its value and flags (R87). -/
def blockMantissa (w e x : Nat) : Int × BitVec 5 :=
  match f32.value x with
  | .fin s m k =>
    let (n, inexact) := roundInteger 0 s m (k + ((w : Int) - 2) + (127 - (e : Int)))
    let r : Int := if s then -(n : Int) else n
    let lo : Int := -(2 ^ (w - 1))
    let hi : Int := 2 ^ (w - 1) - 1
    let v := if r < lo then lo else if hi < r then hi else r
    (v, (if v ≠ r then flagOF else if inexact then flagNX else 0) ||| (if m ≠ 0 ∧ v = 0 then flagUF else 0))
  | _ => (0, 0)

/-- 32 .f32 values as one block of width w: exponent, mantissas and flags (R87). -/
def packBlock (ftz : Bool) (w : Nat) (l : List Nat) : Nat × List Int × BitVec 5 :=
  let xs := l.map (f32.operand ftz)
  if xs.any (fun x => f32.exponent x == 255) then
    (0xFF, List.replicate 32 0, if xs.any f32.isSignalling then flagNV else 0)
  else if xs.all (fun x => f32.exponent x == 0 && f32.fraction x == 0) then (0, List.replicate 32 0, 0)
  else
    let e := blockExponent xs
    let ms := xs.map (blockMantissa w e)
    (e, ms.map (·.1), ms.foldl (fun a r => a ||| r.2) 0)

/-! Approximations (R277 to R281). -/

/-- A finite non-zero value as exponent and 24-bit significand: x = s × 2^23 × 2^(e - 23) (the normalised form of R277). -/
def normalised (m : Nat) (e : Int) : Int × Nat := ((m.log2 : Int) + e, if 23 ≤ m.log2 then m / 2 ^ (m.log2 - 23) else m * 2 ^ (23 - m.log2))

/-- T(i) (R277). -/
def recipTable (i : Nat) : Nat := (2 ^ 22 + (513 + 2 * i)) / (2 * (513 + 2 * i))

/-- RS(i) (R278): mid(i) in units of 1/256, and the rounded root. -/
def rootTable (i : Nat) : Nat :=
  let mid := if i < 128 then 257 + 2 * i else 4 * i + 2
  (isqrt 18 (2 ^ 34 / mid) + 1) / 2

def expTable0 : List Nat :=
  [ 2051, 2056, 2062, 2068, 2073, 2079, 2084, 2090, 2096, 2101, 2107, 2113, 2119, 2124, 2130, 2136,
    2142, 2147, 2153, 2159, 2165, 2171, 2177, 2183, 2188, 2194, 2200, 2206, 2212, 2218, 2224, 2230,
    2236, 2242, 2249, 2255, 2261, 2267, 2273, 2279, 2285, 2292, 2298, 2304, 2310, 2317, 2323, 2329,
    2335, 2342, 2348, 2354, 2361, 2367, 2374, 2380, 2387, 2393, 2399, 2406, 2413, 2419, 2426, 2432 ]

def expTable1 : List Nat :=
  [ 2439, 2445, 2452, 2459, 2465, 2472, 2479, 2485, 2492, 2499, 2506, 2513, 2519, 2526, 2533, 2540,
    2547, 2554, 2561, 2568, 2575, 2581, 2588, 2596, 2603, 2610, 2617, 2624, 2631, 2638, 2645, 2652,
    2660, 2667, 2674, 2681, 2688, 2696, 2703, 2710, 2718, 2725, 2733, 2740, 2747, 2755, 2762, 2770,
    2777, 2785, 2792, 2800, 2808, 2815, 2823, 2830, 2838, 2846, 2853, 2861, 2869, 2877, 2885, 2892 ]

def expTable2 : List Nat :=
  [ 2900, 2908, 2916, 2924, 2932, 2940, 2948, 2956, 2964, 2972, 2980, 2988, 2996, 3004, 3012, 3020,
    3029, 3037, 3045, 3053, 3062, 3070, 3078, 3087, 3095, 3103, 3112, 3120, 3129, 3137, 3146, 3154,
    3163, 3171, 3180, 3189, 3197, 3206, 3215, 3223, 3232, 3241, 3250, 3258, 3267, 3276, 3285, 3294,
    3303, 3312, 3321, 3330, 3339, 3348, 3357, 3366, 3375, 3384, 3393, 3403, 3412, 3421, 3430, 3440 ]

def expTable3 : List Nat :=
  [ 3449, 3458, 3468, 3477, 3487, 3496, 3505, 3515, 3525, 3534, 3544, 3553, 3563, 3573, 3582, 3592,
    3602, 3611, 3621, 3631, 3641, 3651, 3661, 3671, 3681, 3691, 3701, 3711, 3721, 3731, 3741, 3751,
    3761, 3771, 3782, 3792, 3802, 3812, 3823, 3833, 3843, 3854, 3864, 3875, 3885, 3896, 3906, 3917,
    3928, 3938, 3949, 3960, 3970, 3981, 3992, 4003, 4014, 4025, 4035, 4046, 4057, 4068, 4079, 4090 ]

/-- EX(i) of R279, worked out from its formula. -/
def expTable (i : Nat) : Nat := (expTable0 ++ expTable1 ++ expTable2 ++ expTable3).getD i 0

def logTable0 : List Nat :=
  [ 184, 552, 919, 1284, 1648, 2010, 2371, 2730, 3088, 3445, 3801, 4155, 4507, 4859, 5209, 5558,
    5906, 6252, 6597, 6941, 7283, 7625, 7965, 8304, 8641, 8978, 9313, 9647, 9980, 10312, 10642, 10972,
    11300, 11627, 11953, 12278, 12602, 12925, 13246, 13567, 13886, 14205, 14522, 14838, 15153, 15467, 15781, 16093,
    16404, 16714, 17023, 17331, 17637, 17943, 18248, 18552, 18856, 19158, 19459, 19759, 20058, 20356, 20654, 20950 ]

def logTable1 : List Nat :=
  [ 21245, 21540, 21834, 22126, 22418, 22709, 22999, 23288, 23577, 23864, 24150, 24436, 24721, 25005, 25288, 25570,
    25852, 26132, 26412, 26691, 26969, 27246, 27523, 27798, 28073, 28347, 28620, 28893, 29164, 29435, 29706, 29975,
    30244, 30511, 30778, 31045, 31310, 31575, 31839, 32103, 32365, 32627, 32888, 33149, 33409, 33668, 33926, 34184,
    34441, 34697, 34952, 35207, 35461, 35715, 35968, 36220, 36471, 36722, 36972, 37222, 37470, 37719, 37966, 38213 ]

def logTable2 : List Nat :=
  [ 38459, 38705, 38950, 39194, 39438, 39681, 39923, 40165, 40406, 40647, 40887, 41126, 41365, 41603, 41841, 42077,
    42314, 42550, 42785, 43019, 43253, 43487, 43720, 43952, 44184, 44415, 44646, 44876, 45105, 45334, 45562, 45790,
    46018, 46244, 46471, 46696, 46921, 47146, 47370, 47593, 47816, 48039, 48261, 48482, 48703, 48924, 49143, 49363,
    49582, 49800, 50018, 50235, 50452, 50668, 50884, 51100, 51315, 51529, 51743, 51956, 52169, 52382, 52594, 52805 ]

def logTable3 : List Nat :=
  [ 53016, 53227, 53437, 53647, 53856, 54064, 54273, 54481, 54688, 54895, 55101, 55307, 55513, 55718, 55922, 56127,
    56330, 56534, 56737, 56939, 57141, 57343, 57544, 57745, 57945, 58145, 58344, 58543, 58742, 58940, 59138, 59335,
    59532, 59729, 59925, 60121, 60316, 60511, 60706, 60900, 61094, 61287, 61480, 61672, 61865, 62056, 62248, 62439,
    62629, 62820, 63010, 63199, 63388, 63577, 63765, 63953, 64141, 64328, 64515, 64701, 64887, 65073, 65259, 65444 ]

/-- LG(i) of R280, worked out from its formula. -/
def logTable (i : Nat) : Nat := (logTable0 ++ logTable1 ++ logTable2 ++ logTable3).getD i 0

/-- VRCPA of one element (R277). -/
def approxRecip (ftz : Bool) (x : Nat) : FpResult :=
  let neg := f32.sign x
  match f32.nanResult [x] with
  | some r => r
  | none =>
    match f32.value (f32.operand ftz x) with
    | .fin _ m e =>
      if m = 0 then (f32.infinity neg, flagDZ)
      else
        let (k, s) := normalised m e
        if k ≤ -129 ∨ (k = -128 ∧ s = 2 ^ 23) then (f32.infinity neg, flagOF)
        else if 126 ≤ k then (f32.signed neg 0, flagUF)
        else (f32.signed neg ((126 - k).toNat * 2 ^ 23 + (recipTable (bits s 22 15) - 2048) * 2 ^ 12), 0)
    | _ => (f32.signed neg 0, 0)

/-- VRSQA of one element (R278). -/
def approxRoot (ftz : Bool) (x : Nat) : FpResult :=
  let neg := f32.sign x
  match f32.nanResult [x] with
  | some r => r
  | none =>
    match f32.value (f32.operand ftz x) with
    | .fin _ m e =>
      if m = 0 then (f32.infinity neg, flagDZ)
      else if neg then f32.invalid
      else
        let (k, s) := normalised m e
        let h := k / 2
        let p := (k - 2 * h).toNat
        ((126 - h).toNat * 2 ^ 23 + (rootTable (p * 128 + bits s 22 16) - 2048) * 2 ^ 12, 0)
    | _ => if neg then f32.invalid else (0, 0)

/-- VEXP2A of one element (R279). -/
def approxExp (ftz : Bool) (x : Nat) : FpResult :=
  match f32.nanResult [x] with
  | some r => r
  | none =>
    match f32.value (f32.operand ftz x) with
    | .fin s m e =>
      let v : Int := if s then -(m : Int) else m
      let t : Int := if 0 ≤ e + 8 then v * 2 ^ (e + 8).toNat else v / 2 ^ (-(e + 8)).toNat
      let n := t / 256
      if 128 ≤ n then (f32.infinity false, flagOF)
      else if n < -126 then (0, flagUF)
      else ((n + 127).toNat * 2 ^ 23 + (expTable (t % 256).toNat - 2048) * 2 ^ 12, 0)
    | .inf s => if s then (0, 0) else (f32.infinity false, 0)
    | .nan _ => f32.invalid

/-- VLOG2A of one element (R280). -/
def approxLog (ftz : Bool) (x : Nat) : FpResult :=
  match f32.nanResult [x] with
  | some r => r
  | none =>
    match f32.value (f32.operand ftz x) with
    | .fin s m e =>
      if m = 0 then (f32.infinity true, flagDZ)
      else if s then f32.invalid
      else
        let (k, sg) := normalised m e
        f32.roundInt ⟨0, false⟩ (k * 65536 + logTable (bits sg 22 15)) (-16) false
    | .inf s => if s then f32.invalid else (f32.infinity false, 0)
    | .nan _ => f32.invalid

end Sys2Proof.Machine
end

