-- ==== Sys2Proof/Machine/Vector.lean ====
section
/-! DEFINITION. The vector pipe: opcodes 0x90 to 0xB7 (R256 to R281). -/

namespace Sys2Proof.Machine

/-! Common course (R257 to R260). -/

/-- The FP mode of the block (R258). -/
def State.fpMode (s : State) : FpMode := fpModeOf s.block.fpmode

/-- Flags raised by an instruction: the block's FPFLAGS take them, and the block notes them (R259, R260). -/
def State.raise (s : State) (fl : BitVec 5) : State :=
  (s.setRegs { s.regs with flags := s.regs.flags ||| fl }).onBlock (fun b => { b with raised := b.raised ||| fl })

/-- A destination that keeps inactive lanes is a source too (R257). -/
def Regs.keeps (r : Regs) (p d : BitVec 4) : List Operand := if r.laneMask p = 0xFFFFFFFF then [] else [vsrc d]

/-- The results of the active lanes, in lane order. -/
def laneResults (mask : Lane) (f : Nat → FpResult) : List FpResult := (List.range 32).map (fun k => if laneOn mask k then f k else (0, 0))

/-- The flags of a list of results. -/
def flagsOf (l : List FpResult) : BitVec 5 := l.foldl (fun a r => a ||| r.2) 0

/-- The state with the active lanes of v[d] written, and the flags raised (R187, R259). -/
def State.writeLanes (s : State) (mask : Lane) (d : Nat) (f : Nat → FpResult) : State :=
  let l := laneResults mask f
  (s.setRegs (s.regs.setV d (mergeLanes mask (s.regs.vreg d).lanes (fun k => .ofNat 32 ((l.getD k (0, 0)).1))))).raise (flagsOf l)

/-- An instruction that writes the active lanes of v[d], each from the registers (R187, R257). -/
def State.issueV (s : State) (p : BitVec 4) (op : Nat) (srcs : List Operand) (d : BitVec 4) (f : State → Nat → FpResult) : Out :=
  s.issueLanes p op (srcs ++ s.regs.keeps p d) [.v d.toNat false] (fun mask s => .ok (s.writeLanes mask d.toNat (f s)))

/-- An instruction that writes every lane of v[d] (R268, R272). -/
def State.issueWhole (s : State) (p : BitVec 4) (op : Nat) (srcs : List Operand) (d : BitVec 4) (f : Lane → State → Vector Lane 32 × BitVec 5) : Out :=
  s.issueLanes p op srcs [.v d.toNat false] (fun mask s =>
    let r := f mask s
    .ok ((s.setRegs (s.regs.setV d.toNat r.1)).raise r.2))

/-- A lane of a v register as a number. -/
def State.laneNat (s : State) (v : BitVec 4) (k : Nat) : Nat := (s.regs.lane v.toNat k).toNat

/-! Elements (R256). -/

/-- The format of an F type. -/
def formatOf (t : BitVec 3) : FpFormat :=
  match t.toNat with
  | 0 => f32
  | 1 => bf16
  | _ => f16

/-- The width of an element. -/
def elementWidth (t : BitVec 3) : Nat :=
  match t.toNat with
  | 0 | 3 | 4 => 32
  | 6 => 8
  | _ => 16

/-- An element of an integer type as an integer: signed but for .n32. -/
def elementInt (t : BitVec 3) (x : Nat) : Int := if t = 4 then (x : Int) else signExt x (elementWidth t)

/-- The range of an integer type. -/
def elementLow (t : BitVec 3) : Int := if t = 4 then 0 else -(2 ^ (elementWidth t - 1))
def elementHigh (t : BitVec 3) : Int := if t = 4 then 2 ^ 32 - 1 else 2 ^ (elementWidth t - 1) - 1

/-- An integer as w bits. -/
def bitsOfInt (w : Nat) (x : Int) : Nat := (x % 2 ^ w).toNat

/-- Element j of a lane. -/
def element (w x j : Nat) : Nat := x / 2 ^ (w * j) % 2 ^ w

/-- The elements of a lane, each computed, put together again (R256). -/
def perElement (w n : Nat) (f : Nat → FpResult) : FpResult :=
  (List.range n).foldl (fun a j => let r := f j; (a.1 + r.1 % 2 ^ w * 2 ^ (w * j), a.2 ||| r.2)) (0, 0)

def elementsOf (t : BitVec 3) (f : Nat → FpResult) : FpResult := perElement (elementWidth t) (32 / elementWidth t) f

/-! Arithmetic (R261, R262). -/

/-- A two-source F instruction. -/
def State.vec2 (s : State) (p : BitVec 4) (op : Nat) (d a b : BitVec 4) (t : BitVec 3) (f : FpFormat → FpMode → Nat → Nat → FpResult) : Out :=
  s.issueV p op [vsrc a, vsrc b] d (fun s k =>
    elementsOf t (fun j => f (formatOf t) s.fpMode (element (elementWidth t) (s.laneNat a k) j) (element (elementWidth t) (s.laneNat b k) j)))

/-- VADD (R261). -/
def execVadd (p d a b : BitVec 4) (t : BitVec 3) (s : State) : Out := s.vec2 p 0x90 d a b t (fun f m x y => f.add m false x y)

/-- VSUB (R261). -/
def execVsub (p d a b : BitVec 4) (t : BitVec 3) (s : State) : Out := s.vec2 p 0x91 d a b t (fun f m x y => f.add m true x y)

/-- VMUL (R261). -/
def execVmul (p d a b : BitVec 4) (t : BitVec 3) (s : State) : Out := s.vec2 p 0x92 d a b t (fun f m x y => f.mul m x y)

/-- A fused multiply-add; the old v[d] is its operand c (R261). -/
def State.vecFma (s : State) (p : BitVec 4) (op : Nat) (d a b : BitVec 4) (t : BitVec 3) (neg : Bool) : Out :=
  let w := elementWidth t
  s.issueV p op [vsrc a, vsrc b, vsrc d] d (fun s k =>
    elementsOf t (fun j => (formatOf t).fma s.fpMode neg (element w (s.laneNat a k) j) (element w (s.laneNat b k) j) (element w (s.laneNat d k) j)))

/-- VFMA (R261). -/
def execVfma (p d a b : BitVec 4) (t : BitVec 3) (s : State) : Out := s.vecFma p 0x93 d a b t false

/-- VFMS (R261). -/
def execVfms (p d a b : BitVec 4) (t : BitVec 3) (s : State) : Out := s.vecFma p 0x94 d a b t true

/-- The smaller or larger of two elements of any type (R262). -/
def elementMinMax (t : BitVec 3) (larger : Bool) (x y : Nat) : FpResult :=
  if t.toNat < 3 then (formatOf t).minMax larger x y
  else
    let i := elementInt t x
    let j := elementInt t y
    (if larger then (if j ≤ i then x else y) else (if i ≤ j then x else y), 0)

/-- VMIN (R262). -/
def execVmin (p d a b : BitVec 4) (t : BitVec 3) (s : State) : Out := s.vec2 p 0x95 d a b t (fun _ _ x y => elementMinMax t false x y)

/-- VMAX (R262). -/
def execVmax (p d a b : BitVec 4) (t : BitVec 3) (s : State) : Out := s.vec2 p 0x96 d a b t (fun _ _ x y => elementMinMax t true x y)

/-- A one-source instruction on elements. -/
def State.vec1 (s : State) (p : BitVec 4) (op : Nat) (d a : BitVec 4) (t : BitVec 3) (f : State → Nat → FpResult) : Out :=
  s.issueV p op [vsrc a] d (fun s k => elementsOf t (fun j => f s (element (elementWidth t) (s.laneNat a k) j)))

/-- |x| of R261: the sign bit cleared, or modulo 2^n. -/
def elementAbs (t : BitVec 3) (x : Nat) : Nat :=
  let w := elementWidth t
  if t.toNat < 3 then x % 2 ^ (w - 1) else bitsOfInt w ((elementInt t x).natAbs : Int)

/-- The negation of R261: the sign bit inverted, or 0 - x modulo 2^n. -/
def elementNeg (t : BitVec 3) (x : Nat) : Nat :=
  let w := elementWidth t
  if t.toNat < 3 then x ^^^ 2 ^ (w - 1) else bitsOfInt w (-(elementInt t x))

/-- VABS (R261). -/
def execVabs (p d a : BitVec 4) (t : BitVec 3) (s : State) : Out := s.vec1 p 0x97 d a t (fun _ x => (elementAbs t x, 0))

/-- VNEG (R261). -/
def execVneg (p d a : BitVec 4) (t : BitVec 3) (s : State) : Out := s.vec1 p 0x98 d a t (fun _ x => (elementNeg t x, 0))

/-- VSQRT (R261). -/
def execVsqrt (p d a : BitVec 4) (t : BitVec 3) (s : State) : Out := s.vec1 p 0xA2 d a t (fun s x => (formatOf t).sqrt s.fpMode x)

/-! Comparison and selection (R263, R264). -/

/-- A comparison of two elements of an integer type. -/
def intCompare (cc : Nat) (x y : Int) : Bool :=
  match cc with
  | 0 => decide (x = y)
  | 1 => decide (x ≠ y)
  | 2 => decide (x < y)
  | 3 => decide (x ≤ y)
  | 4 => decide (y < x)
  | _ => decide (y ≤ x)

/-- A comparison of two lanes: it holds for every element (R263). -/
def laneCompare (t : BitVec 3) (cc x y : Nat) : Bool × BitVec 5 :=
  let w := elementWidth t
  (List.range (32 / w)).foldl (fun a j =>
    let i := element w x j
    let k := element w y j
    let r := if t.toNat < 3 then (formatOf t).compare cc i k else (intCompare cc (elementInt t i) (elementInt t k), 0)
    (a.1 && r.1, a.2 ||| r.2)) (true, 0)

/-- A q register with its active bits replaced (R263, R273, R276). -/
def mergeBits (mask old new : Lane) : Lane := (old &&& ~~~mask) ||| (new &&& mask)

/-- VCMP (R263). -/
def execVcmp (p : BitVec 4) (d : BitVec 3) (a b : BitVec 4) (t : BitVec 3) (cc : BitVec 5) (s : State) : Out :=
  s.issueLanes p 0x99 [vsrc a, vsrc b] [] (fun mask s =>
    let l := (activeLanes mask).map (fun k => (k, laneCompare t cc.toNat (s.laneNat a k) (s.laneNat b k)))
    let r : Lane := .ofNat 32 (maskOf ((l.filter (fun e => e.2.1)).map (·.1)))
    .ok ((s.setRegs (s.regs.putQ d.toNat (mergeBits mask (s.regs.qreg d.toNat) r))).raise (l.foldl (fun f e => f ||| e.2.2) 0)))

/-- VSEL (R264). -/
def execVsel (p d a b : BitVec 4) (n : BitVec 3) (s : State) : Out :=
  s.issueV p 0x9A [vsrc a, vsrc b] d (fun s k => (if laneOn (s.regs.qreg n.toNat) k then s.laneNat a k else s.laneNat b k, 0))

/-! Conversions (R266 to R269). -/

/-- One converted element (R267). -/
def convertElement (md : FpMode) (src dst : BitVec 3) (x : Nat) : FpResult :=
  if src.toNat < 3 then
    if dst.toNat < 3 then convertFloat (formatOf src) (formatOf dst) md x
    else
      let r := convertToInt (formatOf src) md (elementLow dst) (elementHigh dst) x
      (bitsOfInt (elementWidth dst) r.1, r.2)
  else
    let v := elementInt src x
    if dst.toNat < 3 then convertFromInt (formatOf dst) md v
    else
      let c := if v < elementLow dst then elementLow dst else if elementHigh dst < v then elementHigh dst else v
      (bitsOfInt (elementWidth dst) c, if c = v then 0 else flagOF)

/-- One lane of VCVT: narrowing from two sources, widening from half a lane, or element by element (R266). -/
def convertLane (md : FpMode) (src dst : BitVec 3) (hi : Bool) (x y : Nat) : FpResult :=
  let ws := elementWidth src
  let wd := elementWidth dst
  let cvt (v n : Nat) : FpResult := perElement wd n (fun j => convertElement md src dst (element ws v j))
  if wd < ws then
    let lo := cvt x (32 / ws)
    let up := cvt y (32 / ws)
    (lo.1 + up.1 * 2 ^ 16, lo.2 ||| up.2)
  else if ws < wd then cvt (element 16 x (bitNat hi)) (16 / ws)
  else cvt x (32 / ws)

/-- VCVT: s [2:0] the destination type, [3] .hi, [4] .rz (R266, R267). -/
def execVcvt (p d a b : BitVec 4) (t : BitVec 3) (sub : BitVec 5) (s : State) : Out :=
  let dst : BitVec 3 := sub.setWidth 3
  let narrow := elementWidth dst < elementWidth t
  s.issueV p 0x9B (vsrc a :: (if narrow then [vsrc b] else [])) d (fun s k =>
    convertLane (if bitAt sub.toNat 4 then { s.fpMode with rm := 1 } else s.fpMode) t dst (bitAt sub.toNat 3) (s.laneNat a k) (s.laneNat b k))

/-- The lanes that a packed block takes: mantissa field, zeros, and E in lane 31 (R268). -/
def blockLanes (w e : Nat) (ms : List Int) : Vector Lane 32 :=
  let field := (List.range 32).foldl (fun a i => a + bitsOfInt w (ms.getD i 0) * 2 ^ (w * i)) 0
  Vector.ofFn (fun k : Fin 32 => .ofNat 32 (if k.val < w then element 32 field k.val else if k.val = 31 then e else 0))

/-- VPACKB (R268). -/
def execVpackb (p d a : BitVec 4) (i : BitVec 5) (s : State) : Out :=
  let w := i.toNat + 2
  s.issueWhole p 0x9C [vsrc a] d (fun mask s =>
    let (e, ms, fl) := packBlock s.fpMode.ftz w ((List.range 32).map (fun k => if laneOn mask k then s.laneNat a k else 0))
    (blockLanes w e ms, fl))

/-- VUNPACKB (R269). -/
def execVunpackb (p d a : BitVec 4) (i : BitVec 5) (s : State) : Out :=
  let w := i.toNat + 2
  s.issueV p 0x9D [vsrc a] d (fun s k =>
    let field := (List.range w).foldl (fun x j => x + s.laneNat a j * 2 ^ (32 * j)) 0
    blockElement s.fpMode w (s.laneNat a 31 % 256) (signExt (element w field k) w))

/-! Approximations (R277 to R280). -/

def State.approx (s : State) (p : BitVec 4) (op : Nat) (d a : BitVec 4) (f : Bool → Nat → FpResult) : Out :=
  s.issueV p op [vsrc a] d (fun s k => f s.fpMode.ftz (s.laneNat a k))

/-- VRCPA (R277). -/
def execVrcpa (p d a : BitVec 4) (s : State) : Out := s.approx p 0x9E d a approxRecip
/-- VRSQA (R278). -/
def execVrsqa (p d a : BitVec 4) (s : State) : Out := s.approx p 0x9F d a approxRoot
/-- VEXP2A (R279). -/
def execVexp2a (p d a : BitVec 4) (s : State) : Out := s.approx p 0xA0 d a approxExp
/-- VLOG2A (R280). -/
def execVlog2a (p d a : BitVec 4) (s : State) : Out := s.approx p 0xA1 d a approxLog

/-! Reduction (R270). -/

/-- One level of the tree: neighbours in pairs; a node with one input of none passes the other through. -/
def reducePairs (f : Nat → Nat → FpResult) : List (Option Nat) → List (Option Nat) × BitVec 5
  | some x :: some y :: r =>
    let v := f x y
    let (l, fl) := reducePairs f r
    (some v.1 :: l, v.2 ||| fl)
  | none :: y :: r => let (l, fl) := reducePairs f r; (y :: l, fl)
  | x :: none :: r => let (l, fl) := reducePairs f r; (x :: l, fl)
  | l => (l, 0)

/-- The five levels of the tree. -/
def reduceTree (f : Nat → Nat → FpResult) (leaves : List (Option Nat)) : FpResult :=
  let r := (List.range 5).foldl (fun (a : List (Option Nat) × BitVec 5) _ => let b := reducePairs f a.1; (b.1, a.2 ||| b.2)) (leaves, 0)
  ((r.1.headD none).getD 0, r.2)

/-- Op of a reduction (R270). -/
def reduceOp (md : FpMode) (t : BitVec 3) (op : Nat) (x y : Nat) : FpResult :=
  if op = 0 then (if t = 0 then f32.add md false x y else ((x + y) % 2 ^ 32, 0)) else elementMinMax t (op == 1) x y

/-- VRED (R270): lane 0 of v[d] is written, and its other lanes are kept. -/
def execVred (p d a : BitVec 4) (t : BitVec 3) (op : BitVec 2) (s : State) : Out :=
  s.issueLanes p 0xA3 [vsrc a, vsrc d] [.v d.toNat false] (fun mask s =>
    let leaf (k : Nat) : Nat := if t = 0 ∧ op = 0 then f32.operand s.fpMode.ftz (s.laneNat a k) else s.laneNat a k
    let r := reduceTree (reduceOp s.fpMode t op.toNat) ((List.range 32).map (fun k => if laneOn mask k then some (leaf k) else none))
    .ok ((s.setRegs (s.regs.setV d.toNat ((s.regs.vreg d.toNat).lanes.setIfInBounds 0 (.ofNat 32 r.1)))).raise r.2))

/-! Moving lanes (R271 to R275). -/

/-- VPERM (R271). -/
def execVperm (p d a b : BitVec 4) (s : State) : Out :=
  s.issueV p 0xA4 [vsrc a, vsrc b] d (fun s k => (s.laneNat a (s.laneNat b k % 32), 0))

/-- VBCAST (R271). -/
def execVbcast (p d a : BitVec 4) (n : BitVec 5) (s : State) : Out := s.issueV p 0xA5 [vsrc a] d (fun s _ => (s.laneNat a n.toNat, 0))

/-- VIDX (R271). -/
def execVidx (p d b : BitVec 4) (i : BitVec 5) (s : State) : Out := s.issueV p 0xA6 [] d (fun _ k => (i.toNat + k * b.toNat, 0))

/-- VCOMPACT (R272). -/
def execVcompact (p d a : BitVec 4) (s : State) : Out :=
  s.issueWhole p 0xA7 [vsrc a] d (fun mask s =>
    let l := (activeLanes mask).map (s.regs.lane a.toNat)
    (Vector.ofFn (fun k : Fin 32 => l.getD k.val 0), 0))

/-- VEXPAND (R272). -/
def execVexpand (p d a : BitVec 4) (s : State) : Out :=
  let mask := s.regs.laneMask p
  s.issueV p 0xA8 [vsrc a] d (fun s k => (s.laneNat a ((activeLanes mask).idxOf k), 0))

/-- A bitwise instruction (R265). -/
def State.vecBits (s : State) (p : BitVec 4) (op : Nat) (d a b : BitVec 4) (f : Nat → Nat → Nat) : Out :=
  s.issueV p op [vsrc a, vsrc b] d (fun s k => (f (s.laneNat a k) (s.laneNat b k), 0))

/-- VAND (R265). -/
def execVand (p d a b : BitVec 4) (s : State) : Out := s.vecBits p 0xA9 d a b (fun x y => x &&& y)
/-- VOR (R265). -/
def execVor (p d a b : BitVec 4) (s : State) : Out := s.vecBits p 0xAA d a b (fun x y => x ||| y)
/-- VXOR (R265). -/
def execVxor (p d a b : BitVec 4) (s : State) : Out := s.vecBits p 0xAB d a b (fun x y => x ^^^ y)

/-- A shift: by the low bits of a lane, or by the immediate when it is not 0 (R265). -/
def State.vecShift (s : State) (p : BitVec 4) (op : Nat) (d a b : BitVec 4) (i : BitVec 5) (f : Nat → Nat → Nat) : Out :=
  s.issueV p op (vsrc a :: (if i = 0 then [vsrc b] else [])) d (fun s k => (f (s.laneNat a k) (if i = 0 then s.laneNat b k % 32 else i.toNat), 0))

/-- VSHL (R265). -/
def execVshl (p d a b : BitVec 4) (_t : BitVec 3) (i : BitVec 5) (s : State) : Out := s.vecShift p 0xAC d a b i (fun x n => x * 2 ^ n)

/-- VSHR (R265). -/
def execVshr (p d a b : BitVec 4) (t : BitVec 3) (i : BitVec 5) (s : State) : Out :=
  s.vecShift p 0xAD d a b i (fun x n => if t = 3 then bitsOfInt 32 (signExt x 32 / 2 ^ n) else x / 2 ^ n)

/-- VIADD: s [0] .sat, [1] .sub (R265). -/
def execViadd (p d a b : BitVec 4) (t : BitVec 3) (sub : BitVec 2) (s : State) : Out :=
  s.vec2 p 0xAE d a b t (fun _ _ x y =>
    let v := if bitAt sub.toNat 1 then elementInt t x - elementInt t y else elementInt t x + elementInt t y
    let c := if !bitAt sub.toNat 0 then v else if v < elementLow t then elementLow t else if elementHigh t < v then elementHigh t else v
    (bitsOfInt (elementWidth t) c, 0))

/-- VIMUL: s [0] .hi (R265). -/
def execVimul (p d a b : BitVec 4) (t : BitVec 3) (hi : BitVec 1) (s : State) : Out :=
  s.vec2 p 0xAF d a b t (fun _ _ x y =>
    let v := elementInt t x * elementInt t y
    (bitsOfInt (elementWidth t) (if hi = 1 then v / 2 ^ elementWidth t else v), 0))

/-- VMOVG: the lowest active lane, sign-extended for .i32 (R273). -/
def execVmovg (p a : BitVec 4) (t : BitVec 3) (d : BitVec 5) (s : State) : Out :=
  s.issueLanes p 0xB0 [vsrc a] [.g d.toNat false] (fun mask s =>
    let x := s.laneNat a (lowestBit mask.toNat 32)
    .ok (s.setRegs (s.regs.setG d.toNat (if t = 3 then wordOfInt (signExt x 32) else wordOf x))))

/-- VMOVG.q (R273). -/
def execVmovgQ (p : BitVec 4) (a : BitVec 3) (d : BitVec 5) (s : State) : Out :=
  s.issueLanes p 0xB0 [] [.g d.toNat false] (fun mask s =>
    .ok (s.setRegs (s.regs.setG d.toNat (wordOf (s.regs.qreg a.toNat &&& mask).toNat))))

/-- VMOVL (R273). -/
def execVmovl (p d : BitVec 4) (g : BitVec 5) (s : State) : Out :=
  s.issueV p 0xB1 [gsrc g] d (fun s _ => (fieldOf (s.regs.gval g.toNat) 31 0, 0))

/-- VMOVL.q (R273). -/
def execVmovlQ (p : BitVec 4) (d : BitVec 3) (g : BitVec 5) (s : State) : Out :=
  s.issueLanes p 0xB1 [gsrc g] [] (fun mask s =>
    .ok (s.setRegs (s.regs.putQ d.toNat (mergeBits mask (s.regs.qreg d.toNat) (.ofNat 32 (fieldOf (s.regs.gval g.toNat) 31 0))))))

/-- VLDM: plane b of input a (R274), a payload that is fixed for the invocation: it waits on nothing but its destination, so not on a VLD either (R274; log 71 for R129). An active lane in a poisoned beat poisons the destination, which keeps the value that it held (R184). -/
def execVldm (p d a b : BitVec 4) (s : State) : Out :=
  s.issueLanes p 0xB2 (s.regs.keeps p d) [.v d.toNat false] (fun mask s =>
    let word (k : Nat) : Nat := 16 * b.toNat + k / 2
    match s.input a.toNat with
    | some m =>
      if (activeLanes mask).any (fun k => payloadPoison m (word k)) then .ok (s.setRegs (s.regs.markV d.toNat .poisoned))
      else .ok (s.writeLanes mask d.toNat (fun k => (let w := payloadWord m (word k); if k % 2 = 0 then fieldOf w 31 0 else fieldOf w 63 32, 0)))
    | none => .ok (s.writeLanes mask d.toNat (fun _ => (0, 0))))

/-- VSTM (R275). -/
def execVstm (p a : BitVec 4) (g : BitVec 5) (s : State) : Out :=
  s.issueLanes p 0xB3 [vsrc a, gsrc g] [] (fun mask s => do
    let la := (s.regs.gval g.toNat).toNat
    let l := activeLanes mask
    s.checkLocal 0xB3 .vector la (4 * l.length) true 4
    let t ← s.buffer (.store [(la, l.flatMap (fun k => bytesOfNat 4 (s.laneNat a k)))] 5)
    pure (t.noteAccess 0xB3 true false la (4 * l.length)))

/-! Lane masks (R276). -/

/-- A write of the active bits of a q register. -/
def State.maskOp (s : State) (p : BitVec 4) (op : Nat) (d : BitVec 3) (f : Regs → Lane) : Out :=
  s.issueLanes p op [] [] (fun mask s => .ok (s.setRegs (s.regs.putQ d.toNat (mergeBits mask (s.regs.qreg d.toNat) (f s.regs)))))

/-- QAND (R276). -/
def execQand (p : BitVec 4) (d a b : BitVec 3) (s : State) : Out := s.maskOp p 0xB4 d (fun r => r.qreg a.toNat &&& r.qreg b.toNat)
/-- QOR (R276). -/
def execQor (p : BitVec 4) (d a b : BitVec 3) (s : State) : Out := s.maskOp p 0xB5 d (fun r => r.qreg a.toNat ||| r.qreg b.toNat)
/-- QNOT (R276). -/
def execQnot (p : BitVec 4) (d a : BitVec 3) (s : State) : Out := s.maskOp p 0xB6 d (fun r => ~~~(r.qreg a.toNat))

/-- QPOPC (R276). -/
def execQpopc (p : BitVec 4) (a : BitVec 3) (d : BitVec 5) (s : State) : Out :=
  s.issueLanes p 0xB7 [] [.g d.toNat false] (fun mask s =>
    .ok (s.setRegs (s.regs.setG d.toNat (wordOf (popCount (s.regs.qreg a.toNat &&& mask).toNat 32)))))

end Sys2Proof.Machine
end

