-- ==== Sys2Proof/Machine/Patch.lean ====
section
/-! DEFINITION. Custom opcodes on the patch: graph images, the course of an invocation, and opcodes 0xE0 to 0xE5 and 0xF0 to 0xFF (R308 to R327). -/

namespace Sys2Proof.Machine

/-! Graph images (R310 to R313). -/

/-- A graph entry (Table 13-2). -/
structure GraphEntry where
  node : Nat
  op : Nat
  srcs : List Nat
  bank : Nat
  wb : Bool
deriving DecidableEq, Repr

def graphEntry (w : Word) : GraphEntry :=
  ⟨fieldOf w 3 0, fieldOf w 8 4, [fieldOf w 17 10, fieldOf w 25 18, fieldOf w 33 26], fieldOf w 36 34, flagOf w 37⟩

/-- A graph image as its words; field of word 0 (Table 13-1). -/
abbrev Graph := List Word

def Graph.head (g : Graph) : Word := List.headD g 0
def Graph.nsrc (g : Graph) : Nat := fieldOf g.head 1 0
def Graph.nres (g : Graph) : Bool := flagOf g.head 2
def Graph.etype (g : Graph) : Nat := fieldOf g.head 5 3
def Graph.rotates (g : Graph) : Bool := flagOf g.head 6
def Graph.lat (g : Graph) : Nat := fieldOf g.head 14 8
def Graph.ii (g : Graph) : Nat := fieldOf g.head 20 16
def Graph.nent (g : Graph) : Nat := fieldOf g.head 30 24
def Graph.res0 (g : Graph) : Nat := fieldOf (List.getD g 1 0) 6 0
def Graph.res1 (g : Graph) : Nat := fieldOf (List.getD g 1 0) 14 8
/-- Constant kj, at byte 32 + 4j. -/
def Graph.const (g : Graph) (j : Nat) : Nat := fieldOf (List.getD g (4 + j / 2) 0) (31 + 32 * (j % 2)) (32 * (j % 2))
def Graph.words (g : Graph) : List Word := (List.drop 8 g).take (g.nent + 1)
def Graph.entries (g : Graph) : List GraphEntry := g.words.map graphEntry

/-- Bytes of an image of a header word (R310). -/
def graphSize (w0 : Word) : Nat := 64 + 8 * (fieldOf w0 30 24 + 1)

/-- Sources that an operation uses (Table 13-4). -/
def opSources (op : Nat) : Nat := if op = 0 ∨ op = 15 ∨ op = 16 then 1 else if op = 4 ∨ op = 7 then 3 else 2

/-- Latency of an operation (Table 13-4). -/
def opLatency (op : Nat) : Nat := if op = 3 ∨ op = 4 then 2 else 1

/-- A source code is assigned, for entry e of an image (Table 13-3). -/
def sourceOk (nsrc e code : Nat) : Bool :=
  if code < 0x78 then decide (code < e)
  else if 0x80 ≤ code ∧ code ≤ 0x82 then decide (code - 0x80 ≤ nsrc)
  else (decide (0x88 ≤ code) && decide (code ≤ 0x97)) || code == 0xA0 || code == 0xFF

/-- The sources of entry e are assigned, and 0xFF stands where R312 requires it. -/
def sourcesOk (nsrc e : Nat) (x : GraphEntry) : Bool :=
  (List.range 3).all (fun i =>
    let c := x.srcs.getD i 0
    sourceOk nsrc e c && (decide (16 < x.op) || (decide (i < opSources x.op) == (c != 0xFF))))

/-- The depths of the entries, in order (R313). -/
def depths (l : List GraphEntry) : List Nat :=
  l.foldl (fun ds x => ds ++ [opLatency x.op + (x.srcs.map (fun c => if c < 0x78 then ds.getD c 0 else 0)).foldl max 0]) []

/-- The first entry that fails a check. -/
def badEntry (l : List GraphEntry) (ok : Nat → GraphEntry → Bool) : Option Nat :=
  (List.range l.length).find? (fun e => !ok e (l.getD e ⟨0, 0, [], 0, false⟩))

/-- The first check of R313 that fails: its reason, and the entry at fault or 0. -/
def graphFault (g : Graph) : Option (Nat × Nat) :=
  let w0 := g.head
  let w1 := List.getD g 1 0
  let es := g.entries
  let headOk := g.nsrc != 3 && (g.etype == 0 || g.etype == 3 || g.etype == 4) && decide (1 ≤ g.lat) && decide (g.lat ≤ 64) &&
    decide (1 ≤ g.ii) && decide (g.ii ≤ 16) && decide (g.nent ≤ 119) && !flagOf w0 7 && !flagOf w0 15 && fieldOf w0 23 21 == 0 &&
    !flagOf w0 31 && fieldOf w0 63 48 == 0 && !flagOf w1 7 && fieldOf w1 63 15 == 0 && List.getD g 2 0 == 0 && List.getD g 3 0 == 0
  let count (n : Nat) (l : List GraphEntry) : Nat := (l.filter (fun x => x.node == n)).length
  let ds := depths es
  if !headOk then some (1, 0)
  else
    match (List.range es.length).find? (fun e => let w := g.words.getD e 0; flagOf w 9 || fieldOf w 63 38 != 0) with
    | some e => some (1, e)
    | none =>
    match badEntry es (sourcesOk g.nsrc) with
    | some e => some (2, e)
    | none =>
    match badEntry es (fun _ x => decide (x.op ≤ 16)) with
    | some e => some (3, e)
    | none =>
    match badEntry es (fun e x => decide (count x.node (es.take (e + 1)) ≤ 16)) with
    | some e => some (4, e)
    | none =>
    if (List.range 16).any (fun n => decide (g.ii < count n es)) then some (5, 0)
    else
    match badEntry es (fun e _ => decide (ds.getD e 0 ≤ g.lat)) with
    | some e => some (6, e)
    | none =>
    match badEntry es (fun e x => !(x.wb && (es.take e).any (fun y => y.wb && y.node == x.node && y.bank == x.bank))) with
    | some e => some (7, e)
    | none => if g.nent < g.res0 ∨ g.nent < g.res1 ∨ (!g.nres ∧ g.res1 ≠ 0) then some (8, 0) else none

/-! The parts of a patch. -/

def Patch.slotAt (p : Patch) (k : Nat) : PatchSlot := p.slots[k]?.getD {}
def Patch.setSlot (p : Patch) (k : Nat) (x : PatchSlot) : Patch := { p with slots := p.slots.setIfInBounds k x }
def Patch.bank (p : Patch) (n k : Nat) : PatchBank := agetD p.banks (8 * n + k) {}
def Patch.setBank (p : Patch) (n k : Nat) (x : PatchBank) : Patch := { p with banks := aset p.banks (8 * n + k) x }

/-- A patch with its values of a job load (R309). -/
def Patch.cleared (p : Patch) : Patch := { fenced := p.fenced }

/-- The state with the patch of a core changed. -/
def State.setPatch (s : State) (node : Nat) (p : Patch) : State := s.setCore node { s.core node with patch := p }

/-! Node operations (R312). -/

/-- An integer operation; `signed` for .i32. -/
def nodeInt (signed : Bool) (op a b c : Nat) : Nat :=
  let v (x : Nat) : Int := if signed then signExt x 32 else x
  let r : Int := match op with
    | 0 => a
    | 1 => a + b
    | 2 => (a : Int) - b
    | 3 => a * b
    | 4 => a * b + c
    | 5 => if v a ≤ v b then a else b
    | 6 => if v b ≤ v a then a else b
    | 7 => if c ≠ 0 then a else b
    | 8 => (a &&& b : Nat)
    | 9 => (a ||| b : Nat)
    | 10 => (a ^^^ b : Nat)
    | 11 => (a * 2 ^ (b % 32) : Nat)
    | 12 => v a / 2 ^ (b % 32)
    | 13 => if v a < v b then 2 ^ 32 - 1 else 0
    | 14 => if a = b then 2 ^ 32 - 1 else 0
    | 15 => - (a : Int)
    | _ => if signed then (v a).natAbs else a
  (r % 2 ^ 32).toNat

/-- A node operation on one lane (Table 13-4). -/
def nodeOp (md : FpMode) (etype op a b c : Nat) : FpResult :=
  if etype = 0 then
    match op with
    | 1 => f32.add md false a b
    | 2 => f32.add md true a b
    | 3 => f32.mul md a b
    | 4 => f32.fma md false a b c
    | 5 => f32.minMax false a b
    | 6 => f32.minMax true a b
    | 13 => let r := f32.compare 2 a b; (bitNat r.1 * (2 ^ 32 - 1), r.2)
    | 14 => let r := f32.compare 0 a b; (bitNat r.1 * (2 ^ 32 - 1), r.2)
    | 15 => (a ^^^ 2 ^ 31, 0)
    | 16 => (a % 2 ^ 31, 0)
    | _ => (nodeInt false op a b c, 0)
  else (nodeInt (etype == 3) op a b c, 0)

/-! An invocation (R314, R315). -/

/-- The value of a source at a lane: tokens of earlier entries, register sources, the banks as they stood, constants and the lane index (Table 13-3). -/
def sourceValue (p : Patch) (g : Graph) (rot : Nat) (regs : List (Vector Lane 32)) (toks : List (List FpResult)) (node k code : Nat) : Nat :=
  if code < 0x78 then ((toks.getD code []).getD k (0, 0)).1
  else if code ≤ 0x82 then (((regs.getD (code - 0x80) (Vector.replicate 32 0))[k]?).getD 0).toNat
  else if code ≤ 0x8F then (((p.bank node ((code - 0x88 + rot) % 8)).lanes[k]?).getD 0).toNat
  else if code ≤ 0x97 then g.const (code - 0x90)
  else if code = 0xA0 then k else 0

/-- The tokens of every entry at the active lanes (R314). -/
def graphTokens (p : Patch) (g : Graph) (rot : Nat) (md : FpMode) (mask : Lane) (regs : List (Vector Lane 32)) : List (List FpResult) :=
  g.entries.foldl (fun toks x =>
    toks ++ [laneResults mask (fun k =>
      let v (i : Nat) : Nat := sourceValue p g rot regs toks x.node k (x.srcs.getD i 0xFF)
      nodeOp md g.etype x.op (v 0) (v 1) (v 2))]) []

/-- The banks that an image's entries read, and those they write. -/
def Graph.reads (g : Graph) (rot : Nat) : List (Nat × Nat) :=
  g.entries.flatMap (fun x => (x.srcs.filter (fun c => decide (0x88 ≤ c) && decide (c ≤ 0x8F))).map (fun c => (x.node, (c - 0x88 + rot) % 8)))
def Graph.writes (g : Graph) (rot : Nat) : List (Nat × Nat) := (g.entries.filter (fun x => x.wb)).map (fun x => (x.node, (x.bank + rot) % 8))

/-- The clk in which each of the four beats enters (R315): II after the one before, and not before the writes to the lanes it reads. -/
def beatTimes (p : Patch) (g : Graph) (rot : Nat) (mask : Lane) (clk : Nat) : List Nat :=
  (List.range 4).foldl (fun ts j =>
    let earliest := match ts.getLast?, p.last with
      | some t, _ => t + g.ii
      | none, some t => t + g.ii
      | none, none => 0
    let ready := (g.reads rot).flatMap (fun b => ((List.range 8).filter (fun k => laneOn mask (8 * j + k))).map (fun k =>
      ((p.bank b.1 b.2).ready[8 * j + k]?).getD 0))
    ts ++ [ready.foldl max (max clk earliest)]) []

/-- The patch after an invocation: banks, tags, ROT and the clk of its writes. -/
def Patch.afterGraph (p : Patch) (slot : Nat) (g : Graph) (rot : Nat) (mask : Lane) (toks : List (List FpResult)) (times : List Nat) : Patch :=
  let write (q : Patch) (ex : Nat × GraphEntry) : Patch :=
    let k := (ex.2.bank + rot) % 8
    let b := q.bank ex.2.node k
    q.setBank ex.2.node k {
      lanes := mergeLanes mask b.lanes (fun j => .ofNat 32 ((((toks.getD ex.1 []).getD j (0, 0))).1))
      tag := (b.tag + 1) % 65536
      ready := Vector.ofFn (fun j : Fin 32 => if laneOn mask j.val then times.getD (j.val / 8) 0 + g.lat else b.ready[j]) }
  let es := (List.range g.entries.length).zip g.entries
  let q := (es.filter (fun e => e.2.wb)).foldl write p
  let x := q.slotAt slot
  { q.setSlot slot (if g.rotates then { x with rot := (rot + 1) % 8 } else x) with last := times.getLast? }

/-- Xn: the slot that OPMAP binds, and whether it is bound (Table 13-5). -/
def opmapSlot (w : Word) (n : Nat) : Nat := fieldOf w (4 * n + 1) (4 * n)
def opmapBound (w : Word) (n : Nat) : Bool := flagOf w (4 * n + 3)

/-- TRAPADDR and TRAPINFO of the unloaded-opcode trap (R320). -/
def unloaded (c : Core) (n : Nat) : Stop :=
  let slot := opmapSlot c.opmap n
  .trap 0x50 (some (if c.opmapAddr = 0 then 0 else wordOf (c.opmapAddr + 8 * n)))
    (some (wordOf (n + bitNat (opmapBound c.opmap n) * 16 + slot * 32 + (0xF0 + n) * 256)))

/-- The image that Xn runs, if one is bound and loaded. -/
def Core.boundGraph (c : Core) (n : Nat) : Option Graph :=
  if opmapBound c.opmap n then (c.patch.slotAt (opmapSlot c.opmap n)).image else none

/-- An invocation of an image (R314 to R316): banks, tags and ROT at once, the register results when they are due. -/
def State.runGraph (s : State) (n : Nat) (g : Graph) (mask : Lane) (d : Nat) (srcs : List Nat) : State :=
  let c := s.myCore
  let p := c.patch
  let slot := opmapSlot c.opmap n
  let rot := if g.rotates then (p.slotAt slot).rot else 0
  let toks := graphTokens p g rot s.fpMode mask (srcs.map (fun v => (s.regs.vreg v).lanes))
  let times := beatTimes p g rot mask s.clk
  let at_ := times.getLast?.getD s.clk + g.lat
  let res (e v : Nat) : Vector Lane 32 := mergeLanes mask (s.regs.vreg v).lanes (fun k => .ofNat 32 (((toks.getD e []).getD k (0, 0)).1))
  let r : PatchResult := {
    due := at_, use := { ctx := s.curCtx }, d := d, first := res g.res0 d, second := if g.nres then some (res g.res1 (d + 1)) else none
    flags := toks.foldl (fun a l => a ||| flagsOf l) 0, enabled := s.block.fpmode.extractLsb' 3 5, header := s.block.header, serial := s.me.invser }
  let q := p.afterGraph slot g rot mask toks times
  let s1 := s.setPatch s.cur { q with results := q.results ++ [r] }
  let regs := s1.regs.markV d .empty
  let s2 := s1.setMe { s1.me with regs := if g.nres then regs.markV (d + 1) .empty else regs, results := s1.me.results + 1 }
  s2.after (at_ - s.clk) (.customOpcodeResult s.cur)

/-- X0 to X15, in the order of checks of R323. -/
def execXn (n p d a b c : BitVec 4) (s : State) : Out :=
  let mask := s.regs.laneMask p
  let op := 0xF0 + n.toNat
  if mask = 0 then .next s.advance
  else if s.myCore.patch.fenced then .next (s.settle (.error (.trap 0x51 none none)))
  else
    match s.myCore.boundGraph n.toNat with
    | none => .next (s.settle (.error (unloaded s.myCore n.toNat)))
    | some g =>
      let srcs := [a, b, c].take (g.nsrc + 1)
      let dsts : List Operand := if g.nres then [.v d.toNat false, .v (d.toNat + 1) false] else [.v d.toNat false]
      let kept := if mask = 0xFFFFFFFF then [] else dsts
      if g.nres ∧ d = 15 then .next (s.settle (.error (.trap 0x0C none (some (wordOf (15 + op * 256))))))
      else
        .next (s.settle (do
          s.regs.checkDests (srcs.map vsrc ++ dsts)
          s.regs.checkSources op (srcs.map vsrc ++ kept)
          pure (s.runGraph n.toNat g mask d.toNat (srcs.map (fun v => v.toNat)))))

/-- The results of one invocation are written, and its flags with them (R316, R317). -/
def State.writeResult (s : State) (node : Nat) (r : PatchResult) : State :=
  let x := s.ctx node r.use.ctx
  let left := x.results - 1
  let x1 := { x with results := left, status := if x.status = .draining ∧ x.slots.isEmpty ∧ left = 0 then .free else x.status }
  let s1 := s.setCtx node r.use.ctx x1
  if r.use.dropped then s1
  else
    let s2 := s1.fillV node r.use r.d r.first
    let s3 := match r.second with
      | some l => s2.fillV node r.use (r.d + 1) l
      | none => s2
    let y := s3.ctx node r.use.ctx
    let orFlags (g : Regs) : Regs := { g with flags := g.flags ||| r.flags }
    let y1 := { y with regs := orFlags y.regs }
    let s4 := s3.setCtx node r.use.ctx (if r.use.inBlock then y1 else { y1 with block := y1.block.map (fun b => { b with entry := orFlags b.entry }) })
    let c := s4.core node
    let f := (r.flags &&& r.enabled).toNat
    if f = 0 ∨ flagOf c.fpfirst 0 then s4
    else s4.setCore node { c with fpfirst := wordOf (1 + f * 2 + bits r.header 47 2 * 64 + r.serial.toNat % 4096 * 2 ^ 52) }

/-- CUSTOM_OPCODE_RESULT (R316): the results that are due in this clk. -/
def execCustomOpcodeResult (node : Nat) (s : State) : Out :=
  let p := (s.core node).patch
  let now := p.results.filter (fun (r : PatchResult) => decide (r.due ≤ s.clk))
  let s1 := s.setPatch node { p with results := p.results.filter (fun (r : PatchResult) => decide (s.clk < r.due)) }
  .next (now.foldl (fun t r => t.writeResult node r) s1)

/-! Loading, saving and restoring (R324 to R327). -/

/-- The course of a CFG instruction: on a fenced patch it raises the patch-unavailable fault (R309). -/
def State.issueCfg (s : State) (p : BitVec 4) (op : Nat) (srcs dsts : List Operand) (body : State → Res State) : Out :=
  if s.regs.qualified p ∧ s.myCore.patch.fenced then .next (s.settle (.error (.trap 0x51 none none)))
  else s.issue p op srcs dsts body

/-- Every earlier X of the core is complete, or the instruction waits (R324, R326, R327). -/
def Patch.idle (p : Patch) : Res Unit := if p.results.isEmpty then .ok () else .error .wait

/-- The checks of R324 on the place of an image or save area. -/
def State.checkConfig (s : State) (op la size : Nat) (write : Bool) : Res Unit := s.checkJobRegion op la size write 64

/-- The image-format fault (R324, R327). -/
def imageFormat (op why entry slot : Nat) : Stop := .trap 0x0E none (some (wordOf (why + op * 256 + entry * 65536 + slot * 2 ^ 24)))

/-- CFG.LD (R324). -/
def execCfgLd (p : BitVec 4) (a : BitVec 5) (t : BitVec 2) (s : State) : Out :=
  s.issueCfg p 0xE0 [gsrc a] [] (fun s => do
    s.myCore.patch.idle
    let la := (s.regs.gval a.toNat).toNat
    let pa := localPhys s.cur la
    let size := if la < 2 ^ 22 ∧ laSel la = 0 then graphSize (Memory.word s.mem pa) else 64
    s.checkConfig 0xE0 la size false
    if anyPoison s pa size then .error (.trap 0x2A none (some 0))
    let g : Graph := wordsOf (Memory.readN s.mem pa size) (size / 8)
    match graphFault g with
    | some (why, e) => .error (imageFormat 0xE0 why e t.toNat)
    | none => pure (s.setPatch s.cur (s.myCore.patch.setSlot t.toNat { image := some g })))

/-- CFG.INV of a slot: it is empty (R325). -/
def execCfgInv (p : BitVec 4) (t : BitVec 2) (s : State) : Out :=
  s.issueCfg p 0xE1 [] [] (fun s => .ok (s.setPatch s.cur (s.myCore.patch.setSlot t.toNat { s.myCore.patch.slotAt t.toNat with image := none })))

/-- CFG.INV.all (R325). -/
def execCfgInvAll (p : BitVec 4) (s : State) : Out :=
  s.issueCfg p 0xE1 [] [] (fun s =>
    let q := s.myCore.patch
    .ok (s.setPatch s.cur { q with slots := q.slots.map (fun (x : PatchSlot) => { x with image := none }) }))

/-- CFG.INV.cb: every bank lane, tag and rotation is 0 (R325). -/
def execCfgInvCb (p : BitVec 4) (s : State) : Out :=
  s.issueCfg p 0xE1 [] [] (fun s =>
    let q := s.myCore.patch
    .ok (s.setPatch s.cur { q with
      slots := q.slots.map (fun (x : PatchSlot) => { x with rot := 0 })
      banks := q.banks.map (fun (e : Nat × PatchBank) => (e.1, { ready := e.2.ready })) }))

/-- CFG.BIND (R325). -/
def execCfgBind (p : BitVec 4) (d : BitVec 4) (t : BitVec 2) (s : State) : Out :=
  s.issueCfg p 0xE2 [] [] (fun s =>
    let c := s.myCore
    .ok (s.setMyCore { c with opmap := putField c.opmap (4 * d.toNat + 3) (4 * d.toNat) (8 + t.toNat) }))

/-- CFG.BIND.u (R325). -/
def execCfgBindU (p : BitVec 4) (d : BitVec 4) (s : State) : Out :=
  s.issueCfg p 0xE2 [] [] (fun s =>
    let c := s.myCore
    .ok (s.setMyCore { c with opmap := putField c.opmap (4 * d.toNat + 3) (4 * d.toNat + 3) 0 }))

/-- A query of the patch (R326). -/
def State.cfgQuery (s : State) (p : BitVec 4) (d : BitVec 5) (srcs : List Operand) (f : Patch → State → Word) : Out :=
  s.issueCfg p 0xE3 srcs [.g d.toNat false] (fun s => do
    s.myCore.patch.idle
    pure (s.setRegs (s.regs.setG d.toNat (f s.myCore.patch s))))

/-- CFG.Q.res (R326). -/
def execCfgQRes (p : BitVec 4) (d : BitVec 5) (s : State) : Out :=
  s.cfgQuery p d [] (fun q _ => wordOf (maskOf ((List.range 4).filter (fun k => (q.slotAt k).image.isSome))))

/-- CFG.Q.id (R326). -/
def execCfgQId (p : BitVec 4) (d a : BitVec 5) (s : State) : Out :=
  s.cfgQuery p d [gsrc a] (fun q s => (((q.slotAt (fieldOf (s.regs.gval a.toNat) 1 0)).image).map Graph.head).getD 0)

/-- CFG.Q.rot (R326). -/
def execCfgQRot (p : BitVec 4) (d a : BitVec 5) (s : State) : Out :=
  s.cfgQuery p d [gsrc a] (fun q s => wordOf ((q.slotAt (fieldOf (s.regs.gval a.toNat) 1 0)).rot))

/-- CFG.Q.tag (R326). -/
def execCfgQTag (p : BitVec 4) (d a : BitVec 5) (s : State) : Out :=
  s.cfgQuery p d [gsrc a] (fun q s => let w := s.regs.gval a.toNat; wordOf ((q.bank (fieldOf w 3 0) (fieldOf w 6 4)).tag))

/-- Bytes of the save area (R327). -/
def areaSize : Nat := 0x5140

/-- The save area of a core's patch (Table 13-6). -/
def Core.patchArea (c : Core) : List Byte :=
  let p := c.patch
  let slot (k : Nat) : List Byte := fit 1024 0 (((p.slotAt k).image.map bytesOfWords).getD [])
  let word := maskOf ((List.range 4).filter (fun k => (p.slotAt k).image.isSome)) + ((List.range 4).map (fun k => (p.slotAt k).rot % 8 * 2 ^ (4 * k + 8))).sum
  bytesOfWord c.opmap ++ bytesOfNat 8 word ++ List.replicate 48 0 ++
  (List.range 128).flatMap (fun k => bytesOfNat 2 (p.bank (k / 8) (k % 8)).tag) ++ (List.range 4).flatMap slot ++
  (List.range 128).flatMap (fun k => (p.bank (k / 8) (k % 8)).lanes.toList.flatMap (fun l => bytesOfNat 4 l.toNat))

/-- The image in a slot of a save area, and the padding behind it. -/
def areaSlot (bs : List Byte) (k : Nat) : Graph × List Byte :=
  let img := (bs.drop (0x140 + 0x400 * k)).take 1024
  let n := min 1024 (graphSize (wordAt img 0))
  (wordsOf img (n / 8), img.drop n)

/-- What makes a save area invalid: reason, entry and slot (R327). -/
def areaFault (bs : List Byte) : Option (Nat × Nat × Nat) :=
  let w := wordAt bs 8
  let zero (l : List Byte) : Bool := l.all (fun b => b == 0)
  if wordAt bs 0 &&& 0x4444444444444444 ≠ 0 ∨ w &&& ~~~0x77770F#64 ≠ 0 ∨ !zero ((bs.drop 16).take 48) then some (9, 0, 0)
  else
    (List.range 4).findSome? (fun k =>
      let (g, pad) := areaSlot bs k
      if flagOf w k then
        match graphFault g with
        | some (why, e) => some (why, e, k)
        | none => if zero pad then none else some (9, 0, k)
      else if zero ((bs.drop (0x140 + 0x400 * k)).take 1024) then none else some (9, 0, k))

/-- The core with the patch state of a save area (R327). -/
def Core.restorePatch (c : Core) (bs : List Byte) : Core :=
  let w := wordAt bs 8
  let bank (k : Nat) : PatchBank :=
    { tag := numAt bs (0x40 + 2 * k) 2
      lanes := Vector.ofFn (fun j : Fin 32 => .ofNat 32 (numAt bs (0x1140 + 128 * k + 4 * j.val) 4)) }
  { c with
    opmap := wordAt bs 0
    patch := { c.patch with
      slots := Vector.ofFn (fun k : Fin 4 => { image := if flagOf w k.val then some (areaSlot bs k.val).1 else none, rot := fieldOf w (4 * k.val + 10) (4 * k.val + 8) })
      banks := ((List.range 128).map (fun k => (k, bank k))).filter (fun (e : Nat × PatchBank) => e.2 != {}) } }

/-- CFG.SAVE, privileged (R322, R327). -/
def execCfgSave (p : BitVec 4) (a : BitVec 5) (s : State) : Out :=
  if s.regs.qualified p ∧ !s.isSystem then .next (s.settle (.error (.trap 0x02 none none)))
  else
    s.issueCfg p 0xE4 [gsrc a] [] (fun s => do
      s.myCore.patch.idle
      let la := (s.regs.gval a.toNat).toNat
      s.checkConfig 0xE4 la areaSize true
      pure (writeUnits s (localPhys s.cur la) s.myCore.patchArea).1)

/-- CFG.REST, privileged (R322, R327). -/
def execCfgRest (p : BitVec 4) (a : BitVec 5) (s : State) : Out :=
  if s.regs.qualified p ∧ !s.isSystem then .next (s.settle (.error (.trap 0x02 none none)))
  else
    s.issueCfg p 0xE5 [gsrc a] [] (fun s => do
      s.myCore.patch.idle
      let la := (s.regs.gval a.toNat).toNat
      let pa := localPhys s.cur la
      s.checkConfig 0xE5 la areaSize false
      if anyPoison s pa areaSize then .error (.trap 0x2A none (some 0))
      let bs := Memory.readN s.mem pa areaSize
      match areaFault bs with
      | some (why, e, k) => .error (imageFormat 0xE5 why e k)
      | none => pure (s.setMyCore (s.myCore.restorePatch bs)))

end Sys2Proof.Machine
end

