-- ==== Sys2Proof/Machine/Sha.lean ====
section
/-! DEFINITION. SHA-256 of FIPS 180-4, and RSASSA-PSS of RFC 8017 with RSA-3072, SHA-256, MGF1 over SHA-256, a salt of 32 bytes and trailer 0xBC, which the seal engine, ATTEST and firmware images use (R441 to R443, R467, R471). -/

namespace Sys2Proof.Machine

/-- The constants of the 64 rounds. -/
def shaRound0 : List Lane :=
  [0x428A2F98, 0x71374491, 0xB5C0FBCF, 0xE9B5DBA5, 0x3956C25B, 0x59F111F1, 0x923F82A4, 0xAB1C5ED5,
   0xD807AA98, 0x12835B01, 0x243185BE, 0x550C7DC3, 0x72BE5D74, 0x80DEB1FE, 0x9BDC06A7, 0xC19BF174,
   0xE49B69C1, 0xEFBE4786, 0x0FC19DC6, 0x240CA1CC, 0x2DE92C6F, 0x4A7484AA, 0x5CB0A9DC, 0x76F988DA,
   0x983E5152, 0xA831C66D, 0xB00327C8, 0xBF597FC7, 0xC6E00BF3, 0xD5A79147, 0x06CA6351, 0x14292967]

def shaRound1 : List Lane :=
  [0x27B70A85, 0x2E1B2138, 0x4D2C6DFC, 0x53380D13, 0x650A7354, 0x766A0ABB, 0x81C2C92E, 0x92722C85,
   0xA2BFE8A1, 0xA81A664B, 0xC24B8B70, 0xC76C51A3, 0xD192E819, 0xD6990624, 0xF40E3585, 0x106AA070,
   0x19A4C116, 0x1E376C08, 0x2748774C, 0x34B0BCB5, 0x391C0CB3, 0x4ED8AA4A, 0x5B9CCA4F, 0x682E6FF3,
   0x748F82EE, 0x78A5636F, 0x84C87814, 0x8CC70208, 0x90BEFFFA, 0xA4506CEB, 0xBEF9A3F7, 0xC67178F2]

/-- The eight words of the hash value. -/
structure ShaState where
  a : Lane
  b : Lane
  c : Lane
  d : Lane
  e : Lane
  f : Lane
  g : Lane
  h : Lane
deriving DecidableEq, Repr

def shaInit : ShaState :=
  ⟨0x6A09E667, 0xBB67AE85, 0x3C6EF372, 0xA54FF53A, 0x510E527F, 0x9B05688C, 0x1F83D9AB, 0x5BE0CD19⟩

def shaBig0 (x : Lane) : Lane := x.rotateRight 2 ^^^ x.rotateRight 13 ^^^ x.rotateRight 22
def shaBig1 (x : Lane) : Lane := x.rotateRight 6 ^^^ x.rotateRight 11 ^^^ x.rotateRight 25
def shaSmall0 (x : Lane) : Lane := x.rotateRight 7 ^^^ x.rotateRight 18 ^^^ x >>> 3
def shaSmall1 (x : Lane) : Lane := x.rotateRight 17 ^^^ x.rotateRight 19 ^^^ x >>> 10

/-- One round, with the sum of its constant and its schedule word. -/
def ShaState.round (s : ShaState) (kw : Lane) : ShaState :=
  let t1 := s.h + shaBig1 s.e + ((s.e &&& s.f) ^^^ (~~~s.e &&& s.g)) + kw
  let t2 := shaBig0 s.a + ((s.a &&& s.b) ^^^ (s.a &&& s.c) ^^^ (s.b &&& s.c))
  ⟨t1 + t2, s.a, s.b, s.c, s.d + t1, s.e, s.f, s.g⟩

/-- A number from bytes, highest first. -/
def bigEndian (l : List Byte) : Nat := l.foldl (fun a b => a * 256 + b.toNat) 0

/-- Bytes of a number, highest first. -/
def bigBytes (n x : Nat) : List Byte := (bytesOfNat n x).reverse

/-- The 64 schedule words of a block of 64 bytes. -/
def shaSchedule (block : List Byte) : List Lane :=
  let first : List Lane := (List.range 16).map (fun i => .ofNat 32 (bigEndian ((block.drop (4 * i)).take 4)))
  ((List.range 48).foldl (fun (r : List Lane) _ =>
    (shaSmall1 (r.getD 1 0) + r.getD 6 0 + shaSmall0 (r.getD 14 0) + r.getD 15 0) :: r) first.reverse).reverse

/-- One block. -/
def ShaState.block (s : ShaState) (block : List Byte) : ShaState :=
  let t := (List.zipWith (fun (k w : Lane) => k + w) (shaRound0 ++ shaRound1) (shaSchedule block)).foldl ShaState.round s
  ⟨s.a + t.a, s.b + t.b, s.c + t.c, s.d + t.d, s.e + t.e, s.f + t.f, s.g + t.g, s.h + t.h⟩

/-- The blocks of a padded message, n of them. -/
def shaBlocks : Nat → ShaState → List Byte → ShaState
  | 0, s, _ => s
  | n + 1, s, l => shaBlocks n (s.block (l.take 64)) (l.drop 64)

/-- SHA-256 of a list of bytes: 32 bytes. -/
def sha256 (l : List Byte) : List Byte :=
  let n := l.length
  let padded := l ++ [0x80] ++ List.replicate ((119 - n % 64) % 64) 0 ++ bigBytes 8 (8 * n)
  let s := shaBlocks (padded.length / 64) shaInit padded
  [s.a, s.b, s.c, s.d, s.e, s.f, s.g, s.h].flatMap (fun (w : Lane) => bigBytes 4 w.toNat)

/-! RSASSA-PSS (R443, R467). -/

/-- b to the power of a number of 3,072 bits, modulo n. -/
def powMod (b e n : Nat) : Nat :=
  (List.range 3072).foldl (fun r i => let x := r * r % n; if bitAt e (3071 - i) then x * b % n else x) (1 % n)

/-- MGF1 over SHA-256: n bytes from a seed. -/
def mgf1 (seed : List Byte) (n : Nat) : List Byte :=
  ((List.range ((n + 31) / 32)).flatMap (fun k => sha256 (seed ++ bigBytes 4 k))).take n

def xorBytes (a b : List Byte) : List Byte := List.zipWith (fun x y => x ^^^ y) a b

/-- The first byte without its top bit: 384 bytes hold 3,071. -/
def clearTop : List Byte → List Byte
  | b :: r => (b &&& 0x7F) :: r
  | [] => []

/-- The hash of eight zero bytes, the hash of a message, and the salt. -/
def pssHash (message salt : List Byte) : List Byte := sha256 (List.replicate 8 0 ++ sha256 message ++ salt)

/-- The encoded message of a salt of 32 bytes: 384 bytes. -/
def pssEncode (message salt : List Byte) : List Byte :=
  let h := pssHash message salt
  clearTop (xorBytes (List.replicate 318 0 ++ [0x01] ++ salt) (mgf1 h 351)) ++ h ++ [0xBC]

/-- The signature of a message: 384 bytes, highest first. -/
def pssSign (modulus exponent : Nat) (message salt : List Byte) : List Byte :=
  bigBytes 384 (powMod (bigEndian (pssEncode message salt)) exponent modulus)

/-- A signature of 384 bytes verifies. -/
def pssVerify (modulus exponent : Nat) (message signature : List Byte) : Bool :=
  let x := bigEndian signature
  let em := bigBytes 384 (powMod x exponent modulus)
  let masked := em.take 351
  let h := (em.drop 351).take 32
  let db := clearTop (xorBytes masked (mgf1 h 351))
  decide (x < modulus) && signature.length == 384 && em.drop 383 == [0xBC] && clearTop masked == masked &&
  db.take 319 == List.replicate 318 0 ++ [0x01] && pssHash message (db.drop 319) == h

end Sys2Proof.Machine
end

