-- ==== Sys2Proof/Machine/Queues.lean ====
section
/-! DEFINITION. The queue logic of a base die: PUSH, POP, LEN, CREATE, DESTROY and what is no command (R66 to R70, R243 to R247). -/

namespace Sys2Proof.Machine

/-! The parts of a command (R243). -/

/-- Flags of a command: HOLD, TASK and FWD. -/
def cmdHold (m : Packet) : Bool := bitAt (numAt (bytesOf m) 1 1) 0
def cmdTask (m : Packet) : Bool := bitAt (numAt (bytesOf m) 1 1) 1
def cmdFwd (m : Packet) : Bool := bitAt (numAt (bytesOf m) 1 1) 2

/-- The queue number of a command. -/
def cmdQueue (m : Packet) : Nat := numAt (bytesOf m) 2 2

/-- JOB and capacity of a CREATE, in bytes 4 to 7 and 8 to 11 of its beat (log 15). -/
def cmdJob (m : Packet) : Nat := numAt (bytesOf m) 4 4
def cmdCap (m : Packet) : Nat := numAt (bytesOf m) 8 4

/-- The entry of a PUSH: header word 0, key and payload. -/
def cmdEntry (m : Packet) : Packet :=
  { w0 := m.payload.getD 2 0, w1 := m.payload.getD 3 0, payload := m.payload.drop 4, poison := m.poison.drop 1 }

/-- The command was issued by a system context: the request that awaits its answer says so. -/
def State.fromSystem (s : State) (m : Packet) : Bool :=
  (((s.core m.src).pending.find? (fun p => p.tag == m.tag)).map (fun p => p.ctx == 10)).getD false

/-! Whose queue it is (Table 3-5). -/

/-- The core of a die with core index k (R67). -/
def coreOfIndex (die k : Nat) : Nat :=
  coreNode (nodeModule die) (nodeDie die % 4 * 20 + k / 4 % 20) (nodeDie die / 4 * 30 + k / 80) (k % 4)

/-- A queue number as Table 3-5 divides them. -/
inductive QueueName where
  | spill (node pri : Nat)
  | overflow (node : Nat)
  | absent (job : Nat)
  | task (q : Nat)
  | reserved
deriving DecidableEq, Repr

def queueName (die q : Nat) : QueueName :=
  if q < 0x2580 then .spill (coreOfIndex die (q / 4)) (q % 4)
  else if q < 0x2EE0 then .overflow (coreOfIndex die (q - 0x2580))
  else if 0x3000 ≤ q ∧ q < 0x4000 then .absent (q - 0x3000)
  else if 0x4000 ≤ q ∧ q < 0x5000 then .task q
  else .reserved

/-- The task queue that a command may act on: of its own job, or any for a system context (R67, R68). -/
def State.taskQueue (s : State) (m : Packet) : Option TaskQueue :=
  match aget (s.die (destOf m)).tasks (cmdQueue m) with
  | some t => if s.fromSystem m ∨ t.job = jobOf m then some t else none
  | none => none

/-- The state with a task queue changed. -/
def State.setTask (s : State) (die q : Nat) (t : TaskQueue) : State :=
  let d := s.die die
  s.setDie die { d with tasks := aset d.tasks q t }

/-! Destinations of task entries (R406). -/

/-- Header word 0 with its node in job-relative form, under the job's placement; other nodes keep their module. -/
def relativeWord (pl : Word) (r : JobRecord) (w : Word) : Word :=
  let n := fieldOf w 63 42
  let jm := ((List.range (r.nmod + 1)).find? (fun k => r.modmap.getD k 0 == nodeModule n)).getD (nodeModule n)
  putField w 63 42 (if nodeIsEnd n then endNode jm (nodeDie n) (nodeClass n) (nodeIndex n)
    else coreNode jm ((nodeX n + 128 - plBX pl) % 128) ((nodeY n + 64 - plBY pl) % 64) (nodeCore n))

/-- Header word 0 with its node in absolute form, under the job's placement. -/
def absoluteWord (pl : Word) (r : JobRecord) (w : Word) : Word :=
  let n := fieldOf w 63 42
  let md := r.modmap.getD (nodeModule n) (nodeModule n)
  putField w 63 42 (if nodeIsEnd n then endNode md (nodeDie n) (nodeClass n) (nodeIndex n)
    else coreNode md ((nodeX n + plBX pl) % 128) ((nodeY n + plBY pl) % 64) (nodeCore n))

/-- A PUSH whose entry has its destination in job-relative form, by the job's last placement; one that has it already, no task, and a push for a job that was never placed stay as they are (R406). -/
def State.settlePush (s : State) (job : Nat) (m : Packet) : Packet :=
  match aget s.jobs job with
  | some j =>
    if cmdTask m ∧ !m.counted ∧ !j.placed.isEmpty then
      { m with payload := m.payload.set 2 (relativeWord j.plbase j.placedRecord (m.payload.getD 2 0)), counted := true }
    else m
  | none => m

/-- An entry as a task queue keeps it, with its TASK flag: the destination of a task is job-relative (R406). -/
def State.storeEntry (s : State) (job : Nat) (m : Packet) : Packet × Bool := (cmdEntry (s.settlePush job m), cmdTask m)

/-- An entry as a task queue hands it out. -/
def State.loadEntry (s : State) (job : Nat) (e : Packet) (task : Bool) : Packet :=
  match task, aget s.jobs job with
  | true, some j => { e with w0 := absoluteWord j.plbase j.placedRecord e.w0 }
  | _, _ => e

/-- The job of a task queue waits for the placer, is saved or is being restored: it is not resident, and its commands wait (R406). -/
def State.jobAway (s : State) (job : Nat) : Bool :=
  match aget s.jobs job with
  | some j => j.status == .waiting || j.status == .saved || j.status == .restoring
  | none => false

/-- A command that is refused (R68). -/
def State.refuse (s : State) (m : Packet) : State := s.answer m 1

/-- An earlier command on the same queue waits: the queue performs them in arrival order (R69). -/
def State.queueBehind (s : State) (m : Packet) : Bool := (s.heldBefore m).any (fun e => destOf e == destOf m && cmdQueue e == cmdQueue m)

/-- A command that is not to wait is performed (R69). -/
def State.queueAct (s : State) (m : Packet) (f : State → State) : Out := .next ((f s).unheld m)

/-- A command waits: behind an earlier one on its queue, or for the job of its task queue (R69, R406). -/
def State.queueWaits (s : State) (m : Packet) : Bool := s.queueBehind m || ((s.taskQueue m).map (fun t => s.jobAway t.job)).getD false

/-- A PUSH as it waits: with its destination in job-relative form where its task queue is known (R406). -/
def State.waitingPush (s : State) (m : Packet) : Packet :=
  match s.taskQueue m with
  | some t => s.settlePush t.job m
  | none => m

/-! The commands (Table 3-6). -/

/-- PUSH (R68 to R70, R244, R406): a full task queue answers "full" or holds the push, which keeps its destination in job-relative form; a push to a hardware list waits while the pool is empty. -/
def execPush (m : Packet) (s : State) : Out :=
  if s.queueWaits m then .next (s.holdAs m (s.waitingPush m))
  else
    let die := destOf m
    match queueName die (cmdQueue m) with
    | .task q =>
      match s.taskQueue m with
      | some t =>
        s.queueAct m (fun s =>
          if t.entries.length < t.cap then (s.setTask die q { t with entries := t.entries ++ [s.storeEntry t.job m] }).answer m 0 [1]
          else if cmdHold m then s.setTask die q { t with held := t.held ++ [s.settlePush t.job m] }
          else s.answer m queueFull)
      | none => s.queueAct m (fun s => s.refuse m)
    | .absent j =>
      let d := s.die die
      let a := agetD d.absent j {}
      let n := a.entries.length
      if s.fromSystem m ∧ !d.accepts n then .next ((s.poolEmpty die).hold m)
      else
        s.queueAct m (fun s =>
          if !s.fromSystem m then s.refuse m
          else (s.setDie die { d.relist n (n + 1) with absent := aset d.absent j { a with entries := a.entries ++ [{ cmdEntry m with counted := true }] } }).answer m 0 [1])
    | _ => s.queueAct m (fun s => s.refuse m)

/-- The words of a reply that carries an entry: header word 0, key, the TASK flag and the payload (R246). -/
def entryReply (e : Packet) (task : Bool) : List Word := [e.w0, e.w1, wordOf (bitNat task), 0] ++ e.payload

/-- A popped entry goes to its requester; poisoned beats stay poisoned (R246). -/
def State.answerEntry (s : State) (m e : Packet) (task : Bool) : State :=
  let r := answerTo m 0 (entryReply e task) false
  s.send { r with poison := false :: e.poison }

/-- A slot of a task queue is free: the first held push takes it (R244). -/
def State.unhold (s : State) (die q : Nat) : State :=
  match aget (s.die die).tasks q with
  | some t =>
    match t.held with
    | h :: r =>
      if t.entries.length < t.cap then
        (s.setTask die q { t with entries := t.entries ++ [s.storeEntry t.job h], held := r }).answer h 0 [1]
      else s
    | [] => s
  | none => s

/-- POP (R68, R246): with FWD a task is sent on as a handler message, and any other head stays. -/
def execPop (m : Packet) (s : State) : Out :=
  if s.queueWaits m then .next (s.hold m)
  else
    s.queueAct m (fun s =>
      let die := destOf m
      match queueName die (cmdQueue m) with
      | .task q =>
        match s.taskQueue m with
        | some t =>
          match t.entries with
          | [] => s.answer m queueEmpty
          | (e0, task) :: r =>
            let e := s.loadEntry t.job e0 task
            let s1 := (s.setTask die q { t with entries := r }).unhold die q
            if cmdFwd m then
              if task then (s1.send { e with src := die, tag := 0 }).answer m 0
              else s.answer m queueNotTask
            else s1.answerEntry m e task
        | none => s.refuse m
      | .absent j =>
        let d := s.die die
        if !s.fromSystem m then s.refuse m
        else
          let a := agetD d.absent j {}
          match a.entries with
          | [] => s.answer m queueEmpty
          | e :: r =>
            if cmdFwd m then s.answer m queueNotTask
            else (s.setDie die { d.relist (r.length + 1) r.length with absent := aset d.absent j { a with entries := r } }).answerEntry m e false
      | _ => s.refuse m)

/-- LEN (R68); a system context's goes on while the job of a task queue is away (R406). -/
def execLen (m : Packet) (s : State) : Out :=
  let die := destOf m
  let away := ((s.taskQueue m).map (fun t => s.jobAway t.job)).getD false
  if s.queueWaits m ∧ !(s.fromSystem m ∧ away) then .next (s.hold m)
  else
    s.queueAct m (fun s =>
      let count (n : Nat) : State := if s.fromSystem m then s.answer m 0 [wordOf n] else s.refuse m
      match queueName die (cmdQueue m) with
      | .spill node p => count ((s.core node).q.spillAt p).length
      | .overflow node => count (s.core node).q.overflow.length
      | .absent j => count (agetD (s.die die).absent j {}).entries.length
      | .task _ =>
        match s.taskQueue m with
        | some t => s.answer m 0 [wordOf t.entries.length]
        | none => s.refuse m
      | .reserved => s.refuse m)

/-- CREATE (R68, R70): a task queue is bound to a job and its slots reserved. -/
def execCreate (m : Packet) (s : State) : Out :=
  if s.queueBehind m then .next (s.hold m)
  else
    s.queueAct m (fun s =>
      let die := destOf m
      let d := s.die die
      match queueName die (cmdQueue m) with
      | .task q =>
        if !s.fromSystem m ∨ (aget d.tasks q).isSome ∨ cmdCap m = 0 ∨ 2 ^ 20 < cmdCap m then s.refuse m
        else if d.room < cmdCap m then s.answer m queueNoRoom
        else (s.setDie die { d with tasks := aset d.tasks q { job := cmdJob m % 4096, cap := cmdCap m }, reserved := d.reserved + cmdCap m }).answer m 0 [1]
      | _ => s.refuse m)

/-- DESTROY (R68): entries are discarded, and held pushes refused. -/
def execDestroy (m : Packet) (s : State) : Out :=
  if s.queueBehind m ∨ (s.fromSystem m ∧ s.queueWaits m) then .next (s.hold m)
  else
    s.queueAct m (fun s =>
      let die := destOf m
      let d := s.die die
      match queueName die (cmdQueue m), aget d.tasks (cmdQueue m) with
      | .task q, some t =>
        if !s.fromSystem m then s.refuse m
        else
          let s1 := s.setDie die { d with tasks := adel d.tasks q, reserved := d.reserved - t.cap }
          (t.held.foldl (fun u h => u.refuse h) s1).answer m 0 [1]
      | _, _ => s.refuse m)

/-- INVALID_QUEUE_COMMAND (R68). -/
def execInvalidQueueCommand (m : Packet) (s : State) : Out := .next (s.answer m queueInvalid)

end Sys2Proof.Machine
end

