-- ==== Sys2Proof/Machine/System.lean ====
section
/-! DEFINITION. Special registers, ending traps, shootdowns and probes, sealing, trace, watchpoints and counters: opcodes 0x8B, 0x8C and 0xD0 to 0xDD (R351 to R366). -/

namespace Sys2Proof.Machine

/-- The system-operand fault, with the register at fault (R352). -/
def badOperand (op reg : Nat) : Stop := .trap 0x0A none (some (wordOf (reg % 32 + op * 256)))

/-- A register operand meets its layout, or raises the system-operand fault (R352). -/
def needOperand (op reg : Nat) (ok : Bool) : Res Unit := if ok then .ok () else .error (badOperand op reg)

/-- An effect of the block's commit (R356, R359, R364, R365). -/
def State.atCommit (s : State) (a : AtCommit) : State := s.onBlock (fun b => { b with acts := b.acts ++ [a] })

/-! Engine commands (R352). -/

/-- A command beat with its code in byte 0, an operand in bytes 4 to 7 and one in bytes 8 to 15. -/
def commandBeat (code x : Nat) (y : Word) : List Word := [wordOf (code + x % 2 ^ 32 * 2 ^ 32), y, 0, 0]

/-- A command to an engine, with its reply selector. -/
def State.engineCommand (s : State) (n sel : Nat) (pay : List Word) (poison : List Bool) : Packet :=
  { w0 := Machine.msgHeader n 0 sel s.me.jobid (pay.length / 4) false 0 false s.regs.flags.toNat 3
    w1 := 0, payload := pay, poison := poison, src := s.cur, aclass := aclassOf s.cur n, ctx := s.curCtx }

/-- A command is buffered; with a result register it reserves a reply slot, without one its reply is dropped (R120, R352). -/
def State.bufferEngine (s : State) (d n : Nat) (pay : List Word) (poison : List Bool) : Res State :=
  if d = 0 then s.buffer (.msg (s.engineCommand n ackSelector pay poison) none plainAnswer none)
  else s.bufferCommand d .engine (fun sel => s.engineCommand n sel pay poison)

/-- The memory core that a stream handle names (R52, R354). -/
def State.streamNode (s : State) (h : Word) : Res Nat :=
  let n := fieldOf h 21 0
  if goodNode s.present n then .ok n else .error (badDestination n)

/-- STRM.EXT (R354). -/
def execStrmExt (p : BitVec 4) (d a b : BitVec 5) (s : State) : Out :=
  s.issue p 0x8B [gsrc a, gsrc b] [.g d.toNat false] (fun s => do
    let h := s.regs.gval a.toNat
    let v := s.regs.gval b.toNat
    needOperand 0x8B a.toNat (fieldOf h 63 32 == 0)
    needOperand 0x8B b.toNat (fieldOf v 63 32 == 0)
    let n ← s.streamNode h
    s.bufferEngine d.toNat n (commandBeat 2 h.toNat v) [false])

/-- STRM.STOP (R354). -/
def execStrmStop (p : BitVec 4) (d a : BitVec 5) (s : State) : Out :=
  s.issue p 0x8C [gsrc a] [.g d.toNat false] (fun s => do
    let h := s.regs.gval a.toNat
    needOperand 0x8C a.toNat (fieldOf h 63 32 == 0)
    let n ← s.streamNode h
    s.bufferEngine d.toNat n (commandBeat 3 h.toNat 0) [false])

/-! Special registers (R356 to R358). -/

def Hasp.code : Hasp → Nat
  | .none => 0
  | .requested => 1
  | .held => 2
  | .lost => 3

/-- MXSTAT (Table 12-5). -/
def State.mxstat (s : State) (node k : Nat) : Word :=
  let x := s.ctx node k
  wordOf (x.hasp.code + x.haspCnt % 128 * 4 + bitNat x.report.isSome * 512 +
    (s.core node).mxflags.toNat * 1024)

/-- HINGE (Table 15-6). -/
def HingeState.word (h : HingeState) : Word :=
  wordOf (bitNat h.arm + bitNat h.src * 2 + bitNat h.saved * 4 + h.closed.length % 128 * 8)

/-- The value that MFS reads (Table 15-3). -/
def State.readSpecial (s : State) (n : Nat) : Word :=
  let x := s.me
  let c := s.myCore
  match n with
  | 0x00 => c.keyring
  | 0x01 => c.keyown 0
  | 0x02 => c.keyown 1
  | 0x03 => c.keyown 2
  | 0x04 => c.keyown 3
  | 0x05 => wordOf s.curCtx
  | 0x06 => wordOf s.cur
  | 0x07 => wordOf (x.jobid % 4096)
  | 0x08 => c.plbase
  | 0x09 => c.wkdesc
  | 0x0A => wordOf x.fpmode.toNat
  | 0x0B => wordOf x.regs.flags.toNat
  | 0x0C => c.fpfirst
  | 0x0D => x.trap.cause
  | 0x0E => x.trap.addr
  | 0x0F => x.trap.blk
  | 0x10 => x.trap.info
  | 0x11 => x.invser
  | 0x12 => wordOf (s.cycle s.cur)
  | 0x13 => wordOf (x.budgetLeft % 2 ^ 32 + bitNat x.budgetOn * 2 ^ 32)
  | 0x14 => c.hinge.word
  | 0x15 => wordOf (stackBase s.cur s.curCtx)
  | 0x16 => c.opmap
  | 0x17 => c.lattice.latstat
  | 0x18 => s.mxstat s.cur s.curCtx
  | _ => c.dbg.replayctl

/-- MFS (R356). -/
def execMfs (p : BitVec 4) (d : BitVec 5) (i : BitVec 10) (s : State) : Out :=
  s.issue p 0xD0 [] [.g d.toNat false] (fun s => do
    s.me.checkAcquire
    pure (s.setRegs (s.regs.setG d.toNat (s.readSpecial i.toNat))))

/-- MTS (R356): FPFLAGS is written at issue in the block's copy, every other register at the block's commit. -/
def execMts (p : BitVec 4) (a : BitVec 5) (i : BitVec 10) (s : State) : Out :=
  let body (s : State) : Res State :=
    let v := s.regs.gval a.toNat
    if i = 0x0B then .ok (s.setRegs { s.regs with flags := .ofNat 5 (fieldOf v 4 0) })
    else .ok (s.atCommit (.mts i.toNat v))
  if i = 0x0A ∨ i = 0x0B then s.issue p 0xD1 [gsrc a] [] body
  else s.issuePriv p 0xD1 [gsrc a] [] body

/-! Ending traps (R359). -/

/-- What register a of TRESUME, TKILL and TRETRY names is in its layout. -/
def trapTargetOk (a : Word) : Bool :=
  fieldOf a 63 5 == 0 && (if flagOf a 4 then fieldOf a 3 2 == 0 else decide (fieldOf a 3 0 ≤ 9))

/-- The context or paused head that an effect of the block names: contexts by number, heads from 16. -/
def AtCommit.names : AtCommit → Option Nat
  | .tresume k => some k
  | .tkill k => some k
  | .tretry k _ _ => some k
  | .resumeHead p => some (16 + p)
  | .killHead p => some (16 + p)
  | _ => none

/-- An effect that only names a context or a paused head, so that no later one of its block acts on it (R359). -/
def AtCommit.name (k : Nat) : AtCommit := .tretry k none 4

/-- An earlier instruction of the block names the same context or head. -/
def State.named (s : State) (k : Nat) : Bool := s.block.acts.any (fun a => a.names == some k)

/-- The status of TRESUME and TKILL. -/
def State.trapStatus (s : State) (k : Nat) : Nat :=
  if s.named k then 1
  else if 16 ≤ k then (if s.myCore.q.pausedAt (k - 16) then 0 else 1)
  else if (s.ctx s.cur k).status = .parked then 0 else 1

/-- The status of TRETRY, and the core to which the entry moves. -/
def State.retryStatus (s : State) (k : Nat) (b : Word) : Nat × Option Nat :=
  if s.named k ∨ 16 ≤ k then (1, none)
  else
    let x := s.ctx s.cur k
    match x.invocation with
    | some i =>
      if x.status ≠ .parked then (1, none)
      else if i.finished then (0, none)
      else if i.consumed then (3, none)
      else if i.retry ≤ i.entry.retries then (2, none)
      else
        match s.retryTarget s.cur x.jobid (fieldOf b 3 0) (flagOf b 4) with
        | some t => (0, some t)
        | none => (4, none)
    | none => (1, none)

/-- The status word of g[d] (R352). -/
def statusWord (st : Nat) : Word := engineWord 0 st 0

/-- TRESUME and TKILL (R359). -/
def State.endTrap (s : State) (p : BitVec 4) (op : Nat) (d a : BitVec 5) (onCtx onHead : Nat → AtCommit) : Out :=
  s.issuePriv p op [gsrc a] [.g d.toNat false] (fun s => do
    let v := s.regs.gval a.toNat
    needOperand op a.toNat (trapTargetOk v)
    let st := s.trapStatus v.toNat
    let t := s.setRegs (s.regs.setG d.toNat (statusWord st))
    pure (t.atCommit (if st ≠ 0 then .name v.toNat else if flagOf v 4 then onHead (fieldOf v 1 0) else onCtx (fieldOf v 3 0))))

/-- TRESUME (R359). -/
def execTresume (p : BitVec 4) (d a : BitVec 5) (s : State) : Out := s.endTrap p 0xD2 d a .tresume .resumeHead

/-- TKILL (R359). -/
def execTkill (p : BitVec 4) (d a : BitVec 5) (s : State) : Out := s.endTrap p 0xD3 d a .tkill .killHead

/-- TRETRY (R359); one that does nothing still names its context for the rest of the block, and with a [4] = 1 it names nothing. -/
def execTretry (p : BitVec 4) (d a b : BitVec 5) (s : State) : Out :=
  s.issuePriv p 0xD4 [gsrc a, gsrc b] [.g d.toNat false] (fun s => do
    let v := s.regs.gval a.toNat
    let w := s.regs.gval b.toNat
    needOperand 0xD4 a.toNat (fieldOf v 63 5 == 0 && (flagOf v 4 || decide (fieldOf v 3 0 ≤ 9)))
    needOperand 0xD4 b.toNat (fieldOf w 63 5 == 0 && (!flagOf w 4 || fieldOf w 3 0 == 0))
    let (st, t) := s.retryStatus v.toNat w
    let u := s.setRegs (s.regs.setG d.toNat (statusWord st))
    pure (if flagOf v 4 then u else u.atCommit (if st = 1 then .name v.toNat else .tretry v.toNat t st)))

/-! Translation (R360, R361). -/

/-- The size code of R360 of a leaf's level. -/
def sizeCode (lvl : Nat) : Nat := 3 - lvl

/-- TLBI: s [0] .d, s [1] .all (R360). -/
def execTlbi (p : BitVec 4) (d a b : BitVec 5) (t : BitVec 2) (s : State) : Out :=
  let all := bitAt t.toNat 1
  s.issuePriv p 0xD5 [gsrc a, gsrc b] [.g d.toNat false] (fun s => do
    let va := s.regs.gval a.toNat
    let w := s.regs.gval b.toNat
    if 2 ^ 48 ≤ va.toNat then .error (.trap 0x05 none none)
    needOperand 0xD5 a.toNat (!all || va == 0)
    needOperand 0xD5 b.toNat (fieldOf w 63 14 == 0 && (!all || fieldOf w 13 12 == 0))
    let (slot, s1) ← s.bufferedResult d.toNat .shootdown
    let (tag, s2) := s1.tagOf s.cur s.curCtx slot
    s2.buffer (.tlbi ⟨s.cur, s.curCtx, fieldOf w 11 0, all, va, fieldOf w 13 12, bitAt t.toNat 0, slot, tag⟩))
/-- The word that TLBP gives for a hit (R361). -/
def probeWord (e : TlbEntry) (second : Bool) : Word := wordOf (fieldOf e.pte 51 0 + sizeCode e.level * 2 ^ 52 + bitNat second * 2 ^ 54)

/-- TLBP: s [0] .i (R361); it probes and does not count (R100). -/
def execTlbp (p : BitVec 4) (d a : BitVec 5) (t : BitVec 1) (s : State) : Out :=
  s.issuePriv p 0xD6 [gsrc a] [.g d.toNat false] (fun s => do
    s.me.checkAcquire
    let va := (s.regs.gval a.toNat).toNat
    if 2 ^ 48 ≤ va then .error (.trap 0x05 none none)
    let c := s.myCore
    let r := match tlbPick (if t == 1 then c.itlb else c.dtlb) s.me.jobid va with
      | some e => probeWord e false
      | none =>
        match tlbPick (s.cluster (clusterOf s.cur)).tlb s.me.jobid va with
        | some e => probeWord e true
        | none => 0
    pure (s.setRegs (s.regs.setG d.toNat r)))

/-! Sealing (R362, R363). -/

/-- The seal engine of the own module (R15). -/
def sealNode (node : Nat) : Nat := endNode (nodeModule node) 0 2 0

/-- SEAL.OPEN (R362). -/
def execSealOpen (p : BitVec 4) (d a : BitVec 5) (s : State) : Out :=
  s.issue p 0xD7 [gsrc a] [.g d.toNat false] (fun s => do
    let va := s.regs.gval a.toNat
    checkVirtual va.toNat 4096
    s.bufferEngine d.toNat (sealNode s.cur) (commandBeat 1 0 va) [false])

/-- SEAL.FRAME (R363). -/
def execSealFrame (p : BitVec 4) (d a b : BitVec 5) (s : State) : Out :=
  s.issue p 0xD8 [gsrc a, gsrc b] [.g d.toNat false] (fun s => do
    let h := s.regs.gval a.toNat
    let la := (s.regs.gval b.toNat).toNat
    needOperand 0xD8 a.toNat (fieldOf h 63 16 == 0)
    s.checkLocal 0xD8 .payload la 32 false 32
    let (ws, ps) ← s.readPayload 0xD8 la 1
    let t ← s.bufferEngine d.toNat (sealNode s.cur) (commandBeat 2 h.toNat 0 ++ ws) (false :: ps)
    pure (t.notePayload 0xD8 la 32))

/-- SEAL.CLOSE (R363). -/
def execSealClose (p : BitVec 4) (d a : BitVec 5) (s : State) : Out :=
  s.issue p 0xD9 [gsrc a] [.g d.toNat false] (fun s => do
    let h := s.regs.gval a.toNat
    needOperand 0xD9 a.toNat (fieldOf h 63 16 == 0)
    s.bufferEngine d.toNat (sealNode s.cur) (commandBeat 3 h.toNat 0) [false])

/-! Trace, watchpoints and counters (R364 to R366). -/

/-- TRC.MARK (R364). -/
def execTrcMark (p : BitVec 4) (a : BitVec 5) (i : BitVec 10) (s : State) : Out :=
  s.issue p 0xDA [gsrc a] [] (fun s => .ok (s.atCommit (.traceMark (s.regs.gval a.toNat) i.toNat)))

/-- TRC.CTL (R364). -/
def execTrcCtl (p : BitVec 4) (d a : BitVec 5) (s : State) : Out :=
  s.issuePriv p 0xDB [gsrc a] [.g d.toNat false] (fun s => do
    let w := s.regs.gval a.toNat
    needOperand 0xDB a.toNat (fieldOf w 63 6 == 0)
    pure ((s.setRegs (s.regs.setG d.toNat s.myCore.dbg.traceCtl)).atCommit (.traceControl w)))

/-- WATCH: s the watchpoint (R365). -/
def execWatch (p : BitVec 4) (a b : BitVec 5) (t : BitVec 2) (s : State) : Out :=
  s.issuePriv p 0xDC [gsrc a, gsrc b] [] (fun s => do
    let v := s.regs.gval a.toNat
    let w := s.regs.gval b.toNat
    let len := fieldOf w 8 4
    needOperand 0xDC b.toNat (fieldOf w 63 9 == 0 && decide (3 ≤ len) && decide (len ≤ 16))
    if flagOf w 3 ∧ 2 ^ 48 ≤ v.toNat then .error (.trap 0x05 none none)
    needOperand 0xDC a.toNat (v.toNat % 2 ^ len == 0 && (flagOf w 3 || fieldOf v 63 22 == 0))
    pure (s.atCommit (.watch t.toNat v w)))

/-- The counter that PERF.RD reads (Table 15-9); counters 5 and 6 count in the cluster and the quad, from what they held at the job's load. -/
def State.readCounter (s : State) (n : Nat) : Word :=
  let k := s.myCore.counters[n]?.getD 0
  if n = 5 then wordOf ((s.cluster (clusterOf s.cur)).multi + 2 ^ 64 - k)
  else if n = 6 then wordOf ((s.quad s.cur).corrected + 2 ^ 64 - k)
  else wordOf k

/-- PERF.RD; counters 5 to 9 are privileged (R351, R366). -/
def execPerfRd (p : BitVec 4) (d : BitVec 5) (i : BitVec 10) (s : State) : Out :=
  let body (s : State) : Res State := do
    s.me.checkAcquire
    pure (s.setRegs (s.regs.setG d.toNat (s.readCounter i.toNat)))
  if i.toNat ≤ 4 then s.issue p 0xDD [] [.g d.toNat false] body
  else s.issuePriv p 0xDD [] [.g d.toNat false] body

end Sys2Proof.Machine
end

