-- ==== Sys2Proof/Machine/Streams.lean ====
section
/-! DEFINITION. STRM.GO and the memory cores: commands, descriptors, loads, stores, gathers, compressed and demand streams (R49 to R65, R71, R72, R88 to R92, R106, R353). -/

namespace Sys2Proof.Machine

/-! The descriptor (Table 3-2). -/

/-- A stream descriptor as its 16 words. -/
abbrev Desc := List Word

def Desc.word (d : Desc) (k : Nat) : Word := List.getD d k 0
def Desc.store (d : Desc) : Bool := fieldOf (d.word 0) 1 0 == 1
def Desc.demand (d : Desc) : Bool := flagOf (d.word 0) 2
def Desc.esize (d : Desc) : Nat := 2 ^ fieldOf (d.word 0) 4 3
def Desc.ndim (d : Desc) : Nat := fieldOf (d.word 0) 6 5
def Desc.comp (d : Desc) : Nat := fieldOf (d.word 0) 8 7
def Desc.gather (d : Desc) : Bool := flagOf (d.word 0) 9
def Desc.key (d : Desc) : Nat := fieldOf (d.word 0) 15 10
def Desc.dstore (d : Desc) : Nat := fieldOf (d.word 0) 17 16
def Desc.dist (d : Desc) : Nat := fieldOf (d.word 0) 19 18
def Desc.req (d : Desc) : Nat := fieldOf (d.word 1) 21 0
def Desc.job (d : Desc) : Nat := fieldOf (d.word 1) 33 22
def Desc.flt (d : Desc) : Nat := fieldOf (d.word 1) 55 34
def Desc.base (d : Desc) : Nat := fieldOf (d.word 2) 47 0
/-- COUNT and STRIDE of a dimension; absent ones have 1 and 0 (R54). -/
def Desc.count (d : Desc) (k : Nat) : Nat := if k ≤ d.ndim then fieldOf (d.word (3 + k)) 19 0 + 1 else 1
def Desc.stride (d : Desc) (k : Nat) : Int := if k ≤ d.ndim then signExt (fieldOf (d.word (3 + k)) 59 20) 40 else 0
def Desc.t0 (d : Desc) : Nat := fieldOf (d.word 7) 11 0 + 1
def Desc.t1 (d : Desc) : Nat := fieldOf (d.word 7) 23 12 + 1
def Desc.doff (d : Desc) : Nat := fieldOf (d.word 8) 19 0
def Desc.dstep (d : Desc) : Nat := fieldOf (d.word 8) 39 20
def Desc.dx (d : Desc) : Nat := fieldOf (d.word 9) 6 0
def Desc.dy (d : Desc) : Nat := fieldOf (d.word 9) 12 7
def Desc.dw (d : Desc) : Nat := fieldOf (d.word 9) 19 13
def Desc.dh (d : Desc) : Nat := fieldOf (d.word 9) 25 20
def Desc.cot (d : Desc) : Nat := fieldOf (d.word 10) 47 0
def Desc.limit (d : Desc) : Nat := fieldOf (d.word 11) 31 0
def Desc.btab (d : Desc) : Nat := fieldOf (d.word 12) 47 0
def Desc.grow (d : Desc) : Nat := fieldOf (d.word 13) 15 0
def Desc.gmask (d : Desc) : Nat := fieldOf (d.word 13) 23 16
def Desc.gmatch (d : Desc) : Nat := fieldOf (d.word 13) 31 24

/-- Elements and bytes of a tile. -/
def Desc.tileElems (d : Desc) : Nat := d.t0 * d.t1
def Desc.tileBytes (d : Desc) : Nat := d.tileElems * d.esize

/-- Tiles of a stream without gather (R54). -/
def Desc.tiles (d : Desc) : Nat := d.count 0 / d.t0 * (d.count 1 / d.t1) * d.count 2 * d.count 3

/-- Quads of the rectangle (R55). -/
def Desc.quads (d : Desc) : Nat := (d.dw + 1) * (d.dh + 1)

/-- Store offset of tile t (R55). -/
def Desc.tileOffset (d : Desc) (t : Nat) : Nat := d.doff + (if d.dist = 2 then t / d.quads else t) * d.dstep

/-- The quads of tile t, on a module (R55). -/
def Desc.tileQuads (d : Desc) (module t : Nat) : List Nat :=
  let quad (k : Nat) : Nat := coreNode module (d.dx + k % (d.dw + 1)) (d.dy + k / (d.dw + 1)) 0
  if d.dist = 1 then (List.range d.quads).map quad else if d.dist = 2 then [quad (t % d.quads)] else [quad 0]

/-- Local address of the first byte of tile t in its store (R27, R55). -/
def Desc.tileLocal (d : Desc) (t : Nat) : Nat := d.dstore * 0x100000 + d.tileOffset t

/-- Reserved bits are zero, and encodings assigned: reason 1 of Table 3-3. -/
def Desc.assigned (d : Desc) : Bool :=
  decide (fieldOf (d.word 0) 1 0 ≤ 1) && d.comp != 3 && d.dstore != 0 && d.dist != 3 &&
  [(0, 20), (1, 56), (2, 48), (3, 60), (4, 60), (5, 60), (6, 60), (7, 24), (8, 40), (9, 26), (10, 48), (11, 32), (12, 48), (13, 32), (14, 0), (15, 0)].all
    (fun (e : Nat × Nat) => fieldOf (d.word e.1) 63 e.2 == 0) &&
  (List.range 4).all (fun k => decide (k ≤ d.ndim) || d.word (3 + k) == 0)

/-- The first condition of Table 3-3, other than poison, that fails (R56); the rights of reason 4 come after the range of reason 5 (R35). A direction that Table 3-2 does not give for COMP has reason 7 (log 79). -/
def Desc.fault (d : Desc) : Option Nat :=
  let es := d.esize
  let tb := d.tileBytes
  let nt := if d.gather then d.count 2 else d.tiles
  let last := if d.dist = 2 then (nt - 1) / d.quads else nt - 1
  if !d.assigned then some 1
  else if d.base % es ≠ 0 ∨ (List.range 4).any (fun k => d.stride k % es != 0) then some 2
  else if d.count 0 % d.t0 ≠ 0 ∨ d.count 1 % d.t1 ≠ 0 ∨ (d.ndim = 0 ∧ d.t1 ≠ 1) ∨ tb % 32 ≠ 0 ∨ 65536 < tb then some 3
  else if d.doff % 32 ≠ 0 ∨ d.dstep % 32 ≠ 0 ∨ storeSize d.dstore < d.doff + last * d.dstep + tb ∨
      (d.dist = 0 ∧ d.quads ≠ 1) ∨ (d.dist = 1 ∧ d.store) then some 5
  else if d.store ∧ d.dstore = 1 then some 4
  else if d.comp ≠ 0 ∧ (d.ndim ≠ 0 ∨ d.stride 0 ≠ es ∨ d.count 0 % 128 ≠ 0 ∨ tb % (128 * es) ≠ 0 ∨ d.gather ∨ d.demand ∨
      d.store ≠ (d.comp == 2)) then some 7
  else if d.gather ∧ (d.store ∨ d.ndim ≠ 2 ∨ d.t0 ≠ d.count 0 ∨ d.t1 ≠ d.count 1 ∨ d.comp ≠ 0) then some 8
  else if d.demand ∧ (d.dist ≠ 0 ∨ d.gather) then some 9
  else none

/-! Elements (R54, R60). -/

/-- Coordinates of tile t, a fastest; for a gather, the selected column block stands in dimension 2. -/
def Stream.tileCoords (x : Stream) (t : Nat) : Nat × Nat × Nat × Nat :=
  let d : Desc := x.desc
  match x.sel with
  | some (l, _) => (0, 0, l.getD t 0, 0)
  | none =>
    let na := d.count 0 / d.t0
    let nb := d.count 1 / d.t1
    (t % na, t / na % nb, t / (na * nb) % d.count 2, t / (na * nb * d.count 2))

/-- Virtual address of element e of tile t. -/
def Stream.elemVa (x : Stream) (t e : Nat) : Nat :=
  let d : Desc := x.desc
  let (a, b, c, f) := x.tileCoords t
  let i0 := a * d.t0 + e % d.t0
  let i1 := b * d.t1 + e / d.t0
  ((d.base + i0 * d.stride 0 + i1 * d.stride 1 + c * d.stride 2 + f * d.stride 3 : Int) % 2 ^ 48).toNat

/-- Linear index of element e of tile t, dimension 0 fastest (Table 3-4). -/
def Stream.elemIndex (x : Stream) (t e : Nat) : Nat :=
  let d : Desc := x.desc
  let (a, b, c, f) := x.tileCoords t
  a * d.t0 + e % d.t0 + d.count 0 * (b * d.t1 + e / d.t0 + d.count 1 * (c + d.count 2 * f))

/-- Tiles of the stream (R54, R60). -/
def Stream.tiles (x : Stream) : Nat :=
  match x.sel with
  | some (l, _) => l.length
  | none => Desc.tiles x.desc

/-- How many elements from e onward one request covers: contiguous ones of the same 64 bytes (R49, R54). -/
def Stream.runFrom (x : Stream) (t e : Nat) : Nat → Nat
  | 0 => 0
  | n + 1 =>
    let d : Desc := x.desc
    if e + 1 < d.tileElems ∧ x.elemVa t (e + 1) = x.elemVa t e + d.esize ∧ x.elemVa t (e + 1) / 64 = x.elemVa t e / 64 then
      1 + Stream.runFrom x t (e + 1) n
    else 1

/-! The slots of a memory core (R49, R52). -/

def MemCore.stream (m : MemCore) (k : Nat) : Option Stream := (m.slots[k]?).getD none
def MemCore.gen (m : MemCore) (k : Nat) : Nat := m.gens[k]?.getD 0

/-- The state with a slot of a memory core changed. -/
def State.setStream (s : State) (node k : Nat) (x : Option Stream) : State :=
  let m := s.memCore node
  s.setMemCore node { m with slots := m.slots.setIfInBounds k x }

/-- The handle of a slot's stream (R52). -/
def streamHandle (node slot gen : Nat) : Nat := node + slot * 2 ^ 22 + gen % 64 * 2 ^ 26

/-- The reply of a memory core (R51, R352). -/
def State.streamReply (s : State) (m : Packet) (status value detail : Nat) : State := s.answer m 0 [engineWord value status detail]

/-- The fault record of a stream, to the system context at FLT (R63, Table 3-4). -/
def State.streamRecord (s : State) (node slot : Nat) (x : Stream) (cause addr elem tile : Nat) : State :=
  let d : Desc := x.desc
  let pay := [wordOf (streamHandle node slot ((s.memCore node).gen slot) + cause * 2 ^ 32), wordOf addr, wordOf elem,
    wordOf (tile % 2 ^ 32 + d.job * 2 ^ 32), 0, 0, 0, 0]
  s.send { w0 := Machine.msgHeader d.flt 0 0xE5 d.job 2 false 0 false 0 0, w1 := 0, payload := pay, poison := [false, false], src := node }

/-- A stream parks with its record (R63). -/
def State.parkStream (s : State) (node slot : Nat) (x : Stream) (cause addr elem tile : Nat) : State :=
  (s.setStream node slot (some { x with status := .parked cause })).streamRecord node slot x cause addr elem tile

/-- A descriptor is taken into a free slot, or answered "invalid" (R51, R52, R56). That it is the lowest free slot is the model's DESIGN CHOICE (log 112). -/
def State.takeGo (s : State) (node : Nat) (m : Packet) : Option State :=
  let c := s.memCore node
  match (List.range 16).find? (fun k => (c.stream k).isNone) with
  | none => none
  | some k =>
    let d : Desc := fit 16 0 (m.payload.drop 4)
    let reason := if m.poison.any (fun b => b) then some 6
      else if beatsOf m ≠ 5 ∨ m.payload.take 4 ≠ [1, 0, 0, 0] then some 1 else d.fault
    match reason with
    | some r => some (s.streamReply m 2 0 r)
    | none =>
      let g := (c.gen k + 1) % 64
      let s1 := s.setMemCore node { c with gens := c.gens.setIfInBounds k g, slots := c.slots.setIfInBounds k (some { desc := d, limit := d.limit }) }
      some (s1.streamReply m 0 (streamHandle node k g) 0)

/-- Waiting GOs are taken while a slot is free (R51). -/
def State.takeWaiting (s : State) (node : Nat) : Nat → State
  | 0 => s
  | n + 1 =>
    match (s.memCore node).waiting with
    | m :: r =>
      match s.takeGo node m with
      | some t => State.takeWaiting (t.setMemCore node { t.memCore node with waiting := r }) node n
      | none => s
    | [] => s

/-- A stream's slot is free (R51). -/
def State.freeStream (s : State) (node slot : Nat) : State := (s.setStream node slot none).takeWaiting node 32

/-- The stream has done all its work: its key is set, its slot is free, and carried poison is recorded (R57, R58, R72). -/
def State.completeStream (s : State) (node slot : Nat) (x : Stream) : State :=
  let d : Desc := x.desc
  let s1 := (s.send (keySetTo d.req node d.key))
  let s2 := match x.first with
    | some (va, e, t) => s1.streamRecord node slot x 7 va e t
    | none => s1
  s2.freeStream node slot

/-! Translation in a memory core (R106). -/

/-- What a memory core's translation comes to. -/
inductive MemTrans where
  | phys (pa : Nat)
  | walk
  /-- The memory lies in a paused stack, where the request waits (R473). -/
  | paused
  /-- CAUSE of the fault record. -/
  | fail (cause : Nat)
deriving DecidableEq, Repr

/-- CAUSE of a translation fault (R106). -/
def streamCause (cause : Nat) : Nat := if cause = 0x20 then 1 else if cause = 0x23 then 3 else 2

/-- The address of a stream's element, translated (R23, R58, R106). The rules of streams speak of HBM alone: an element whose page maps a window of a quad store is read or written there as HBM is, which is the model's DESIGN CHOICE (log 108). -/
def State.memTranslate (s : State) (node job va : Nat) (k : AccessKind) : MemTrans :=
  match tlbPick (s.memCore node).tlb job va with
  | some e =>
    match State.useLeaf e va k with
    | .ok pa => if s.pausedAt pa then .paused else .phys pa
    | .error c => .fail (streamCause c)
  | none => if inHbm (s.ptroot job) then .walk else .fail 3

/-- A stream waits for a walk (R102). -/
def State.walkStream (s : State) (node slot : Nat) (x : Stream) (va elem tile : Nat) : State :=
  let job := Desc.job x.desc
  match s.memMiss node ⟨.memCore node slot, job, wordOf va, 0, s.ptroot job, false⟩ with
  | some t => t.setStream node slot (some { x with status := .walking va elem tile })
  | none => s

/-- A translation that stops a stream: it walks, it parks, or it tries again. -/
def State.stopAt (s : State) (node slot : Nat) (x : Stream) (e : Nat × MemTrans) (elem tile : Nat) : State :=
  match e.2 with
  | .fail c => s.parkStream node slot x c e.1 elem tile
  | .paused => s
  | _ => s.walkStream node slot x e.1 elem tile

/-- Bytes that a stream has fetched at a virtual address; or the first address that it has not (R50). -/
def Stream.look (x : Stream) (va n : Nat) : Except Nat (List (Byte × Bool)) :=
  (List.range n).mapM (fun k =>
    let a := (va + k) % 2 ^ 48
    match aget x.fetched (a / 64) with
    | some l => .ok (l.getD (a % 64) (0, false))
    | none => .error a)

/-- One request of a stream that reads more than one request gives (R49, R50): the next 64-byte line that its work lacks. The work is finished by `act` once nothing is lacking. A read that faults begins the work again (R92). -/
def State.fetch {α : Type} (s : State) (node slot : Nat) (x : Stream) (elem tile : Nat) (work : Stream → Except Nat α) (act : Stream → α → State) : State :=
  match work x with
  | .ok r => act x r
  | .error a =>
    match s.memTranslate node (Desc.job x.desc) a .read with
    | .phys pa =>
      let line := (List.range 64).map (fun k => let p := pa / 64 * 64 + k; (Memory.read s.mem p, isPoisoned s p))
      let y := { x with fetched := aset x.fetched (a / 64) line }
      match work y with
      | .ok r => act y r
      | .error _ => s.setStream node slot (some y)
    | .fail c => s.stopAt node slot { x with fetched := [] } (a, .fail c) elem tile
    | r => s.stopAt node slot x (a, r) elem tile

/-! The work of a stream (R50, R57, R58, R60 to R62, R71, R92). -/

/-- Bytes that k requests have brought to a load's tile; a full tile is ready, with the beats of it that have been written already. -/
def Stream.take (x : Stream) (n k : Nat) (bs : List Byte) (bad : List Nat) : Stream :=
  let d : Desc := x.desc
  let y := { x with
    part := x.part ++ bs, bad := x.bad ++ bad, elem := x.elem + n
    ahead := x.ahead ++ List.replicate k (x.tile, (x.elem + n) * d.esize) }
  if y.elem < d.tileElems then y
  else { y with
    ready := y.ready ++ [{ index := y.tile, data := y.part, poison := y.bad, next := y.sent }]
    part := [], bad := [], sent := 0, tile := y.tile + 1, elem := 0 }

/-- The first poisoned element is kept (R72). -/
def Stream.note (x : Stream) (bad : Bool) (e : Nat) : Stream :=
  if bad ∧ x.first.isNone then { x with first := some (x.elemVa x.tile e, x.elemIndex x.tile e, x.tile) } else x

/-- One request of a load. -/
def State.loadRequest (s : State) (node slot : Nat) (x : Stream) : State :=
  let d : Desc := x.desc
  let va := x.elemVa x.tile x.elem
  let n := x.runFrom x.tile x.elem 64
  match s.memTranslate node d.job va .read with
  | .phys pa =>
    let bs := Memory.readN s.mem pa (n * d.esize)
    let bads := (List.range n).filter (fun k => anyPoison s (pa + k * d.esize) d.esize)
    let y := x.note (!bads.isEmpty) (x.elem + bads.headD 0)
    s.setStream node slot (some (y.take n 1 bs (bads.map (fun k => (x.elem + k) * d.esize / 32))))
  | r => s.stopAt node slot x (va, r) (x.elemIndex x.tile x.elem) x.tile

/-- One request of a store: elements are read at the source quad and their write is under way, with the poison that they carry (R58, R72). -/
def State.storeRequest (s : State) (node slot : Nat) (x : Stream) : State :=
  let d : Desc := x.desc
  let va := x.elemVa x.tile x.elem
  let n := x.runFrom x.tile x.elem 64
  let src := localPhys ((d.tileQuads (nodeModule node) x.tile).headD 0) (d.tileLocal x.tile + x.elem * d.esize)
  match s.memTranslate node d.job va .write with
  | .phys pa =>
    let one (k : Nat) : List Byte × Bool := (Memory.readN s.mem (src + k * d.esize) d.esize, anyPoison s (src + k * d.esize) d.esize)
    let l := (List.range n).map one
    let ends := x.elem + n == d.tileElems
    let bads := (List.range n).filter (fun k => (l.getD k ([], false)).2)
    let w : StreamWrite := { pa := pa, data := l.flatMap (·.1), bad := bads.map (fun k => k * d.esize), last := ends }
    let y := x.note (!bads.isEmpty) (x.elem + bads.headD 0)
    s.setStream node slot (some { y with
      writes := y.writes ++ [w]
      tile := if ends then y.tile + 1 else y.tile
      elem := if ends then 0 else y.elem + n })
  | r => s.stopAt node slot x (va, r) (x.elemIndex x.tile x.elem) x.tile

/-! Compressed streams (R61, R62, R88, R89). -/

/-- The chunk that the next element of a compressed stream belongs to. -/
def Stream.chunk (x : Stream) : Nat := (x.tile * Desc.tileElems x.desc + x.elem) / 128

/-- The encoding of a chunk: a bitmap of the elements that are not zero, then those (R88). -/
def chunkEncoding (es : Nat) (bs : List Byte) : List Byte :=
  let el (k : Nat) : List Byte := (bs.drop (k * es)).take es
  let full := (List.range 128).filter (fun k => (el k).any (fun b => b != 0))
  bytesOfNat 16 (maskOf full) ++ full.flatMap el

/-- The writes of bytes at a virtual address, a 64-byte line each; where they carry poison, in every byte (R49, R72). -/
def stageWrites (va : Nat) (bs : List Byte) (bad : Bool) : List StagedWrite :=
  (List.range ((va % 64 + bs.length + 63) / 64)).map (fun k =>
    let a := if k = 0 then va else (va / 64 + k) * 64
    let l := (bs.drop (a - va)).take (64 - a % 64)
    { va := a % 2 ^ 48, data := l, bad := if bad then List.range l.length else [], last := false })

/-- The last of a list of writes ends its tile. -/
def endsTile (l : List StagedWrite) (ends : Bool) : List StagedWrite :=
  l.mapIdx (fun i w => { w with last := ends && i + 1 == l.length })

/-- The next write of a stream is performed; the last one of a demand stream's tile serves a PULL (R48, R58, R71, R72). -/
def State.nextWrite (s : State) (node slot : Nat) : State :=
  match (s.memCore node).stream slot with
  | none => s
  | some x =>
    match x.writes with
    | [] => s
    | w :: r =>
      let s1 := w.bad.foldl (fun (t : State) k => t.addPoison ((w.pa + k) / 32 * 32)) (writeUnits s w.pa w.data).1
      let pulls := if w.last then x.pulls.drop 1 else x.pulls
      let s2 := s1.setStream node slot (some { x with writes := r, done := x.done + bitNat w.last, pulls := pulls })
      match if w.last then x.pulls.head? else none with
      | some (who, key) => s2.send (pullSetTo who node key)
      | none => s2

/-- The next write of a stream waits: it is to a paused stack, and does not drain from a memory core that is paused itself (R473). -/
def State.writeWaits (s : State) (node slot : Nat) : Bool :=
  let c := s.memCore node
  !c.paused && (((c.stream slot).bind (fun (x : Stream) => x.writes.head?)).map (fun (w : StreamWrite) => s.pausedAt w.pa)).getD false

/-- The writes of a stream that are under way are performed, as far as none waits (R65, R107). -/
def State.flushWrites (s : State) (node slot : Nat) : State :=
  (List.range ((((s.memCore node).stream slot).map (fun (x : Stream) => x.writes.length)).getD 0)).foldl
    (fun (t : State) _ => if t.writeWaits node slot then t else t.nextWrite node slot) s

/-- The writes of a stream are all performed. -/
def State.writesDone (s : State) (node slot : Nat) : Bool := (((s.memCore node).stream slot).map (fun (x : Stream) => x.writes.isEmpty)).getD true

/-- A stopped stream whose writes are performed ends: its STOPs are answered, its key is set, and its slot is free (R65). -/
def State.endStopped (s : State) (node slot : Nat) (x : Stream) : State :=
  let s1 := x.stops.foldl (fun (t : State) m => t.streamReply m 0 x.done 0) s
  (s1.send (keySetTo (Desc.req x.desc) node (Desc.key x.desc))).freeStream node slot

/-- A stream whose writes are performed ends where it is stopped, or where its tiles are all stored (R58, R65). -/
def State.endIfStored (s : State) (node slot : Nat) : State :=
  match (s.memCore node).stream slot with
  | some x =>
    if !x.writes.isEmpty then s
    else if !x.stops.isEmpty then s.endStopped node slot x
    else if Desc.store x.desc ∧ x.done = x.tiles ∧ x.tiles ≠ 0 then s.completeStream node slot x else s
  | none => s

/-- The next write of a chunk is issued; with the last one the stream goes on to the next chunk, unless it was the overflow marker (R61). -/
def State.issueStaged (s : State) (node slot : Nat) (x : Stream) : State :=
  let d : Desc := x.desc
  match x.staged with
  | [] => s.setStream node slot (some x)
  | w :: r =>
    match s.memTranslate node d.job w.va .write with
    | .phys pa =>
      let y := { x with writes := x.writes ++ [{ pa := pa, data := w.data, bad := w.bad, last := w.last }], staged := r }
      let ends := x.elem + 128 == d.tileElems
      s.setStream node slot (some (if r.isEmpty ∧ !x.marked then
        { y with tile := if ends then y.tile + 1 else y.tile, elem := if ends then 0 else y.elem + 128 } else y))
    | e => s.stopAt node slot x (w.va, e) (x.elemIndex x.tile x.elem) x.tile

/-- One request of a compressing store (R50, R61): a chunk's elements are read at its source quad, and its encoding and its table entry are then written, a line to a request. Where the chunk passes LIMIT, its marker is written, and once every write before it is performed the stream parks.
R72 speaks of the beat that holds a poisoned element, and says nothing of an encoding: the model writes every beat of the chunk's encoding, bitmap included, as poisoned where one element of the chunk is, which is a DESIGN CHOICE (log 107). -/
def State.compressRequest (s : State) (node slot : Nat) (x : Stream) : State :=
  let d : Desc := x.desc
  let c := x.chunk
  let es := d.esize
  let src := localPhys ((d.tileQuads (nodeModule node) x.tile).headD 0) (d.tileLocal x.tile + x.elem * es)
  let bad := anyPoison s src (128 * es)
  let enc := chunkEncoding es (Memory.readN s.mem src (128 * es))
  let entry := d.cot + 4 * c
  if !x.staged.isEmpty then s.issueStaged node slot x
  else if x.limit < x.off + enc.length then
    if x.marked then s.parkStream node slot { x with marked := false } 5 (x.off + enc.length - x.limit) c x.tile
    else s.issueStaged node slot { x with staged := stageWrites entry (bytesOfNat 4 0xFFFFFFFF) false, marked := true }
  else
    let y := x.note bad (x.elem + (((List.range 128).find? (fun k => anyPoison s (src + k * es) es)).getD 0))
    s.issueStaged node slot { y with
      marked := false
      staged := stageWrites (d.base + x.off) enc bad ++ endsTile (stageWrites entry (bytesOfNat 4 x.off) false) (x.elem + 128 == d.tileElems)
      off := x.off + enc.length }

/-- The elements of a chunk, each with its poison, from its bitmap and the bytes that follow it (R88). -/
def chunkElements (es : Nat) (map vals : List (Byte × Bool)) : List (List Byte × Bool) :=
  let full := setBits (natOfBytes (map.map (·.1))) 128
  let badMap := map.any (·.2)
  (List.range 128).map (fun k =>
    match full.findIdx? (fun j => j == k) with
    | some i => let l : List (Byte × Bool) := (vals.drop (i * es)).take es; (l.map (·.1), badMap || l.any (·.2))
    | none => (List.replicate es 0, badMap))

/-- A chunk of a decompressing load as its lines give it: its elements; none where its table entry is bad (R62). -/
def Stream.expand (x : Stream) : Except Nat (Option (List (List Byte × Bool))) := do
  let d : Desc := x.desc
  let c := x.chunk
  let last := c + 1 == d.count 0 / 128
  let cot ← x.look (d.cot + 4 * c) (if last then 4 else 8)
  let bytes := cot.map (·.1)
  let off := numAt bytes 0 4
  if off = 0xFFFFFFFF then pure none
  else
    let map ← x.look (d.base + off) 16
    let full := setBits (natOfBytes (map.map (·.1))) 128
    if !last ∧ numAt bytes 4 4 < off + (16 + full.length * d.esize) then pure none
    else
      let vals ← x.look (d.base + off + 16) (full.length * d.esize)
      pure (some (chunkElements d.esize map vals))

/-- One request of a decompressing load (R50, R62): a line of its table entry or of its chunk; with the last the chunk has arrived, and a bad entry parks the stream. Two points of poison here are the model's DESIGN CHOICE: no rule gives an outcome for a table entry whose beat is poisoned, whose stored bytes are used without a report (log 96); and R72 speaks of the beat that holds a poisoned element, not of an encoding, where a poisoned bitmap is used with its stored bits and makes all 128 elements poisoned (log 107). -/
def State.expandRequest (s : State) (node slot : Nat) (x : Stream) : State :=
  let d : Desc := x.desc
  let c := x.chunk
  s.fetch node slot x (x.elemIndex x.tile x.elem) x.tile Stream.expand (fun y r =>
    match r with
    | none => s.parkStream node slot { y with fetched := [] } 6 (d.cot + 4 * c) c y.tile
    | some l =>
      let bads := (List.range 128).filter (fun k => (l.getD k ([], false)).2)
      let z := y.note (!bads.isEmpty) (y.elem + bads.headD 0)
      let u := z.take 128 y.fetched.length (l.flatMap (fun e => e.1)) (bads.map (fun k => (y.elem + k) * d.esize / 32))
      s.setStream node slot (some { u with fetched := [] }))

/-! Gather (R60, R90 to R92). -/

/-- The block table of a gather, as its lines give it (R90, R92): the selected entries and the address of the row's first flag byte; or the ADDR of a failed check. -/
def Stream.table (x : Stream) : Except Nat (Except Nat (List Nat × Nat)) := do
  let d : Desc := x.desc
  let bt := d.btab
  let bytes (l : List (Byte × Bool)) : List Byte := l.map (·.1)
  let h ← x.look bt 8
  let nrow := numAt (bytes h) 0 2
  let ncol := numAt (bytes h) 2 2
  if numAt (bytes h) 4 4 ≠ 0 ∨ nrow < d.grow then pure (.error bt)
  else
    let ro := bt + 8 + 4 * d.grow
    let o ← x.look ro 8
    let r0 := numAt (bytes o) 0 4
    let r1 := numAt (bytes o) 4 4
    if r1 < r0 ∨ ncol + 1 < r1 - r0 ∨ r0 < 8 + 4 * (nrow + 2) then pure (.error ro)
    else
      let fs ← x.look (bt + r0) (r1 - r0)
      let flags := bytes fs
      pure (.ok ((List.range (r1 - r0)).filter (fun j => ((flags.getD j 0).toNat &&& d.gmask) == d.gmatch), bt + r0))

/-- One request for the block table of a gather (R50); with the last line it is checked, and its entries selected; one whose check has failed is not read again, and its stream parks anew (R92).
GROW above NROW counts as a failed check of the header, so that ADDR holds BTAB, and TILE of the record of a failed check or table read is 0: R92 gives neither, and both are the model's DESIGN CHOICE (log 97). No rule gives an outcome for a poisoned beat of the table: its stored bytes are used, and nothing reports it, which is a DESIGN CHOICE as well (log 96). -/
def State.readTable (s : State) (node slot : Nat) (x : Stream) : State :=
  let g := Desc.grow x.desc
  s.fetch node slot x g 0 (fun y => match y.tableBad with | some a => .ok (.error a) | none => y.table) (fun y r =>
    match r with
    | .error a => s.parkStream node slot { y with tableBad := some a, fetched := [] } 4 a g 0
    | .ok sel => s.setStream node slot (some { y with sel := some sel, fetched := [] }))

/-- The next work of a running stream. -/
def State.streamWork (s : State) (node slot : Nat) (x : Stream) : State :=
  let d : Desc := x.desc
  if d.gather ∧ x.sel.isNone then s.readTable node slot x
  else if x.tiles = 0 then s.completeStream node slot x
  else
    match x.sel with
    | some (l, row) =>
      let j := l.getD x.tile 0
      if d.count 2 ≤ j then s.parkStream node slot x 4 (row + j) j x.tile else s.loadRequest node slot x
    | none =>
      if d.comp = 1 then s.expandRequest node slot x
      else if d.comp = 2 then s.compressRequest node slot x
      else if d.store then s.storeRequest node slot x else s.loadRequest node slot x

/-- A stream may issue a request: it runs and has elements left; where a chunk has passed LIMIT, its marker has been written (R61); a load is at most 64 requests ahead of delivery; in demand mode a load is at most two tiles ahead of the tile asked for, and a store begins a tile once it is asked for (R50, R71; log 16, log 98). -/
def Stream.mayIssue (x : Stream) : Bool :=
  let d : Desc := x.desc
  x.status == .running && x.stops.isEmpty && (!x.marked || !x.staged.isEmpty || x.writes.isEmpty) &&
  ((d.gather && x.sel.isNone) || x.tiles == 0 ||
    (decide (x.tile < x.tiles) && (d.store || decide (x.ahead.length + x.fetched.length < 64)) &&
      (!d.demand || decide (x.tile < x.pulled + (if d.store then 0 else 2)))))

/-- Miss entries of the memory core that hold a write under way (R49). -/
def MemCore.inFlight (m : MemCore) : Nat := ((List.range 16).map (fun k => ((m.stream k).map (fun (x : Stream) => x.writes.length)).getD 0)).sum

/-- The next slot in turn that may issue, while there is a miss entry for its request (R49, R50). -/
def MemCore.nextIssue (m : MemCore) : Option Nat :=
  ((List.range 16).map (fun k => (m.last + 1 + k) % 16)).find?
    (fun k => ((m.stream k).map (fun (x : Stream) => x.mayIssue && decide (m.inFlight < 64))).getD false)

/-- STREAM_REQUEST_ISSUE (R50); a paused memory core issues none (R473). -/
def execStreamRequestIssue (node : Nat) (s : State) : Out :=
  let m := s.memCore node
  match if m.paused then none else m.nextIssue with
  | none => .next s
  | some k =>
    match m.stream k with
    | some x => .next ((s.setMemCore node { m with last := k }).streamWork node k x)
    | none => .next s

/-- The tile and beat that a load writes next: of the first complete tile, or, while the stream is not parked, of the tile that is arriving (R57, R63); in demand mode, where it has been asked for (R71). -/
def Stream.nextBeat (x : Stream) : Option StreamTile :=
  match x.ready with
  | t :: _ => if !Desc.demand x.desc ∨ t.index < x.pulled then some t else none
  | [] =>
    let parked := match x.status with
      | .parked _ => true
      | _ => false
    if !parked ∧ 32 * (x.sent + 1) ≤ x.part.length ∧ (!Desc.demand x.desc ∨ x.tile < x.pulled) then some ⟨x.tile, x.part, x.bad, x.sent⟩ else none

def Stream.mayWrite (x : Stream) : Bool := x.nextBeat.isSome

/-- One beat of a tile at one quad (R57, R72). -/
def State.writeBeat (s : State) (pa : Nat) (bs : List Byte) (poison : Bool) : State :=
  let s1 := (writeUnits s pa bs).1
  if poison then [0, 8, 16, 24].foldl (fun t o => t.addPoison (pa + o)) s1 else s1

/-- The requests of a load that are not delivered once a beat of a tile has been written (R50). -/
def Stream.delivered (x : Stream) (t : StreamTile) : List (Nat × Nat) :=
  x.ahead.filter (fun e => decide (t.index < e.1) || (e.1 == t.index && decide (32 * (t.next + 1) < e.2)))

/-- LOADER_BEAT_WRITE (R57): the next beat is written at every quad of its tile. -/
def execLoaderBeatWrite (node slot : Nat) (s : State) : Out :=
  match (s.memCore node).stream slot with
  | none => .next s
  | some x =>
    match x.nextBeat with
    | none => .next s
    | some t =>
      let d : Desc := x.desc
      let bs := (t.data.drop (32 * t.next)).take 32
      let bad := t.poison.contains t.next
      let s1 := (d.tileQuads (nodeModule node) t.index).foldl (fun u q => u.writeBeat (localPhys q (d.tileLocal t.index + 32 * t.next)) bs bad) s
      let x1 := { x with ahead := x.delivered t }
      match x1.ready with
      | [] => .next (s1.setStream node slot (some { x1 with sent := t.next + 1 }))
      | _ :: r =>
        if 32 * (t.next + 1) < t.data.length then .next (s1.setStream node slot (some { x1 with ready := { t with next := t.next + 1 } :: r }))
        else
          let y := { x1 with ready := r, done := x.done + 1, pulls := x.pulls.drop 1 }
          let s2 := s1.setStream node slot (some y)
          let s3 := match if d.demand then x.pulls.head? else none with
            | some (who, key) => s2.send (pullSetTo who node key)
            | none => s2
          .next (if y.done = y.tiles then s3.completeStream node slot y else s3)

/-- STORER_WRITE (R58): the next write is performed; the last one completes the stream. A write to a paused stack waits, unless it drains from a memory core that is paused itself (R473). -/
def execStorerWrite (node slot : Nat) (s : State) : Out :=
  .next (if s.writeWaits node slot then s else (s.nextWrite node slot).endIfStored node slot)

/-! Commands (R51, R61, R64, R65, R71). -/

/-- GO (R51): the command queue holds 32 that wait for a slot. -/
def execGo (m : Packet) (s : State) : Out :=
  let node := destOf m
  let c := s.memCore node
  s.unlessPaused m <|
    if c.waiting.isEmpty then
      match s.takeGo node m with
      | some t => .next t
      | none => .next (s.setMemCore node { c with waiting := [m] })
    else if 32 ≤ c.waiting.length then .next (s.streamReply m 1 0 0)
    else .next (s.setMemCore node { c with waiting := c.waiting ++ [m] })

/-- The layout of EXT, STOP, RESUME and PULL (R51): one beat, with zeros outside the handle and the second operand. -/
def commandOk (m : Packet) (second : Bool) : Bool :=
  beatsOf m == 1 && fieldOf (m.payload.getD 0 0) 31 8 == 0 && fieldOf (m.payload.getD 1 0) 63 32 == 0 &&
  m.payload.getD 2 0 == 0 && m.payload.getD 3 0 == 0 && (second || m.payload.getD 1 0 == 0)

/-- The slot of a command's handle, if its stream is the one named and the jobs agree (R51). -/
def State.handleSlot (s : State) (m : Packet) : Option (Nat × Stream) :=
  let h := fieldOf (m.payload.getD 0 0) 63 32
  let k := bits h 25 22
  let c := s.memCore (destOf m)
  match c.stream k with
  | some x => if bits h 21 0 = destOf m ∧ bits h 31 26 = c.gen k ∧ Desc.job x.desc = jobOf m then some (k, x) else none
  | none => none

/-- A command with its layout and handle checked; `stale` is the status of a stale handle. No rule gives an outcome for an EXT, STOP, RESUME or PULL whose beat arrived with its poison sideband set: it is performed with its stored bytes, which is the model's DESIGN CHOICE (log 96). -/
def State.streamCommand (s : State) (m : Packet) (second : Bool) (stale : Nat) (act : Nat → Stream → State) : Out :=
  s.unlessPaused m <|
    if !commandOk m second then .next (s.streamReply m 2 0 1)
    else
      match s.handleSlot m with
      | some (k, x) => .next (act k x)
      | none => .next (s.streamReply m stale 0 0)

/-- EXT (R61): LIMIT saturates, and a stream parked by overflow tries its chunk again. -/
def execExt (m : Packet) (s : State) : Out :=
  s.streamCommand m true 1 (fun k x =>
    let y := { x with limit := min 0xFFFFFFFF (x.limit + fieldOf (m.payload.getD 1 0) 31 0), status := if x.status = .parked 5 then .running else x.status }
    (s.setStream (destOf m) k (some y)).streamReply m 0 0 0)

/-- STOP (R65): the stream issues nothing more, its writes drain, and it then ends. PULLs that a demand stream has not served when it is stopped get no key-set reply: R65 and R71 give none, and that is the model's DESIGN CHOICE (log 98). -/
def execStop (m : Packet) (s : State) : Out :=
  s.streamCommand m false 1 (fun k x =>
    let node := destOf m
    ((s.setStream node k (some { x with stops := x.stops ++ [m] })).flushWrites node k).endIfStored node k)

/-- RESUME (R64). -/
def execResume (m : Packet) (s : State) : Out :=
  s.streamCommand m false 2 (fun k x =>
    match x.status with
    | .parked _ => (s.setStream (destOf m) k (some { x with status := .running })).streamReply m 0 0 0
    | _ => s.streamReply m 1 0 0)

/-- PULL (R71): beyond the last tile it sets its key at once.
Two points of it are the model's DESIGN CHOICE (log 98). Bits [31:6] of its second operand, which R51 does not name, are ignored. A PULL that names a stream with DEMAND = 0, to which R71 gives no outcome, is answered "end of stream", and its key is set. -/
def execPull (m : Packet) (s : State) : Out :=
  s.streamCommand m true 2 (fun k x =>
    let key := fieldOf (m.payload.getD 1 0) 5 0
    if x.tiles ≤ x.pulled ∨ !Desc.demand x.desc then (s.streamReply m 1 0 0).send (pullSetTo m.src (destOf m) key)
    else (s.setStream (destOf m) k (some { x with pulled := x.pulled + 1, pulls := x.pulls ++ [(m.src, key)] })).streamReply m 0 0 0)

/-- INVALID_STREAM_COMMAND (R51). -/
def execInvalidStreamCommand (m : Packet) (s : State) : Out := s.unlessPaused m (.next (s.streamReply m 2 0 1))

/-- STRM_GO_RESEND (R353): the same descriptor goes again. -/
def execStrmGoResend (_node : Nat) (m : Packet) (s : State) : Out := .next (s.send m)

/-! STRM.GO (R53, R353). -/

/-- The absolute rectangle origin and FLT of a descriptor, or the bad destination (R19, R53): the rectangle lies inside PLBASE, and the system context, whose destinations are absolute (R19), gives it in absolute form. -/
def State.relocDesc (s : State) (d : Desc) : Except Nat (Nat × Nat × Nat) := do
  let f := d.flt
  if nodeIsEnd f then .error f
  if s.isSystem then
    let pl := s.myCore.plbase
    if d.dx < plBX pl ∨ d.dy < plBY pl ∨ plBX pl + plWX pl ≤ d.dx + d.dw ∨ plBY pl + plWY pl ≤ d.dy + d.dh then .error 0
    else if !goodNode s.present f then .error f
    else pure (d.dx, d.dy, f)
  else
    let c := s.myCore
    let r := s.myRecord
    if plWX c.plbase ≤ d.dx + d.dw ∨ plWY c.plbase ≤ d.dy + d.dh then .error 0
    else
      match relocCore c.plbase r (nodeX f) (nodeY f) (nodeModule f) with
      | none => .error 0
      | some (x, y, md) =>
        let n := coreNode md x y (nodeCore f)
        if goodNode s.present n then pure (plBX c.plbase + d.dx, plBY c.plbase + d.dy, n) else .error n

/-- STRM.GO and STRM.GO.nb (R353). -/
def execStrmGo (p : BitVec 4) (d a b : BitVec 5) (t : BitVec 1) (s : State) : Out :=
  s.issue p 0x8A [gsrc a, gsrc b] [.g d.toNat false] (fun s => do
    s.me.checkAcquire
    let la := (s.regs.gval a.toNat).toNat
    s.checkLocal 0x8A .payload la 128 false 32
    let w := s.regs.gval b.toNat
    let n := fieldOf w 21 0
    if fieldOf w 63 22 ≠ 0 ∨ !goodNode s.present n ∨ !nodeIsEnd n ∨ nodeClass n ≠ 0 ∨ nodeModule n ≠ nodeModule s.cur then .error (badDestination n)
    let (ws, ps) ← s.readPayload 0x8A la 4
    let desc : Desc := ws
    match s.relocDesc desc with
    | .error f => .error (badDestination f)
    | .ok (x, y, flt) =>
      let key := s.myCore.key desc.key
      if key.alloc = .free ∨ key.flight ≠ 0 then .error (.trap 0x42 none none)
      let w1 := putField (putField (putField (desc.word 1) 21 0 s.cur) 33 22 s.me.jobid) 55 34 flt
      let w9 := putField (putField (desc.word 9) 6 0 x) 12 7 y
      let full := (ws.set 1 w1).set 9 w9
      let (tag, s1) := s.freshTag s.cur
      let form (sel : Nat) : Packet := { s.engineCommand n sel ([1, 0, 0, 0] ++ full) (false :: ps) with tag := tag }
      let nb := t == 1
      let (z, me) ← s1.me.reserve d.toNat tag (.streamGo desc.key nb (form ackSelector)) false
      let m := form (s.curCtx * 16 + z)
      let me1 := { me with
        slots := aset me.slots z { reg := d.toNat, answer := .streamGo desc.key nb m, tag := tag }
        regs := me.regs.markG d.toNat .awaitBlock }
      pure (((s1.setMe me1).onBlock (fun k => { k with requests := k.requests ++ [m] })).notePayload 0x8A la 128))

end Sys2Proof.Machine
end

