-- ==== Sys2Proof/Machine/Walks.lean ====
section
/-! DEFINITION. Page walks and the receipt of a shootdown (R94, R102, R104, R106, R107, R430). -/

namespace Sys2Proof.Machine

/-! Runs of virtual addresses, as the units outside the cores translate them. -/

/-- Starts of the parts of a run of virtual addresses that lie in one 64 KiB page each, with their lengths. -/
def runParts (va n : Nat) : List (Nat × Nat) :=
  if n = 0 then []
  else (List.range ((va + n - 1) / 65536 - va / 65536 + 1)).map (fun k =>
    let a := if k = 0 then va else (va / 65536 + k) * 65536
    (a, min (va + n) ((a / 65536 + 1) * 65536) - a))

/-- A run of virtual addresses as physical runs. -/
def State.walkRun (s : State) (job va n : Nat) (k : AccessKind) : Except Nat (List (Nat × Nat)) :=
  (runParts va n).mapM (fun (e : Nat × Nat) => (s.walkTo job e.1 k).map (fun pa => (pa, e.2)))

/-- The bytes of a run of virtual addresses. -/
def State.virtualRead (s : State) (job va n : Nat) : Except Nat (List Byte) :=
  (s.walkRun job va n .read).map (fun l => l.flatMap (fun (e : Nat × Nat) => Memory.readN s.mem e.1 e.2))

/-! One read of a walk (R94, R102). -/

/-- A context waits for a walk of this job and 64 KiB region (R102). -/
def Ctx.waitsFor (x : Ctx) (job : Nat) (va : Word) : Bool :=
  match x.miss with
  | some (.walking j a) => j == job && a.toNat / 65536 == va.toNat / 65536
  | _ => false

/-- A context's walk has ended: it may go on, or it has a fault to report for the address that it waits for (R102, R104). -/
def State.endMiss (s : State) (node k : Nat) (w : Walk) (r : Word → Option Miss) : State :=
  let x := s.ctx node k
  match x.miss with
  | some (.walking _ a) => if x.waitsFor w.job w.va then s.setCtx node k { x with miss := r a } else s
  | _ => s

/-- The leaf of a core's walk fills the cluster's TLB and the core's own, unless a shootdown has come between, or the core is fenced and holds nothing (R102, R107). -/
def State.fillCore (s : State) (node : Nat) (fetch : Bool) (w : Walk) (e : TlbEntry) : State :=
  if w.stale ∨ (s.core node).fenced then s
  else
    let cl := s.cluster (clusterOf node)
    let s1 := s.setCluster (clusterOf node) { cl with tlb := tlbAddSet cl.tlb e }
    let c := s1.core node
    s1.setCore node (if fetch then { c with itlb := tlbAdd 16 c.itlb e } else { c with dtlb := tlbAdd 32 c.dtlb e })

/-- A stream that waits for a walk of this job and region goes on and translates again (R102, R106, R109). -/
def State.wakeStream (s : State) (node slot : Nat) (w : Walk) : State :=
  match (s.memCore node).stream slot with
  | some x =>
    match x.status with
    | .walking va _ _ =>
      if Desc.job x.desc = w.job ∧ va / 65536 = w.va.toNat / 65536 then s.setStream node slot (some { x with status := .running }) else s
    | _ => s
  | none => s

/-- The leaf of a walk goes to one unit that asked for it. -/
def State.walkLeaf (s : State) (w : Walk) (e : TlbEntry) : State :=
  match w.who with
  | .coreData node k => (s.fillCore node false w e).endMiss node k w (fun _ => none)
  | .coreFetch node k => (s.fillCore node true w e).endMiss node k w (fun _ => none)
  | .memCore node slot =>
    let c := s.memCore node
    (if w.stale then s else s.setMemCore node { c with tlb := tlbAdd 64 c.tlb e }).wakeStream node slot w
  | .hostPort n => if w.stale then s else s.setModule n { s.module n with tlb := tlbAdd 256 (s.module n).tlb e }

/-- A walk that ends in a fault fills nothing: a context faults when it issues again, and a stream parks (R102, R106). One that began before a shootdown of its job reports no fault: what waits for it translates afresh (R109). -/
def State.walkFault (s : State) (w : Walk) (cause : Nat) (poison : Bool) : State :=
  match w.who with
  | .coreData node k | .coreFetch node k =>
    s.endMiss node k w (fun a => if w.stale then none else some (.failed w.job a cause w.level poison))
  | .memCore node slot =>
    match (s.memCore node).stream slot with
    | some x =>
      match x.status with
      | .walking va elem tile =>
        if w.stale then s.wakeStream node slot w
        else if Desc.job x.desc = w.job ∧ va / 65536 = w.va.toNat / 65536 then s.parkStream node slot x (streamCause cause) va elem tile
        else s
      | _ => s
    | none => s
  | .hostPort _ => s

/-- The walkers that serve a requester: those of its cluster, or the one of its memory core (R102). -/
def State.walkUnit (s : State) : Walker → WalkUnit
  | .coreData n _ | .coreFetch n _ => (s.cluster (clusterOf n)).walks
  | .memCore n _ => (s.memCore n).walks
  | .hostPort _ => {}

def State.setWalkUnit (s : State) (u : WalkUnit) : Walker → State
  | .coreData n _ | .coreFetch n _ => s.setCluster (clusterOf n) { s.cluster (clusterOf n) with walks := u }
  | .memCore n _ => s.setMemCore n { s.memCore n with walks := u }
  | .hostPort _ => s

/-- A walk has ended: `f` answers each requester that merged into it, and the walker takes the next miss of its queue (R102). -/
def State.endWalk (s : State) (w : Walk) (f : State → Walk → State) : State :=
  let (who, u, next) := (s.walkUnit w.who).finish w.job w.va
  let s1 := s.setWalkUnit u w.who
  let s2 := (if who.isEmpty then [w.who] else who).foldl (fun (t : State) r => f t { w with who := r }) s1
  match next with
  | some m => s2.due (.pageWalkRead ⟨m.who.headD w.who, m.job, m.va, 0, s.ptroot m.job, false⟩)
  | none => s2

/-- The memory core that owns the granule of a walk's entry, while its stack is paused (R102, R473). -/
def State.pausedOwner (s : State) (w : Walk) : Option Nat :=
  match placeOf (w.table + 8 * levelIndex w.va.toNat w.level) with
  | .hbm c => if (s.memCore c).paused then some c else none
  | _ => none

/-- A walk of a stream of a paused memory core, which takes no fault while it is paused (R473). -/
def State.pausedWalker (s : State) : Walker → Bool
  | .memCore n _ => (s.memCore n).paused
  | _ => false

/-- PAGE_WALK_READ (R94): the read of one entry, which a paused stack answers once it goes on (R473); a root outside HBM ends the walk. -/
def execPageWalkRead (w : Walk) (s : State) : Out :=
  if w.level = 0 ∧ !inHbm w.table then .next (s.endWalk w (fun t v => t.walkFault v 0x23 false))
  else
  match s.pausedOwner w with
  | some c => .next (s.setMemCore c { s.memCore c with walkReads := (s.memCore c).walkReads ++ [w] })
  | none =>
    if s.pausedWalker w.who then
      match w.who with
      | .memCore n _ => .next (s.setMemCore n { s.memCore n with walkReads := (s.memCore n).walkReads ++ [w] })
      | _ => .next s
    else
      match s.walkRead w.va.toNat w.level w.table with
      | .next t => .next (s.due (.pageWalkRead { w with level := w.level + 1, table := t }))
      | .leaf e => .next (s.endWalk w (fun t v => t.walkLeaf v (leafEntry v.job v.va.toNat v.level e)))
      | .fault c p => .next (s.endWalk w (fun t v => t.walkFault v c p))

/-! Shootdown (R107). -/

/-- Bytes of the page that a shootdown names (R360). -/
def shotBytes (t : Shootdown) : Nat := pageSize (3 - t.size)

/-- A run of virtual addresses of a job meets the range. -/
def shotMeets (t : Shootdown) (job va n : Nat) : Bool :=
  job == t.job && (t.all || overlap va n (t.va.toNat / shotBytes t * shotBytes t) (shotBytes t))

/-- A TLB without the entries that the range meets, in every size (R107 step 1). -/
def shotPurge (t : Shootdown) (l : List TlbEntry) : List TlbEntry := l.filter (fun e => !shotMeets t e.job e.base e.size)

/-- An instruction cache without the words of the job in the range (R107 step 1). -/
def shotPurgeCode (t : Shootdown) (l : List (Nat × BitVec 32)) : List (Nat × BitVec 32) :=
  l.filter (fun e => !shotMeets t (e.1 / 2 ^ 48) (e.1 % 2 ^ 48) 4)

/-- A walk of the job fills nothing from now on (R107 step 2). -/
def staleWalk (p : Walker → Bool) (job : Nat) : Event → Event
  | .pageWalkRead w => .pageWalkRead (if w.job = job ∧ p w.who then { w with stale := true } else w)
  | e => e

def State.staleWalks (s : State) (p : Walker → Bool) (job : Nat) : State :=
  { s with
    agenda := s.agenda.map (staleWalk p job)
    later := s.later.map (fun (e : Nat × Event) => (e.1, staleWalk p job e.2))
    memCores := s.memCores.map (fun (e : Nat × MemCore) => (e.1, { e.2 with walkReads := e.2.walkReads.map (fun w => if w.job = job ∧ p w.who then { w with stale := true } else w) })) }

/-- The core whose walk it is. -/
def walkerCore : Walker → Option Nat
  | .coreData n _ | .coreFetch n _ => some n
  | _ => none

/-- An effect whose virtual address lies in the range is marked (R107 step 3). -/
def Effect.mark (t : Shootdown) : Effect → Effect
  | .mem e => .mem { e with marked := e.marked || (e.virt && shotMeets t e.job e.addr.toNat 1) }
  | .copy d a n ps m j f => .copy d a n ps (m || shotMeets t j d.toNat n || shotMeets t j a.toNat n) j f
  | e => e

/-- A core with its entries removed and its effects marked (R107). -/
def Core.shootDown (c : Core) (t : Shootdown) : Core :=
  { c with
    itlb := shotPurge t c.itlb
    dtlb := shotPurge t c.dtlb
    ctxs := c.ctxs.map (fun (x : Ctx) => { x with
      retire := x.retire.map (Effect.mark t)
      block := x.block.map (fun (b : OpenBlock) => { b with effects := b.effects.map (Effect.mark t) }) })
    departure := c.departure.map (fun (e : Nat × Effect) => (e.1, e.2.mark t)) }

/-- Requests under way that were translated under a removed entry (R107 step 4). -/
def Core.affected (c : Core) (t : Shootdown) : List Nat :=
  (c.pending.filter (fun p => match p.job, p.answer with
    | some j, .effect op _ => shotMeets t j p.addr.toNat 1 || (op == 0x20 && j == t.job)
    | some j, _ => shotMeets t j p.addr.toNat 1
    | none, _ => false)).map (fun p => p.tag)

/-- TLBI_RECEIVE (R107): a unit acknowledges once it waits for no access that it translated under a removed entry; a memory core with a write to a paused stack does so when that has been performed (R473). -/
def execTlbiReceive (unit : TlbUnit) (t : Shootdown) (s : State) : Out :=
  match unit with
  | .core n =>
    if (s.core n).fenced then .next (s.shootdownAck t unit)
    else
      let s0 := s.staleWalks (fun w => walkerCore w == some n) t.job
      let s1 := s0.setQuad n { s0.quad n with icache := shotPurgeCode t (s0.quad n).icache }
      let c := (s1.core n).shootDown t
      let l := c.affected t
      if l.isEmpty then .next ((s1.setCore n c).shootdownAck t unit)
      else .next (s1.setCore n { c with draining := c.draining ++ [(t, l)] })
  | .cluster n =>
    let s1 := s.staleWalks (fun w => ((walkerCore w).map clusterOf) == some n) t.job
    let cl := s1.cluster n
    .next ((s1.setCluster n { cl with tlb := shotPurge t cl.tlb }).shootdownAck t unit)
  | .memCore n =>
    let s1 := s.staleWalks (fun w => match w with
      | .memCore k _ => k == n
      | _ => false) t.job
    let m := s1.memCore n
    let s2 := s1.setMemCore n { m with tlb := shotPurge t m.tlb }
    let slots := (List.range 16).filter (fun k => ((m.stream k).map (fun (x : Stream) => Desc.job x.desc == t.job)).getD false)
    let s3 := slots.foldl (fun (u : State) k => u.flushWrites n k) s2
    let s4 := slots.foldl (fun (u : State) k => u.endIfStored n k) s3
    .next (if slots.all (s3.writesDone n) then s4.shootdownAck t unit else s4.after 1 (.tlbiReceive unit t))
  | .hostPort n =>
    let x := s.module n
    .next ((s.setModule n { x with tlb := shotPurge t x.tlb }).shootdownAck t unit)

end Sys2Proof.Machine
end

