-- ==== Sys2Proof/Machine/Seal.lean ====
section
/-! DEFINITION. The seal engine: segments, frames, marks, manifests and unmarked records (R362, R363, R440 to R445). -/

namespace Sys2Proof.Machine

/-- A module's seal engine changed. -/
def State.onEngine (s : State) (n : Nat) (f : SealEngine → SealEngine) : State :=
  s.setModule n { s.module n with engine := f (s.module n).engine }

/-- The time that marks and manifests carry: bits [53:10] of the I/O die's count of clk (R442). -/
def State.sealTime (s : State) : Nat := bits s.clk 53 10

def SealEngine.segment (e : SealEngine) (k : Nat) : Option Segment := (e.segments[k]?).getD none

/-! Pages of host and seal accesses (R98, R362, R363). -/

/-- Every page of a run of virtual addresses has a leaf that meets a condition and translates for an access. -/
def State.pagesMeet (s : State) (job va n : Nat) (k : AccessKind) (p : Word → Bool) : Bool :=
  decide (va + n ≤ 2 ^ 48) && (runParts va n).all (fun (e : Nat × Nat) =>
    match s.walkAll job e.1 with
    | .ok l =>
      (match State.useLeaf l e.1 k with
      | .ok _ => p l.pte
      | .error _ => false)
    | .error _ => false)

/-- The bytes of a run of virtual addresses; where a page does not translate, none. -/
def State.virtualBytes (s : State) (job va n : Nat) : List Byte :=
  match s.virtualRead job va n with
  | .ok l => l
  | .error _ => []

/-- Bytes written at a run of virtual addresses; a part whose page does not translate for a write takes none (log 20). -/
def State.virtualWrite (s : State) (job va : Nat) (bs : List Byte) : State :=
  (runParts va bs.length).foldl (fun (t : State) (e : Nat × Nat) =>
    match t.walkTo job e.1 .write with
    | .ok pa => (writeUnits t pa ((bs.drop (e.1 - va)).take e.2)).1
    | .error _ => t) s

/-! The mark (R442). -/

/-- The mark M of a frame. -/
def markOf (serial job fidx time : Nat) : Nat :=
  serial % 2 ^ 40 * 2 ^ 88 + job % 4096 * 2 ^ 76 + fidx % 2 ^ 32 * 2 ^ 44 + time % 2 ^ 44

/-- What the marking of R442 carries along: the next hash number, the current hash and the next word of it, the positions used, and the samples. -/
structure Marker where
  n : Nat
  i : Nat
  d : List Byte
  used : List Nat
  samples : List Nat
deriving DecidableEq, Repr

/-- The next word u of the stream of hashes. -/
def Marker.draw (k : Marker) (key : List Byte) (fidx : Nat) : Nat × Marker :=
  let k1 := if k.i = 8 then { k with d := sha256 (key ++ bytesOfNat 4 fidx ++ bytesOfNat 4 k.n), n := k.n + 1, i := 0 } else k
  (numAt k1.d (4 * k1.i) 4, { k1 with i := k1.i + 1 })

/-- Words are drawn until one names a position that is not used; at most as many as the first argument says (log 20). -/
def Marker.find (key : List Byte) (fidx : Nat) : Nat → Marker → Option (Nat × Marker)
  | 0, _ => none
  | t + 1, k =>
    let (u, k1) := k.draw key fidx
    if k1.used.contains (bits u 26 0 % k1.samples.length) then Marker.find key fidx t k1 else some (u, k1)

/-- One bit of the mark goes into the sample that a word names. -/
def Marker.place (k : Marker) (u vmax : Nat) (bit : Bool) : Marker :=
  let p := bits u 26 0 % k.samples.length
  let t := bit != bitAt u 31
  let v := k.samples.getD p 0
  let w :=
    if bitAt v 0 == t then v
    else if v = vmax then v - 1
    else if v = 0 then v + 1
    else if !bitAt u 30 then v + 1
    else v - 1
  { k with used := k.used ++ [p], samples := k.samples.set p w }

/-- The luma samples with the mark embedded (R442). -/
def embed (key : List Byte) (fidx m vmax : Nat) (samples : List Nat) : List Nat :=
  let r := min 8 (samples.length / 256)
  let k := (List.range 128).foldl (fun (k : Marker) j =>
    (List.range r).foldl (fun (k : Marker) _ =>
      match Marker.find key fidx 65536 k with
      | some (u, k1) => k1.place u vmax (bitAt m j)
      | none => k) k) ⟨0, 8, [], [], samples⟩
  k.samples

/-! Frame descriptors (Table 15-8). -/

def frameLuma (f : List Word) : Nat := (f.getD 0 0).toNat
def frameChroma (f : List Word) : Nat := (f.getD 1 0).toNat
def frameW (f : List Word) : Nat := fieldOf (f.getD 2 0) 13 0
def frameH (f : List Word) : Nat := fieldOf (f.getD 2 0) 27 14
def frameD10 (f : List Word) : Bool := flagOf (f.getD 2 0) 28
def framePitch (f : List Word) : Nat := fieldOf (f.getD 2 0) 44 29 * 32
def frameIdx (f : List Word) : Nat := fieldOf (f.getD 3 0) 31 0

/-- Bytes of a sample, and of a row. -/
def frameSize (f : List Word) : Nat := if frameD10 f then 2 else 1
def frameRow (f : List Word) : Nat := frameW f * frameSize f

/-- Every field of a descriptor lies in its range. -/
def frameOk (f : List Word) : Bool :=
  let dim (x : Nat) : Bool := decide (16 ≤ x) && decide (x ≤ 8192) && x % 2 == 0
  decide (frameLuma f < 2 ^ 48) && frameLuma f % 32 == 0 && decide (frameChroma f < 2 ^ 48) && frameChroma f % 32 == 0 &&
  dim (frameW f) && dim (frameH f) && decide (frameRow f ≤ framePitch f) &&
  fieldOf (f.getD 2 0) 63 45 == 0 && fieldOf (f.getD 3 0) 63 32 == 0

/-- Addresses of the rows of a plane. -/
def rowsOf (f : List Word) (base n : Nat) : List Nat := (List.range n).map (fun k => base + k * framePitch f)

/-- Rows of both planes. -/
def frameRows (f : List Word) : List Nat := rowsOf f (frameLuma f) (frameH f) ++ rowsOf f (frameChroma f) (frameH f / 2)

/-- Every plane page is sealed and translates (R98, R363). -/
def State.frameSealed (s : State) (job : Nat) (f : List Word) : Bool :=
  (frameRows f).all (fun a => s.pagesMeet job a (frameRow f) .read (fun e => flagOf e 5))

/-- Samples of a run of bytes: 8 bits, or bits [9:0] of 16. -/
def samplesOf (d10 : Bool) (bs : List Byte) : List Nat :=
  if d10 then (List.range (bs.length / 2)).map (fun k => numAt bs (2 * k) 2 % 1024) else bs.map (fun b => b.toNat)

/-- The bytes with new samples; bits [15:10] stay (R441). -/
def withSamples (d10 : Bool) (bs : List Byte) (l : List Nat) : List Byte :=
  if d10 then (List.range (bs.length / 2)).flatMap (fun k => bytesOfNat 2 (numAt bs (2 * k) 2 / 1024 * 1024 + l.getD k 0))
  else l.map (fun v => .ofNat 8 v)

/-! Frames (R441). -/

/-- Bytes of a frame record. -/
def recordBytes (f : List Word) : Nat := 64 + (frameRow f * (frameH f + frameH f / 2) + 63) / 64 * 64

/-- Bytes written at the tail of the frame ring, with interrupt vector 2 (R429). -/
def State.frameWrite (s : State) (n : Nat) (bs : List Byte) : State :=
  let x := s.module n
  { s.setModule n { x with frm := { x.frm with tail := (x.frm.tail + bs.length) % 2 ^ 32 }, interrupts := x.interrupts ++ [2] } with
    hostMem := (List.range bs.length).foldl (fun m k => Memory.write m (x.frm.base + (x.frm.tail + k) % x.frm.size) (bs.getD k 0)) s.hostMem }

/-- The frame is marked, hashed and recorded, and enters the segment's manifest (R441, R443). -/
def State.performFrame (s : State) (n k : Nat) (g : Segment) (handle : Nat) (f : List Word) : State :=
  let row := frameRow f
  let luma := (rowsOf f (frameLuma f) (frameH f)).flatMap (fun a => s.virtualBytes g.job a row)
  let chroma := (rowsOf f (frameChroma f) (frameH f / 2)).flatMap (fun a => s.virtualBytes g.job a row)
  let m := markOf (Config.serial n).toNat g.job (frameIdx f) s.sealTime
  let marked := withSamples (frameD10 f) luma
    (embed (fit 32 0 (Config.markKey n)) (frameIdx f) m (if frameD10 f then 1023 else 255) (samplesOf (frameD10 f) luma))
  let body := marked ++ chroma
  let h := sha256 body
  let head := bytesOfNat 4 handle ++ bytesOfNat 4 (frameIdx f) ++ bytesOfNat 8 g.frames.length ++ bytesOfWord (f.getD 2 0) ++ bytesOfNat 8 0 ++ h
  let entry := bytesOfNat 4 (frameIdx f) ++ bytesOfNat 4 (fieldOf (f.getD 2 0) 28 0) ++ bytesOfNat 8 s.sealTime ++ bytesOfNat 16 m ++ h
  let s1 := s.frameWrite n (head ++ fit (recordBytes f - 64) 0 body)
  s1.onEngine n (fun e => { e with segments := e.segments.setIfInBounds k (some { g with frames := g.frames ++ [entry] }) })

/-! Manifests (R443, R444). -/

/-- A manifest up to its signature (Table 23-5). -/
def manifestBody (serial job : Nat) (ending unm : Bool) (seq : Nat) (prev : List Byte) (opened closed handle : Nat) (frames records : List (List Byte)) : List Byte :=
  bytesOfNat 8 (1 + serial % 2 ^ 40 * 2 ^ 8 + job % 4096 * 2 ^ 48 + bitNat ending * 2 ^ 60 + bitNat unm * 2 ^ 61) ++
  bytesOfNat 8 seq ++ prev ++ bytesOfNat 8 opened ++ bytesOfNat 8 closed ++
  bytesOfNat 4 (handle % 65536 + frames.length * 65536) ++ bytesOfNat 4 records.length ++ List.replicate 56 0 ++
  frames.flatten ++ records.flatten

/-- A signature by a key of a module, with an open salt of 32 bytes (R443, R471; log 5). -/
def State.sign (s : State) (n key : Nat) (body : List Byte) : List Byte :=
  pssSign (Config.rsaModulus n key) (Config.rsaPrivate n key) body (bytesOfWords ((List.range 4).map (fun k => Config.openWord (s.free + k))))

/-- A manifest is signed: the chain moves on, and every pending record is in it (R443, R444). -/
def State.signManifest (s : State) (n job : Nat) (ending unm : Bool) (opened handle : Nat) (frames : List (List Byte)) : List Byte × State :=
  let e := (s.module n).engine
  let body := manifestBody (Config.serial n).toNat job ending unm e.seq e.prev opened s.sealTime handle frames e.records
  let all := body ++ s.sign n 0 body
  (all, State.onEngine { s with free := s.free + 4 } n (fun e => { e with seq := e.seq + 1, prev := sha256 all, records := [] }))

/-- Arrivals that the host port held come again (R435, R444). -/
def State.releaseHeld (s : State) (n : Nat) : State :=
  let x := s.module n
  (s.setModule n { x with held := [] }).dueFirst (x.held.map .hostPortReceive)

/-- The close of a segment: its manifest is signed and written, and the segment is free (R363, R443, R445). -/
def State.closeSegment (s : State) (n k : Nat) (g : Segment) (ending : Bool) : State :=
  let gen := ((s.module n).engine.gens[k]?).getD 0
  let (bs, s1) := s.signManifest n g.job ending false g.opened (k + gen * 64) g.frames
  ((s1.virtualWrite g.job g.va bs).onEngine n (fun e => { e with
    segments := e.segments.setIfInBounds k none
    gens := e.gens.setIfInBounds k ((gen + 1) % 1024) })).releaseHeld n

/-- The open segments of a job are closed with END = 1, and its buffers are no longer read (R440, R445); a pause of a stack does not delay that (log 44). -/
def State.closeSegmentsOf (s : State) (n job : Nat) : State :=
  let s1 := (List.range 64).foldl (fun (t : State) k =>
    match (t.module n).engine.segment k with
    | some g => if g.job = job then t.closeSegment n k g true else t
    | none => t) s
  s1.onEngine n (fun e => { e with buffers := e.buffers.filter (fun b => b.1 != job) })

/-- Every open segment of a job is closed and its buffers are no longer read, on whatever module it has been (R440, R445). -/
def State.closeJob (s : State) (job : Nat) : State := s.modules.foldl (fun (t : State) (e : Nat × Module) => t.closeSegmentsOf e.1 job) s

/-! Commands. -/

/-- An accepted command waits at the engine (R111, R441). -/
def State.holdSeal (s : State) (m : Packet) : State :=
  s.onEngine (nodeModule (destOf m)) (fun e => { e with waiting := e.waiting ++ [{ m with counted := true }] })

/-- A command is accepted (R111); it waits at the engine while another waits there, or while a run of memory that it reads belongs to a paused stack (R441, R473). -/
def State.sealCommand (s : State) (m : Packet) (f : State → State) : Out :=
  let s1 := s.acceptCommand m
  if (s1.module (nodeModule (destOf m))).engine.waiting.isEmpty then .next (f s1) else .next (s1.holdSeal m)

/-- The commands that wait at the engine come again, in order (R441). -/
def State.pumpSeal (s : State) (n : Nat) : State :=
  let l := (s.module n).engine.waiting
  (s.onEngine n (fun e => { e with waiting := [] })).dueFirst (l.map route)

/-- The segment that a handle names for the job of a command, with its number (R362). -/
def State.segmentOf (s : State) (m : Packet) : Option (Nat × Segment) :=
  let e := (s.module (nodeModule (destOf m))).engine
  let h := fieldOf (m.payload.headD 0) 63 32
  let k := h % 64
  match e.segment k with
  | some g => if (e.gens[k]?).getD 0 = h / 64 ∧ g.job = jobOf m then some (k, g) else none
  | none => none

/-- SEAL_OPEN_PERFORM (R362). That the segment is the lowest free one is the model's DESIGN CHOICE (log 112). -/
def execSealOpenPerform (m : Packet) (s : State) : Out :=
  s.sealCommand m (fun s =>
    let n := nodeModule (destOf m)
    let e := (s.module n).engine
    let va := (m.payload.getD 1 0).toNat
    if !s.pagesMeet (jobOf m) va 0x6000 .write (fun p => flagOf p 6) then s.engineDone m (engineWord 0 1 0)
    else
      match (List.range 64).find? (fun k => (e.segment k).isNone) with
      | none => s.engineDone m (engineWord 0 2 0)
      | some k =>
        (s.onEngine n (fun e => { e with
          segments := e.segments.setIfInBounds k (some { job := jobOf m, va := va, opened := s.sealTime })
          buffers := e.buffers ++ [(jobOf m, va)] })).engineDone m (engineWord (k + (e.gens[k]?).getD 0 * 64) 0 0))

/-- Some byte of the frame lies in a stack that is paused (R473). -/
def State.framePaused (s : State) (job : Nat) (f : List Word) : Bool :=
  (frameRows f).any (fun a => (runParts a (frameRow f)).any (fun (e : Nat × Nat) =>
    match s.walkTo job e.1 .read with
    | .ok pa => s.pausedAt pa
    | .error _ => false))

/-- SEAL_FRAME_PERFORM (R363, R441). -/
def execSealFramePerform (m : Packet) (s : State) : Out :=
  s.sealCommand m (fun s =>
    let n := nodeModule (destOf m)
    let f := m.payload.drop 4
    let x := s.module n
    match s.segmentOf m with
    | none => s.engineDone m (engineWord 0 4 0)
    | some (k, g) =>
      if !frameOk f then s.engineDone m (engineWord 0 5 0)
      else if 256 ≤ g.frames.length then s.engineDone m (engineWord 0 3 0)
      else if !s.frameSealed g.job f then s.engineDone m (engineWord 0 1 0)
      else if x.frm.size < x.frm.used + recordBytes f ∨ s.framePaused g.job f then
        s.holdSeal m
      else (s.performFrame n k g (fieldOf (m.payload.headD 0) 63 32) f).engineDone m (engineWord (g.frames.length + 1) 0 0))

/-- The manifest of a segment would go to a stack that is paused (R473). -/
def State.closePaused (s : State) (n k : Nat) (g : Segment) : Bool :=
  let bs := (s.signManifest n g.job false false g.opened (k + ((s.module n).engine.gens[k]?).getD 0 * 64) g.frames).1
  (runParts g.va bs.length).any (fun (e : Nat × Nat) =>
    match s.walkTo g.job e.1 .write with
    | .ok pa => s.pausedAt pa
    | .error _ => false)

/-- SEAL_CLOSE_PERFORM (R363, R443); the reply follows the last byte written (R445), and the close waits for a paused stack (R473). -/
def execSealClosePerform (m : Packet) (s : State) : Out :=
  s.sealCommand m (fun s =>
    match s.segmentOf m with
    | none => s.engineDone m (engineWord 0 4 0)
    | some (k, g) => if s.closePaused (nodeModule (destOf m)) k g then s.holdSeal m else (s.closeSegment (nodeModule (destOf m)) k g false).engineDone m (engineWord g.frames.length 0 0))

/-! Unmarked records (R444). -/

/-- The record of a message with payload. -/
def unmarkedRecord (m : Packet) (time : Nat) : List Byte :=
  let bs := (bytesOf m).take (32 * beatsOf m)
  bytesOfNat 4 m.src ++ bytesOfNat 4 (jobOf m) ++ bytesOfNat 8 time ++ bytesOfNat 16 bs.length ++ sha256 bs

/-- The host port writes a message with payload in sealed-output mode: a record is pending. -/
def State.addUnmarked (s : State) (n : Nat) (m : Packet) : State :=
  let e := (s.module n).engine
  let s1 := s.onEngine n (fun e => { e with records := e.records ++ [unmarkedRecord m s.sealTime], oldest := if e.records.isEmpty then s.clk else e.oldest })
  if e.records.isEmpty then s1.after (2 ^ 20) (.unmarkedManifestSign n)
  else if e.records.length = 63 then s1.due (.unmarkedManifestSign n) else s1

/-- UNMARKED_MANIFEST_SIGN (R444): 64 records are pending, or the oldest is 2^20 clk old. -/
def execUnmarkedManifestSign (module : Nat) (s : State) : Out :=
  let x := s.module module
  if x.engine.records.isEmpty ∨ (x.engine.records.length < 64 ∧ s.clk < x.engine.oldest + 2 ^ 20) then .next s
  else
    let (bs, s1) := s.signManifest module 0 false true s.sealTime 0 []
    let i := x.umNext % 8
    let s2 := { s1.setModule module { s1.module module with umNext := x.umNext + 1 } with hostMem := Memory.writeN s1.hostMem (x.umbase + 8192 * i) bs }
    .next ((s2.complete module 0x86 0 0 0 (wordOf i)).releaseHeld module)

end Sys2Proof.Machine
end

