-- ==== Sys2Proof/Machine/Jobs.lean ====
section
/-! DEFINITION. Job records, their checks, placement, loading, release, the end of a job (R17 to R20, R139 to R145, R169 to R172, R309, R330, R368 to R370, R381, R433, R449, R455, R459, R461 to R463). -/

namespace Sys2Proof.Machine

/-! The job record (Table 7-1). -/

/-- Word k of a record. -/
def recordWord (bs : List Byte) (k : Nat) : Word := wordAt bs (8 * k)

/-- The fields of a job record. -/
def decodeRecord (bs : List Byte) : JobRecord where
  job := fieldOf (recordWord bs 0) 11 0
  mx := flagOf (recordWord bs 0) 12
  nmod := fieldOf (recordWord bs 0) 18 13
  wx := fieldOf (recordWord bs 0) 25 19
  wy := fieldOf (recordWord bs 0) 31 26
  nchan := fieldOf (recordWord bs 0) 38 32
  need := fieldOf (recordWord bs 0) 42 39
  ptroot := fieldOf (recordWord bs 1) 51 0
  wkd := recordWord bs 2
  htab := fieldOf (recordWord bs 3) 47 0
  init := fieldOf (recordWord bs 4) 47 0
  ninit := fieldOf (recordWord bs 5) 19 0
  qdepth := (List.range 4).map (fun p => fieldOf (recordWord bs 5) (25 + 6 * p) (20 + 6 * p))
  prod := fieldOf (recordWord bs 6) 11 0
  trign := fieldOf (recordWord bs 6) 35 12
  tumb := fieldOf (recordWord bs 7) 47 0
  chan := fieldOf (recordWord bs 8) 47 0
  live := fieldOf (recordWord bs 9) 47 0
  nlive := fieldOf (recordWord bs 9) 55 48
  opmap := fieldOf (recordWord bs 10) 47 0
  ntumb := fieldOf (recordWord bs 11) 27 0
  modmap := (List.range (fieldOf (recordWord bs 0) 18 13 + 1)).map (fun j => numAt bs (96 + j) 1)

/-- Every field marked must-be-zero is zero (R141). -/
def recordZeros (bs : List Byte) : Bool :=
  let z (k hi lo : Nat) : Bool := fieldOf (recordWord bs k) hi lo == 0
  let nmod := fieldOf (recordWord bs 0) 18 13
  z 0 63 43 && z 1 63 52 && z 2 63 45 && z 3 63 48 && z 4 63 48 && z 5 63 44 && z 6 63 36 && z 7 63 48 && z 8 63 48 &&
  z 9 63 56 && z 10 63 48 && z 11 63 28 &&
  (List.range 64).all (fun j => if j ≤ nmod then decide (numAt bs (96 + j) 1 < 64) else numAt bs (96 + j) 1 == 0) &&
  ((bs.drop 160).take 96).all (fun b => b == 0)

/-- Modules of a job, by job-relative number (R19). -/
def JobRecord.modules (r : JobRecord) : List Nat := (List.range (r.nmod + 1)).map (fun j => r.modmap.getD j 0)

/-- Table rows of 16 bytes, as pairs of words. -/
def tableRows (bs : List Byte) (n : Nat) : List (Word × Word) := (List.range n).map (fun k => (wordAt bs (16 * k), wordAt bs (16 * k + 8)))

def tumblerRow (e : Word × Word) : TumblerInit :=
  ⟨fieldOf e.1 8 0, fieldOf e.1 15 9, fieldOf e.1 21 16, fieldOf e.1 27 22,
    { count := fieldOf e.2 23 0, target := fieldOf e.2 47 24, arm := flagOf e.1 28 }⟩

def channelRow (e : Word × Word) : Channel :=
  ⟨fieldOf e.1 6 0, fieldOf e.1 12 7, fieldOf e.1 18 13, fieldOf e.1 20 19, fieldOf e.1 27 21, fieldOf e.1 33 28, fieldOf e.1 39 34, fieldOf e.1 41 40⟩

def regionRow (e : Word × Word) : Region :=
  ⟨fieldOf e.1 19 0, fieldOf e.1 21 20, flagOf e.1 22, fieldOf e.1 29 23, fieldOf e.1 35 30, fieldOf e.1 41 36, fieldOf e.2 19 0⟩

/-! Checks (Table 23-6). -/

/-- A tumbler entry is good for a record (R143). -/
def tumblerRowOk (r : JobRecord) (e : Word × Word) : Bool :=
  let t := tumblerRow e
  fieldOf e.1 63 29 == 0 && fieldOf e.2 63 48 == 0 && decide (t.jx < r.wx) && decide (t.jy < r.wy) && decide (t.jm ≤ r.nmod)

def channelZeros (e : Word × Word) : Bool := fieldOf e.1 63 42 == 0 && e.2 == 0

def Channel.inside (r : JobRecord) (c : Channel) : Bool :=
  decide (c.sx < r.wx) && decide (c.sy < r.wy) && decide (c.dx < r.wx) && decide (c.dy < r.wy)

def Channel.modulesOk (r : JobRecord) (c : Channel) : Bool := decide (c.sm ≤ r.nmod) && decide (c.dm ≤ r.nmod)

/-- Two channels share a source core and a destination quad (R393). -/
def Channel.clash (a b : Channel) : Bool :=
  a.sx == b.sx && a.sy == b.sy && a.sm == b.sm && a.sc == b.sc && a.dx == b.dx && a.dy == b.dy && a.dm == b.dm

/-- Some two members of a list stand in a relation. -/
def anyPair {α : Type} (p : α → α → Bool) : List α → Bool
  | [] => false
  | a :: r => r.any (p a) || anyPair p r

def regionZeros (e : Word × Word) : Bool :=
  let g := regionRow e
  fieldOf e.1 63 42 == 0 && fieldOf e.2 63 20 == 0 && g.off % 32 == 0 && (!g.all || (g.qx == 0 && g.qy == 0 && g.qm == 0))

/-- The record's own checks, in the order of Table 23-6: the reason of the first that fails (R142). A field outside its range of Table 7-1 that no reason names (WX or WY 0, NCHAN above 64, TRIGN 0 with PROD not 0) is accepted and used as it stands, which is the model's DESIGN CHOICE (log 21). -/
def recordFault (bs : List Byte) (r : JobRecord) (used : Bool) : Option Nat :=
  if !recordZeros bs then some 1
  else if r.job = 0 ∨ used then some 2
  else if r.qdepth.any (fun d => decide (d < 4) || decide (32 < d)) then some 3
  else if !wkValid r.wkd then some 4
  else if r.mx ∧ (r.wx % 2 ≠ 0 ∨ r.wy % 2 ≠ 0) then some 5
  else if anyPair (fun a b => a == b) r.modules then some 6
  else if r.prod = r.job then some 7
  else none

/-- Checks of the three tables (R143, R393, R401); a table that does not translate fails its first check (log 21). -/
def tableFault (r : JobRecord) (tumb chan live : Option (List (Word × Word))) : Option Nat :=
  match tumb, chan, live with
  | none, _, _ => some 8
  | some t, c, l =>
    if 512 * r.wx * r.wy * (r.nmod + 1) < r.ntumb ∨ !t.all (tumblerRowOk r) then some 8
    else
      match c with
      | none => some 9
      | some c =>
        let ch := c.map channelRow
        if !c.all channelZeros then some 9
        else if !ch.all (Channel.inside r) then some 10
        else if !ch.all (Channel.modulesOk r) then some 11
        else if anyPair Channel.clash ch then some 12
        else
          match l with
          | none => some 13
          | some l =>
            let g := l.map regionRow
            if g.any (fun g => decide (storeSize g.sel < g.off + g.len)) then some 13
            else if g.any (fun g => g.sel == 0 && decide (0x24000 < g.off + g.len)) then some 14
            else if g.any (fun g => g.len == 0 || g.len % 32 != 0) then some 15
            else if !l.all regionZeros then some 16
            else none

/-! The zero fields of a snapshot image (R10, R402). -/

/-- The metadata word of a slot of a core record. -/
def State.slotMeta (s : State) (record i : Nat) : Word := Memory.word s.mem (record + 0x6B40 + 288 * i + 16)

/-- The slot behind n queue entries from slot i of a core record: an entry takes as many slots as it has inputs. -/
def State.entriesEnd (s : State) (record : Nat) : Nat → Nat → Nat
  | 0, i => i
  | n + 1, i => s.entriesEnd record n (i + fieldOf (s.slotMeta record i) 6 5 + 1)

/-- The slots of a core record: those of its queue and spill entries, and one for each other entry. -/
def State.slotCount (s : State) (record : Nat) : Nat :=
  let n (k : Nat) : Nat := natOfBytes (Memory.readN s.mem (record + 4 * k) 4)
  s.entriesEnd record ((List.range 8).map n).sum 0 + n 8 + n 9 + n 10

/-- The zero fields of a core record: those of its slots' metadata words. -/
def State.coreZeros (s : State) (record : Nat) : Bool := (List.range (s.slotCount record)).all (fun i => fieldOf (s.slotMeta record i) 63 23 == 0)

/-- The zero fields of a quad record: of its first word, of its tumblers and of its core records. -/
def State.quadZeros (s : State) (image record : Nat) : Bool :=
  fieldOf (Memory.word s.mem record) 63 19 == 0 &&
  (List.range 512).all (fun t => fieldOf (Memory.word s.mem (record + 0x100 + 40 * t)) 63 50 == 0) &&
  (List.range 4).all (fun c => s.coreZeros (image + (Memory.word s.mem (record + 8 + 8 * c)).toNat))

/-- A snapshot image names the job and is complete, and every zero field of it is zero; n is the number of its quads (R10, R402, R433; log 21). -/
def State.imageGood (s : State) (image job n : Nat) : Bool :=
  let w := Memory.word s.mem image
  fieldOf w 11 0 == job && flagOf w 12 && fieldOf w 63 14 == 0 &&
  (List.range n).all (fun q => s.quadZeros image (image + (Memory.word s.mem (image + 0x100 + 8 * q)).toNat))

/-- JOB belongs to a job that has not ended; a saved job for which no RESTORE waits may be restored (R142, R404; log 21). -/
def State.jobUsed (s : State) (job : Nat) (restore : Bool) : Bool :=
  match aget s.jobs job with
  | some j => !(j.status == .ended || (restore && j.status == .saved && j.image.isNone))
  | none => false

/-- Rows of a table of a job whose record is known. -/
def State.tableAt (s : State) (job va n : Nat) : Option (List (Word × Word)) :=
  match s.virtualRead job va (16 * n) with
  | .ok bs => some (tableRows bs n)
  | .error _ => none

/-- The checks of a record that is handed over; the job, or the reason of the refusal (R433). A restored job takes a rectangle of the saved WX and WY (R404). -/
def State.checkRecord (s : State) (port : Nat) (bs : List Byte) (image : Option Nat) : Except Nat Job :=
  let r := decodeRecord bs
  let old := agetD s.jobs r.job {}
  match recordFault bs r (s.jobUsed r.job image.isSome) with
  | some e => .error e
  | none =>
    let t := { s with jobs := aset s.jobs r.job { record := r } }
    let tumb := t.tableAt r.job r.tumb r.ntumb
    let chan := t.tableAt r.job r.chan r.nchan
    let live := t.tableAt r.job r.live r.nlive
    match tableFault r tumb chan live with
    | some e => .error e
    | none =>
      match image with
      | some a =>
        let pl := Memory.word s.mem (a + 8)
        if !s.imageGood a r.job (plWX pl * plWY pl * (r.nmod + 1)) then .error 17
        else
          let base : Job := if old.status = .saved then old else
            { released := true, initNext := r.modules.map (fun m => (m, r.ninit)), status := .saved, plbase := pl
              placed := (List.range (r.nmod + 1)).map (fun k => numAt (Memory.readN s.mem (a + 32) 64) k 1) }
          .ok { base with record := { r with wx := plWX pl, wy := plWY pl }, port := port, image := some a, channels := (chan.getD []).map channelRow
                          tumblers := (tumb.getD []).map tumblerRow, regions := (live.getD []).map regionRow, sums := none, sweeps := [] }
      | none =>
        .ok { record := r, port := port, channels := (chan.getD []).map channelRow
              tumblers := (tumb.getD []).map tumblerRow, regions := (live.getD []).map regionRow }

/-! Placement (R18, R168, R169, R368, R369). -/

/-- PLBASE of an origin (Table 1-2). -/
def plbaseOf (bx by_ wx wy : Nat) : Word := wordOf (bx + by_ * 2 ^ 8 + wx * 2 ^ 16 + wy * 2 ^ 24)

/-- Quads of a rectangle on one module. -/
def rectangle (m bx by_ wx wy : Nat) : List Nat := (List.range wy).flatMap (fun y => (List.range wx).map (fun x => coreNode m (bx + x) (by_ + y) 0))

/-- The cores of a quad. -/
def coresOf (quad : Nat) : List Nat := [quad, quad + 1, quad + 2, quad + 3]

/-- A quad offers what a record needs (R169, R309, R330). -/
def State.offers (s : State) (r : JobRecord) (quad : Nat) : Bool :=
  let q := s.quad quad
  let need (k : Nat) : Bool := bitAt r.need k
  q.job.isNone && !q.fenced &&
  (!need 0 || (coresOf quad).all (fun n => !(s.core n).fenced)) &&
  (!(need 1 || r.mx) || !(s.cluster (clusterOf quad)).fenced) &&
  (!need 2 || (coresOf quad).all (fun n => !(s.core n).patch.fenced)) &&
  (!need 3 || (coresOf quad).all (fun n => !(s.core n).lattice.fenced))

/-- An origin fits a record; a module that is hot takes none (R18, R169, R474). -/
def State.fitsAt (s : State) (r : JobRecord) (bx by_ : Nat) : Bool :=
  plGood (plbaseOf bx by_ r.wx r.wy) r.mx &&
  r.modules.all (fun m => bitAt s.present.toNat m && !(s.module m).hot && (rectangle m bx by_ r.wx r.wy).all (s.offers r))

/-- The first origin that fits, in ascending BY × 80 + BX (R368). -/
def State.findOrigin (s : State) (r : JobRecord) : Option (Nat × Nat) :=
  ((List.range 4800).find? (fun k => s.fitsAt r (k % 80) (k / 80))).map (fun k => (k % 80, k / 80))

/-! Loading (R144). -/

/-- A core takes the values of job load (R144 step 3, R309, R330, R366, R374, R449, R455, R459); a custom opcode of the system context still writes its results (R316). -/
def Core.load (c : Core) (pl : Word) (r : JobRecord) (multi corrected : Nat) : Core :=
  { c with
    ctxs := c.ctxs.map (fun (x : Ctx) => { x with jobid := r.job, hasp := .none, haspCnt := 0, report := none })
    keys := Vector.replicate 64 {}
    plbase := pl
    wkdesc := r.wkd
    fpfirst := 0
    opmap := 0
    opmapAddr := r.opmap
    mxflags := 0
    q := { depth := Vector.ofFn (fun p : Fin 4 => r.qdepth.getD p.val 0) }
    sent := 0
    recv := 0
    counters := Vector.ofFn (fun n : Fin 10 => if n.val = 5 then multi else if n.val = 6 then corrected else 0)
    lastScalar := 10
    lastVector := 10
    hinge := {}
    dbg := { c.dbg with traceCtl := 0, hist := [], replayctl := c.dbg.replayctl &&& ~~~8#64, replayPos := 0, replayWait := none }
    lattice := c.lattice.cleared
    patch := { c.patch.cleared with results := c.patch.results.filter (fun (r : PatchResult) => r.use.ctx == 10) } }

/-- A core is loaded; in MODE 1 its log begins anew (R461). -/
def State.loadCore (s : State) (node : Nat) (pl : Word) (r : JobRecord) : State :=
  let s1 := s.setCore node ((s.core node).load pl r (s.cluster (clusterOf node)).multi (s.quad node).corrected)
  let cl := s1.cluster (clusterOf node)
  let z := slotOf node
  let s2 := s1.setCluster (clusterOf node) (cl.setSlot z { cl.slot z with flags := 0, format := 0x66 })
  if (s2.core node).replayMode = 1 then s2.setLogHead node 0 else s2

/-- Entries 0x00 to 0xDF of a handler table go to a quad's copy; bytes whose page does not translate are open, and a poisoned beat stays poisoned (log 22). -/
def State.loadTable (s : State) (quad : Nat) (r : JobRecord) : State :=
  (List.range 224).foldl (fun (t : State) h =>
    let dst := localPhys quad (0x28000 + 32 * h)
    match t.walkTo r.job (r.htab + 32 * h) .read with
    | .ok pa =>
      let t1 := (writeUnits t dst (Memory.readN t.mem pa 32)).1
      if anyPoison t pa 32 then [0, 8, 16, 24].foldl (fun (u : State) o => u.addPoison (dst + o)) t1 else t1
    | .error _ =>
      let ws := (List.range 4).map (fun k => Config.openWord (t.free + k))
      (writeUnits { t with free := t.free + 4 } dst (bytesOfWords ws)).1) s

/-- The quad that job-relative coordinates name under a placement. -/
def placedQuad (pl : Word) (r : JobRecord) (jx jy jm : Nat) : Nat := placedCore pl r jx jy jm 0

/-- One quad of the rectangle is loaded (R144 steps 2 and 3). -/
def State.loadQuad (s : State) (quad : Nat) (pl : Word) (r : JobRecord) : State :=
  let q := s.quad quad
  let s1 := (s.setQuad quad { q with job := some r.job, restoring := false, tumblers := [], updates := [], drains := [], fires := [], watches := [], waitingReads := [],
                                     reservations := [], waitingReservations := [], redirect := [] }).loadTable quad r
  (coresOf quad).foldl (fun (t : State) n => t.loadCore n pl r) s1

/-- Every quad of a placed job. -/
def jobQuads (pl : Word) (r : JobRecord) : List Nat := r.modules.flatMap (fun m => rectangle m (plBX pl) (plBY pl) (plWX pl) (plWY pl))

/-- The tumblers receive their values; the later entry of two stands (R143, R144 step 4). -/
def State.loadTumblers (s : State) (pl : Word) (r : JobRecord) (l : List TumblerInit) : State :=
  l.foldl (fun (t : State) e =>
    let n := placedQuad pl r e.jx e.jy e.jm
    let q := t.quad n
    t.setQuad n { q with tumblers := aset q.tumblers e.index e.value }) s

/-- Changes a job that is known. -/
def State.onJob (s : State) (j : Nat) (f : Job → Job) : State :=
  match aget s.jobs j with
  | some x => { s with jobs := aset s.jobs j (f x) }
  | none => s

/-- The event is no sweep of the job. -/
def noSweep (j : Nat) : Event → Bool
  | .endOfJobSweep _ k => k != j
  | _ => true

/-- The sweeps of a job begin on each of its modules (R381). -/
def State.startSweeps (s : State) (j : Nat) : State :=
  let s := { s with later := s.later.filter (fun (e : Nat × Event) => noSweep j e.2) }
  (s.job j).record.modules.foldl (fun (t : State) m => t.after 65536 (.endOfJobSweep m j)) s

/-- The initial messages of a job may go (R144, R370). -/
def State.release (s : State) (j : Nat) : State :=
  ((s.onJob j (fun x => { x with released := true })).dueAll ((s.job j).record.modules.map (fun m => .initialMessageRelease m j)))

/-- The condition on a producer that a dependant waits for (R144). -/
def State.producerReady (s : State) (r : JobRecord) : Bool :=
  r.prod == 0 ||
  (match aget s.jobs r.prod with
  | some p => p.status == .ended || decide (r.trign ≤ p.trigger)
  | none => false)

/-- Dependants of a job that may be released are released (R139, R172). -/
def State.releaseDependants (s : State) (prod : Nat) : State :=
  s.jobs.foldl (fun (t : State) (e : Nat × Job) =>
    if e.2.record.prod = prod ∧ prod ≠ 0 ∧ e.2.status = .resident ∧ !e.2.released ∧ t.producerReady e.2.record then t.release e.1 else t) s

/-- A job is loaded on its rectangle, and its LAUNCH completes (R144, R432). -/
def State.loadJob (s : State) (j : Nat) (pl : Word) : State :=
  let x := s.job j
  let r := x.record
  let s1 := s.onJob j (fun x => { x with status := .resident, plbase := pl, placed := r.modules })
  let s2 := (jobQuads pl r).foldl (fun (t : State) q => t.loadQuad q pl r) s1
  let s3 := ((s2.loadTumblers pl r x.tumblers).startSweeps j).complete x.port 0x01 j 0 0 0
  if s3.producerReady r then s3.release j else s3

/-! Freeing quads. -/

/-- The quads at which a job is resident. -/
def State.quadsOf (s : State) (j : Nat) : List Nat := (s.quads.filter (fun (e : Nat × Quad) => e.2.job == some j)).map (·.1)

/-- Entries that a core's lists hold in the queue region (R66). -/
def Core.listedCount (c : Core) : Nat :=
  (c.q.spill.toList.map (fun l => regionEntries l.length)).sum + regionEntries c.q.overflow.length + regionEntries c.hinge.recorded.length

/-- A core's lists are emptied. -/
def State.emptyCore (s : State) (node : Nat) : State :=
  let c := s.core node
  let d := s.die (dieNode node)
  (s.setCore node { c with q := { depth := c.q.depth }, hinge := {} }).setDie (dieNode node) { d with listed := d.listed - c.listedCount }

/-- Every record that waits for a place is examined again (R368). -/
def State.wakePlacers (s : State) : State := s.dueAll ((s.modules.filter (fun (e : Nat × Module) => !e.2.waiting.isEmpty)).map (fun e => .placement e.1))

/-- A job's quads are freed, and waiting records are examined again (R169, R368). -/
def State.freeQuads (s : State) (j : Nat) : State :=
  let qs := s.quadsOf j
  let s1 := qs.foldl (fun (t : State) q =>
    let u := (coresOf q).foldl (fun (v : State) n => v.emptyCore n) t
    u.setQuad q { u.quad q with job := none, restoring := false, redirect := [], updates := [], drains := [], fires := [], watches := [], waitingReads := [], reservations := [], waitingReservations := [] }) s
  s1.wakePlacers

/-! The end of a job (R171, R172). -/

/-- HIST records of a core, one for each handler index with a non-zero bucket, and the buckets cleared (R455). -/
def State.flushHistogram (s : State) (node : Nat) : State :=
  let h := (s.core node).dbg.hist
  let s1 := (List.range 256).foldl (fun (t : State) i =>
    let l := (List.range 16).map (fun b => agetD h (16 * i + b) 0)
    if l.all (fun n => n == 0) then t
    else t.emitTrace node 15 9 i 0 0 ((List.range 4).map (fun k => wordOf (((List.range 4).map (fun m => l.getD (4 * k + m) 0 % 65536 * 2 ^ (16 * m))).sum)))) s
  let c := s1.core node
  s1.setCore node { c with dbg := { c.dbg with hist := [] } }

/-- A core in replay whose log holds unconsumed entries diverges at the end (R463). -/
def State.endReplay (s : State) (node : Nat) : State :=
  if (s.core node).replayMode = 2 ∧ s.expectedEntry node < s.logCount node then s.diverge node true else s

/-- Entries that wait unmatched are reported with their iterations (R172 step 1). -/
def State.reportUnmatched (s : State) (port j node : Nat) : State :=
  let q := (s.core node).q
  ((q.store ++ q.overflow).filter (fun e => !e.marker)).foldl (fun (t : State) e => t.complete port 0x83 j 0 0 (wordOf e.run)) s

/-- The absent queues of a job are gone. -/
def State.dropAbsent (s : State) (j : Nat) : State :=
  s.dies.foldl (fun (t : State) (e : Nat × Die) =>
    match aget e.2.absent j with
    | some a => t.setDie e.1 { e.2.relist a.entries.length 0 with absent := adel e.2.absent j }
    | none => t) s

/-- Task queues of a job are freed as DESTROY frees them (R406). -/
def State.dropTasks (s : State) (j : Nat) : State :=
  s.dies.foldl (fun (t : State) (e : Nat × Die) =>
    e.2.tasks.foldl (fun (u : State) (x : Nat × TaskQueue) =>
      if x.2.job = j then
        let d := u.die e.1
        let u1 := u.setDie e.1 { d with tasks := adel d.tasks x.1, reserved := d.reserved - x.2.cap }
        x.2.held.foldl (fun (v : State) h => v.answer h 1) u1
      else u) t) s

/-- What every end of a job does: dependants are released, segments closed, and its records forgotten (R172, R445). -/
def State.retireJob (s : State) (j : Nat) : State :=
  let s1 := s.onJob j (fun x => { x with status := .ended, snapshot := none, frozen := false, sums := none, savedSums := none, sweeps := [] })
  let s2 := s1.closeJob j
  let others := s2.modules.flatMap (fun (e : Nat × Module) => e.2.colWaiting.filter (fun m => jobOf m != j))
  let s3 := { s2 with modules := s2.modules.map (fun (e : Nat × Module) => (e.1, { e.2 with
    collectives := e.2.collectives.filter (fun m => jobOf m != j), colWaiting := [] })) }
  (((s3.dropAbsent j).releaseDependants j).freeQuads j).dueFirst (others.map .collectivePerform)

/-- The sweeps have agreed: the job ends (R172). -/
def State.endJob (s : State) (j : Nat) : State :=
  let x := s.job j
  let cores := (s.quadsOf j).flatMap coresOf
  let s1 := cores.foldl (fun (t : State) n => t.reportUnmatched x.port j n) s
  let s2 := cores.foldl (fun (t : State) n => (t.endReplay n).flushHistogram n) s1
  (s2.retireJob j).complete x.port 0x81 j 0 0 0

/-! A job that is ended from outside (R427, R432, R474). -/

/-- Some context of the job is Live, Parked or Draining at a core (R169, R171). -/
def Core.busy (c : Core) : Bool := (List.range 10).any (fun k => (c.ctx k).status != .free)

/-- Its contexts are discarded and its lists emptied, and nothing more is dispatched; the quads are freed once no context drains, when its histograms are emitted (R169, R432, R455). A RESTORE that is under way completes with an open status (R432; log 23). -/
def State.stopJob (s : State) (j : Nat) : State × Bool :=
  let cores := (s.quadsOf j).flatMap coresOf
  let x := s.job j
  let s0 := if x.status = .restoring then (s.complete x.port 0x04 j (Config.openWord s.free).toNat 0 0).useOpen else s
  let s1 := s0.onJob j (fun x => { x with status := .ending, frozen := true, snapshot := none })
  let s2 := cores.foldl (fun (t : State) n =>
    ((List.range 10).foldl (fun (u : State) k =>
      if (u.ctx n k).status = .live ∨ (u.ctx n k).status = .parked then u.killCtx n k else u) t).emptyCore n) s1
  if cores.any (fun n => (s2.core n).busy) then (s2, false)
  else (((cores.foldl (fun (t : State) n => t.flushHistogram n) s2).dropTasks j).retireJob j, true)

/-! Host commands (R432, R468, R474). -/

/-- Byte 0, the job field and the operand words of a command. -/
def cmdOp (cmd : List Word) : Nat := fieldOf (cmd.headD 0) 7 0
def cmdTarget (cmd : List Word) : Nat := fieldOf (cmd.getD 1 0) 11 0
def cmdA (cmd : List Word) : Word := cmd.getD 2 0
def cmdB (cmd : List Word) : Word := cmd.getD 3 0

/-- The firmware performs a command; before it runs, the boot ROM answers 0xFF (R468). -/
def State.command (s : State) (module : Nat) (cmd : List Word) (f : State → State) : Out :=
  if (s.module module).running then .next (f s) else .next (s.complete module (cmdOp cmd) (cmdTarget cmd) 0xFF 0 0)

/-- The command goes to a module that takes no LAUNCH and no RESTORE while it is hot (R474). -/
def isLoad : Event → Bool
  | .launch _ _ => true
  | .restore _ _ => true
  | _ => false

/-- The command must end before the next begins. -/
def isKill : Event → Bool
  | .kill _ _ => true
  | _ => false

/-- The commands that may begin now: those ahead of a LAUNCH or RESTORE of a hot module, up to the first KILL. -/
def readyCommands (hot : Bool) : List Event → List Event × List Event × Bool
  | [] => ([], [], false)
  | e :: r =>
    if hot && isLoad e then ([], e :: r, false)
    else if isKill e then ([e], r, true)
    else
      let (a, b, k) := readyCommands hot r
      (e :: a, b, k)

/-- The management core goes on with its commands, in ring order (R432). -/
def State.nextCommands (s : State) (n : Nat) : State :=
  let x := s.module n
  if x.killing then s
  else
    let (now, rest, k) := readyCommands x.hot x.commands
    (s.setModule n { x with commands := rest, killing := k }).dueAll now

/-! Steps. -/

/-- A record that fits is loaded, or restored by the function for its image. -/
def State.placeJob (s : State) (restore : State → Nat → Word → State) (j bx by_ : Nat) : State :=
  let r := (s.job j).record
  let pl := plbaseOf bx by_ r.wx r.wy
  match (s.job j).image with
  | some _ => restore s j pl
  | none => s.loadJob j pl

/-- The placer goes through the waiting records: what is placed overtakes those before it, and behind a record that was overtaken 16 times nothing is placed (R368, R369).
`kept` holds the records passed so far. -/
def State.placeAll (restore : State → Nat → Word → State) : List (Nat × Nat) → List (Nat × Nat) → State → List (Nat × Nat) × State
  | [], kept, s => (kept, s)
  | (j, n) :: r, kept, s =>
    if kept.any (fun e => decide (16 ≤ e.2)) then (kept ++ (j, n) :: r, s)
    else
      match s.findOrigin (s.job j).record with
      | some (bx, by_) => State.placeAll restore r (kept.map (fun (e : Nat × Nat) => (e.1, e.2 + 1))) (s.placeJob restore j bx by_)
      | none => State.placeAll restore r (kept ++ [(j, n)]) s

/-- A record joins the placer's list (R368). -/
def State.handOverRecord (s : State) (module : Nat) (x : Job) : State :=
  let m := s.module module
  ({ s with jobs := aset s.jobs x.record.job x }.setModule module { m with waiting := m.waiting ++ [(x.record.job, 0)] }).due (.placement module)

/-! Initial messages (R144, R370). -/

/-- A slot in the layout of R66 as a message. -/
def slotMessage (bs : List Byte) : Packet :=
  let w0 := wordAt bs 0
  { w0 := w0, w1 := wordAt bs 8, payload := wordsOf (bs.drop 32) (4 * fieldOf w0 18 15), poison := List.replicate (fieldOf w0 18 15) false }

/-- A slot holds a well-formed handler message (R149, R434). -/
def slotGood (wkd : Word) (m : Packet) : Bool :=
  kindOf m == 0 && !boltOf m && !flagOf m.w0 41 && fieldOf m.w0 18 15 ≤ 8 && !malformedHeader wkd 8 0 (fieldOf m.w0 18 15) (vecOf m) (runOf m) m.w1

/-- A slot's message relocated for a job, with its job field filled (R19, R144); none where it names no destination. -/
def State.relocateSlot (s : State) (x : Job) (m : Packet) (src : Nat) : Option Packet :=
  let n := fieldOf m.w0 63 42
  let dest : Option Nat :=
    if nodeIsEnd n then (relocModule x.record (nodeModule n)).map (fun md => endNode md (nodeDie n) (nodeClass n) (nodeIndex n))
    else (relocCore x.plbase x.record (nodeX n) (nodeY n) (nodeModule n)).map (fun e => coreNode e.2.2 e.1 e.2.1 (nodeCore n))
  match dest with
  | some d =>
    if goodNode s.present d then
      some { m with w0 := putField (putField m.w0 63 42 d) 30 19 x.record.job, src := src, aclass := if nodeModule d = nodeModule src then 1 else 2 }
    else none
  | none => none

/-- A message that a host port or management core sends for a job is counted (R170, R434). -/
def State.hostSend (s : State) (j : Nat) (m : Packet) : State :=
  (s.onJob j (fun x => { x with hostSent := x.hostSent + bitNat (decide (hidxOf m < 0xE0)) })).send m

/-- Poison of the payload beats of a slot at a virtual address. -/
def State.slotPoison (s : State) (j va beats : Nat) : List Bool :=
  (List.range beats).map (fun b =>
    match s.walkTo j (va + 32 + 32 * b) .read with
    | .ok pa => anyPoison s pa 32
    | .error _ => false)

/-- INITIAL_MESSAGE_RELEASE (R370): a module looks at the next message of the list and sends it if it is of its share; one that cannot be read or formed is dropped (log 22). -/
def execInitialMessageRelease (module job : Nat) (s : State) : Out :=
  let x := s.job job
  let i := agetD x.initNext module 0
  if x.record.ninit ≤ i ∨ !x.released ∨ x.status = .ended ∨ x.status = .ending then .next s
  else
    let s1 := s.onJob job (fun x => { x with initNext := aset x.initNext module (i + 1) })
    let va := x.record.init + 288 * i
    match s.virtualRead job va 288 with
    | .error _ => .next (s1.due (.initialMessageRelease module job))
    | .ok bs =>
      let m := slotMessage bs
      if (relocModule x.record (nodeModule (destOf m))).getD ((x.record.modmap).getD 0 0) ≠ module ∨ !slotGood x.record.wkd m then
        .next (s1.due (.initialMessageRelease module job))
      else
        match s.relocateSlot x { m with poison := s.slotPoison job va (fieldOf m.w0 18 15) } (endNode module 0 5 0) with
        | some p => .next ((s1.hostSend job p).after 1 (.initialMessageRelease module job))
        | none => .next (s1.due (.initialMessageRelease module job))

/-- TRIGGER_COUNT (R139). -/
def execTriggerCount (m : Packet) (s : State) : Out :=
  let j := jobOf m
  let s1 := s.onJob j (fun x => { x with trigger := x.trigger + 1 })
  .next ((s1.releaseDependants j).answer m 0)

end Sys2Proof.Machine
end

