-- ==== Sys2Proof/Machine/Snapshot.lean ====
section
/-! DEFINITION. Pre-emption, the snapshot image, restore, the absent queues at restore, and the sweeps (R172, R381, R395 to R406, R455, R466). -/

namespace Sys2Proof.Machine

/-! Physical copies with their poison. -/

/-- Bytes written at a physical address. -/
def State.put (s : State) (pa : Nat) (bs : List Byte) : State := (writeUnits s pa bs).1

/-- Beats copied from one physical address to another; a poisoned beat stays poisoned (R402). -/
def State.copyBeats (s : State) (src dst n : Nat) : State :=
  (List.range (n / 32)).foldl (fun (t : State) k =>
    let a := src + 32 * k
    let b := dst + 32 * k
    let u := t.put b (Memory.readN t.mem a 32)
    if anyPoison t a 32 then [0, 8, 16, 24].foldl (fun (v : State) o => v.addPoison (b + o)) u else u) s

/-! Message slots (R402). -/

/-- A message as a slot keeps it, with where it stood. -/
structure Saved where
  msg : Packet
  kind : Nat
  input : Nat := 0
  inputs : Nat := 1
  head : Nat := 0
  channel : Nat := 0
  task : Bool := false
  /-- The arrival stamp of an entry that waits for a match, or for its handler entry to be read again. -/
  stamp : Option Nat
deriving DecidableEq, Repr

/-- Header word 0 with the destination core in job-relative form. -/
def relativeHeader (pl : Word) (r : JobRecord) (w : Word) : Word :=
  match relativeOf pl r (fieldOf w 63 42) with
  | some (x, y, jm) => putField w 63 42 (coreNode jm x y (nodeCore (fieldOf w 63 42)))
  | none => w

/-- Header word 0 with a job-relative destination in absolute form (R404); an endpoint is relocated in its module only. -/
def absoluteHeader (pl : Word) (r : JobRecord) (w : Word) : Word :=
  let n := fieldOf w 63 42
  let md := r.modmap.getD (nodeModule n) 0
  putField w 63 42 (if nodeIsEnd n then endNode md (nodeDie n) (nodeClass n) (nodeIndex n)
    else coreNode md ((plBX pl + nodeX n) % 128) ((plBY pl + nodeY n) % 64) (nodeCore n))

/-- The 288 bytes of a slot. -/
def slotBytes (pl : Word) (r : JobRecord) (order : Nat) (e : Saved) : List Byte :=
  let n := fieldOf e.msg.w0 18 15
  bytesOfWord (relativeHeader pl r e.msg.w0) ++ bytesOfWord e.msg.w1 ++
  bytesOfNat 8 (e.kind + e.input % 4 * 2 ^ 3 + (e.inputs - 1) % 4 * 2 ^ 5 + e.head % 256 * 2 ^ 7 + e.channel % 128 * 2 ^ 15 + bitNat e.task * 2 ^ 22) ++
  bytesOfNat 8 order ++ fit 256 0 ((bytesOf e.msg).take (32 * n))

/-- The channel index of a message in a slot (R402). -/
def State.slotChannel (s : State) (m : Packet) : Nat := (s.channelOf m).getD 0x7F

/-- The slots of a queue entry: one for each input (R402). -/
def State.entrySlots (s : State) (kind : Nat) (e : QEntry) : List Saved :=
  (List.range e.inputs.length).map (fun i =>
    let m := e.inputs.getD i Packet.none
    ⟨m, kind, i, e.inputs.length, e.head, s.slotChannel m, e.task, if e.unrouted then some e.stamp else none⟩)

def State.waitingSlot (s : State) (kind : Nat) (e : Waiting) : Saved := ⟨e.msg, kind, e.input, 1, e.head, s.slotChannel e.msg, false, some e.stamp⟩

/-- The slot of a recorded arrival: its head is that of the join that its handler index names (R153). -/
def State.recordedSlot (s : State) (node : Nat) (a : Recorded) : Saved :=
  ⟨a.msg, 4, 0, 1, ((s.joins node (hidxOf a.msg)).map (fun (e : Nat × HandlerEntry × Nat) => e.1)).getD (hidxOf a.msg), a.channel, false, none⟩

/-- The spill list of a priority with a head that is in flight to its queue, and the entries that wait to join it (R359). -/
def CoreQueues.spilled (q : CoreQueues) (p : Nat) : List QEntry := (q.refillAt p).toList ++ q.spillAt p ++ q.moved.filter (fun e => e.pri == p)

/-- Every slot of a core, in the order of its record. -/
def State.slots (s : State) (node : Nat) : List Saved :=
  let c := s.core node
  (List.range 4).flatMap (fun p => (c.q.queueAt p).flatMap (s.entrySlots 0)) ++
  (List.range 4).flatMap (fun p => (c.q.spilled p).flatMap (s.entrySlots 1)) ++
  (sortWaiting c.q.store).map (s.waitingSlot 2) ++ c.q.overflow.map (s.waitingSlot 3) ++
  c.hinge.recorded.map (s.recordedSlot node)

/-- The order number of a stamp among a core's slots: it starts at 0, and a slot whose entry no longer needs its stamp holds 0 (R402, R425; log 99). -/
def orderOf (l : List Saved) : Option Nat → Nat
  | some k => ((l.filterMap (fun e => e.stamp)).eraseDups.filter (fun n => decide (n < k))).length
  | none => 0

/-! The core record (Table 17-5). -/

/-- The key mask and KEYOWN words of a core. -/
def Core.allocated (c : Core) : Word := wordOf (maskOf ((List.range 64).filter (fun k => (c.key k).alloc != .free)))

/-- The bytes of a core record before its patch save area. -/
def Core.recordHead (c : Core) (format : Word) : List Byte :=
  let counts := (List.range 4).map (fun p => (c.q.queueAt p).length) ++ (List.range 4).map (fun p => (c.q.spilled p).length) ++
    [c.q.store.length, c.q.overflow.length, c.hinge.recorded.length]
  fit 64 0 (counts.flatMap (bytesOfNat 4)) ++
  fit 192 0 ((bytesOfNat 8 c.q.age ++ bytesOfNat 8 c.sent ++ bytesOfNat 8 c.recv ++ bytesOfWord c.keyring ++ bytesOfWord c.allocated ++
    bytesOfWord (c.keyown 0) ++ bytesOfWord (c.keyown 1) ++ bytesOfWord (c.keyown 2) ++ bytesOfWord (c.keyown 3) ++ bytesOfWord c.fpfirst ++ bytesOfWord format))

/-- The bytes of a core record; ID and INIT of its lattice image are zero (R402, R425). -/
def State.coreRecord (s : State) (node : Nat) (r : JobRecord) : List Byte :=
  let c := s.core node
  let l := s.slots node
  c.recordHead ((s.cluster (clusterOf node)).slot (slotOf node)).format ++ c.patchArea ++ c.lattice.image 0 ++
  l.flatMap (fun e => slotBytes c.plbase r (orderOf l e.stamp) e)

/-- The beats of a written core record that carry poison. -/
def State.poisonSlots (s : State) (pa : Nat) (l : List Saved) : State :=
  (List.range l.length).foldl (fun (t : State) i =>
    match l[i]? with
    | some e => ((List.range (fieldOf e.msg.w0 18 15)).filter (fun b => e.msg.poison.getD b false)).foldl (fun (u : State) b =>
        u.addPoison (pa + 0x6B40 + 288 * i + 32 + 32 * b)) t
    | none => t) s

/-! The quad record. -/

/-- The regions of a job that lie in a quad, in table order (R401, R402). -/
def Job.regionsOf (x : Job) (jx jy jm : Nat) : List Region :=
  x.regions.filter (fun g => g.all || (g.qx == jx && g.qy == jy && g.qm == jm))

/-- Local address of a region. -/
def Region.la (g : Region) : Nat := g.sel * 0x100000 + g.off

/-- The quad record but for its live regions. -/
def State.quadHead (s : State) (quad jx jy jm : Nat) (cores : List Nat) : List Byte :=
  let q := s.quad quad
  fit 256 0 (bytesOfNat 8 (jx % 128 + jy % 64 * 2 ^ 7 + jm % 64 * 2 ^ 13) ++ cores.flatMap (bytesOfNat 8)) ++
  (List.range 512).flatMap (fun t =>
    let x := agetD q.tumblers t {}
    bytesOfNat 8 (x.count % 2 ^ 24 + x.target % 2 ^ 24 * 2 ^ 24 + bitNat x.arm * 2 ^ 48 + bitNat x.ovs * 2 ^ 49) ++
    Memory.readN s.mem (localPhys quad (0x24000 + 32 * t)) 32)

/-- The live regions are copied behind one another. -/
def State.copyRegions (s : State) (quad pa : Nat) (toImage : Bool) : List Region → State
  | [] => s
  | g :: r =>
    let a := localPhys quad g.la
    State.copyRegions (if toImage then s.copyBeats a pa g.len else s.copyBeats pa a g.len) quad (pa + g.len) toImage r

/-! Failure (R400). -/

/-- The job resumes in place: every mark is cleared and recorded arrivals are performed before later ones. -/
def State.resumeInPlace (s : State) (j : Nat) : State :=
  let x := s.job j
  let cores := (s.quadsOf j).flatMap coresOf
  let s1 := cores.foldl (fun (t : State) n =>
    let c := t.core n
    let l := c.hinge.recorded.map (fun (a : Recorded) => { a.msg with tag := 0, counted := true })
    ((t.setCore n { c with hinge := {} }).holdFirst l).setDie (dieNode n) ((t.die (dieNode n)).relist l.length 0)) s
  let first := placedCore x.plbase x.record 0 0 0 0
  (((s1.onJob j (fun x => { x with snapshot := none, savedSums := none })).notice first 0x7A 15 0 0).complete x.port 0x82 j 1 0 (Config.openWord s1.free)).useOpen

/-! Arming (R395, R396). -/

/-- Every core of the job is armed; a core without an incoming channel lands at once. -/
def State.armJob (s : State) (j base size : Nat) : State :=
  let x := s.job j
  let cores := (s.quadsOf j).flatMap coresOf
  let first := 0x100 + 8 * (x.record.wx * x.record.wy * (x.record.nmod + 1))
  let s1 := s.onJob j (fun x => { x with savedSums := none, snapshot := some { base := base, size := size, next := (first + 31) / 32 * 32 } })
  let s2 := cores.foldl (fun (t : State) n => let c := t.core n; t.setCore n { c with hinge := { c.hinge with arm := true, src := true } }) s1
  cores.foldl (fun (t : State) n => t.landIfClosed n) s2

/-- PREEMPT (R395); a job that is not resident, or is armed already, gives an open status and nothing else (log 23). -/
def execPreempt (module : Nat) (cmd : List Word) (s : State) : Out :=
  s.command module cmd (fun s =>
    let j := cmdTarget cmd
    let x := s.job j
    if (aget s.jobs j).isSome ∧ x.status = .resident ∧ x.snapshot.isNone then
      (s.armJob j (cmdA cmd).toNat (cmdB cmd).toNat).complete module 0x02 j 0 0 0
    else (s.complete module 0x02 j (Config.openWord s.free).toNat 0 0).useOpen)

/-- CANCEL (R400). -/
def execCancel (module : Nat) (cmd : List Word) (s : State) : Out :=
  s.command module cmd (fun s =>
    let j := cmdTarget cmd
    if ((s.job j).snapshot).isNone then s.complete module 0x03 j 1 0 0
    else (s.resumeInPlace j).complete module 0x03 j 0 0 0)

/-! Saving (R397). -/

/-- A fire of a tumbler of the quad is pending, or an operation on one (R397). -/
def State.firePending (s : State) (quad : Nat) : Bool :=
  let p : Event → Bool := fun e => match e with
    | .tumblerFire q _ => quadOf q == quad
    | _ => false
  s.agenda.any p || !(s.quad quad).fires.isEmpty || !(s.quad quad).drains.isEmpty || !(s.quad quad).updates.isEmpty

/-- A landed core may save once every effect that has left it is acknowledged: for a command that is its acceptance (R111, R397). What its quad's tumblers still send goes first. -/
def State.maySave (s : State) (node : Nat) : Bool :=
  let c := s.core node
  c.hinge.landed && !c.hinge.saved && !c.busy && c.departure.isEmpty && c.pending.all (fun p => p.acked) &&
  (List.range 64).all (fun k => (c.key k).flight == 0) && !s.firePending (quadOf node)

/-- The poisoned words of the quad's action records go into its record with their poison code, beat by beat (R48, R402; log 103). -/
def State.poisonActions (s : State) (quad record : Nat) : State :=
  (List.range 2048).foldl (fun (t : State) k =>
    if isPoisoned s (localPhys quad (0x24000 + 8 * k)) then t.addPoison (record + 0x100 + 40 * (k / 4) + 8 + 8 * (k % 4)) else t) s

/-- The quad's record is written when the last of its cores has saved; none where it would pass the end of the area. -/
def State.saveQuad (s : State) (j quad : Nat) : Option State :=
  let x := s.job j
  match x.snapshot with
  | none => some s
  | some p =>
    if !(coresOf quad).all (fun n => (s.core n).hinge.saved) then some s
    else
      match relativeOf x.plbase x.record quad with
      | none => some s
      | some (jx, jy, jm) =>
        let l := x.regionsOf jx jy jm
        let off := (p.next + 4095) / 4096 * 4096
        let stop := off + 0x5100 + (l.map (fun g => g.len)).sum
        if p.size < stop then none
        else
          let head := s.quadHead quad jx jy jm ((coresOf quad).map (fun n => agetD p.cores n 0))
          let s1 := (s.put (p.base + p.next) (List.replicate (off - p.next) 0 ++ head)).poisonActions quad (p.base + off)
          some ((s1.copyRegions quad (p.base + off + 0x5100) true l).onJob j (fun x =>
            { x with snapshot := some { p with next := stop, quads := aset p.quads quad off } }))

/-- CORE_SAVE (R397): the record is written, SAVED is set, the lattice's clocks stop, bolts go on the channels that carried none; the image that would pass the area fails the pre-emption (R338, R400; log 100). -/
def execCoreSave (node : Nat) (s : State) : Out :=
  match (s.quad node).job with
  | none => .next s
  | some j =>
    let x := s.job j
    match x.snapshot with
    | none => .next s
    | some p =>
      if !s.maySave node then .next s
      else
        let bs := s.coreRecord node x.record
        if p.size < p.next + bs.length then .next (s.resumeInPlace j)
        else
          let s1 := (s.put (p.base + p.next) bs).poisonSlots (p.base + p.next) (s.slots node)
          let s2 := s1.onJob j (fun x => { x with snapshot := some { p with next := p.next + bs.length, cores := aset p.cores node p.next } })
          let c := s2.core node
          let s3 := (s2.setCore node { c with
            hinge := { c.hinge with saved := true }
            lattice := { c.lattice with clocks := c.lattice.clocks.map (fun (k : LatClock) => { k with run := false }) } }).sendBolts node 10
          let s4 := (if (s3.core node).replayMode = 1 ∨ (s3.core node).replayMode = 2 then s3.leaveReplay node 2 else s3).flushHistogram node
          .next ((s4.saveQuad j (quadOf node)).getD (s4.resumeInPlace j))

/-! Completion (R399). -/

/-- The header and the quad directory of an image, with zeros up to the first record. -/
def Job.imageHead (x : Job) (p : Snapshot) : List Byte :=
  let r := x.record
  let head := bytesOfNat 8 (r.job % 4096 + 2 ^ 12 + bitNat (decide (0 < p.violations)) * 2 ^ 13) ++ bytesOfWord x.plbase ++
    bytesOfNat 8 p.violations ++ bytesOfNat 8 p.next ++ fit 64 0 (r.modmap.map (fun m => .ofNat 8 m))
  let dir := r.modules.flatMap (fun m => (rectangle m (plBX x.plbase) (plBY x.plbase) r.wx r.wy).flatMap (fun q => bytesOfNat 8 (agetD p.quads q 0)))
  fit ((0x100 + dir.length + 31) / 32 * 32) 0 (fit 256 0 head ++ dir)

/-- The record of a core that recorded arrivals after its save is written again behind the others, with those arrivals, and zeros take its old place (R402); none where it would pass the end of the area (R398, R400). -/
def State.renewRecord (s : State) (j node : Nat) : Option State :=
  let x := s.job j
  let c := s.core node
  match x.snapshot with
  | none => some s
  | some p =>
    let old := p.base + agetD p.cores node 0
    let before := numAt (Memory.readN s.mem (old + 40) 4) 0 4
    if before = c.hinge.recorded.length then some s
    else
      let l := s.slots node
      let stale := 0x6B40 + 288 * (l.length - (c.hinge.recorded.length - before))
      let size := 0x6B40 + 288 * l.length
      let pa := p.base + p.next
      if p.size < p.next + size then none
      else
        let format := wordAt (Memory.readN s.mem (old + 0x90) 8) 0
        let bs := c.recordHead format ++ Memory.readN s.mem (old + 0x100) 0x6A40 ++ l.flatMap (fun e => slotBytes c.plbase x.record (orderOf l e.stamp) e)
        let quad := quadOf node
        let dir := p.base + agetD p.quads quad 0 + 8 + 8 * (node - quad)
        let s1 := (((s.put old (List.replicate stale 0)).put pa bs).poisonSlots pa l).put dir (bytesOfNat 8 p.next)
        some (s1.onJob j (fun x => { x with snapshot := some { p with next := p.next + size, cores := aset p.cores node p.next } }))

/-- The records of every core of a job are made whole. -/
def State.renewRecords (s : State) (j : Nat) : Option State :=
  ((s.quadsOf j).flatMap coresOf).foldlM (fun t n => t.renewRecord j n) s

/-- The image is completed, the quads are freed and the host is told; an image that would pass the area fails (R399, R400). -/
def State.completeSnapshot (s : State) (j : Nat) : State :=
  match s.renewRecords j with
  | none => s.resumeInPlace j
  | some s0 =>
    let x := s0.job j
    match x.snapshot with
    | none => s
    | some p =>
      let s1 := s0.put p.base (x.imageHead p)
      let s2 := s1.onJob j (fun x => { x with status := .saved, snapshot := none, sums := none, savedSums := none, sweeps := [] })
      (s2.freeQuads j).complete x.port 0x82 j 0 0 (wordOf p.next)

/-! Sweeps (R171, R172, R381). -/

/-- A core is idle for its job (R171). -/
def State.coreIdle (s : State) (node : Nat) : Bool :=
  let c := s.core node
  !c.busy && (List.range 4).all (fun p => (c.q.queueAt p).isEmpty && (c.q.spilled p).isEmpty) && c.q.moved.isEmpty && c.departure.isEmpty &&
  (List.range 64).all (fun k => (c.key k).alloc == .free) && !s.firePending (quadOf node)

/-- Task entries that the queues of a job hold (R399, R406). -/
def State.taskEntries (s : State) (j : Nat) : Nat :=
  (s.dies.map (fun (e : Nat × Die) =>
    (e.2.tasks.map (fun (t : Nat × TaskQueue) => if t.2.job = j then (t.2.entries.filter (fun x => x.2)).length else 0)).sum)).sum

/-- What the absent queues of a job have received, on the modules of a list or on all others: a job that has moved leaves its counts behind (R170, R405). -/
def State.absentReceived (s : State) (j : Nat) (inside : Nat → Bool) : Nat :=
  (s.dies.map (fun (e : Nat × Die) => if inside (nodeModule e.1) then (agetD e.2.absent j {}).recv else 0)).sum

/-- The sweep of one module (R172). -/
def State.sweepModule (s : State) (j m : Nat) : Sweep :=
  let cores := ((s.quadsOf j).filter (fun q => nodeModule q == m)).flatMap coresOf
  { sent := (cores.map (fun n => (s.core n).sent)).sum
    recv := (cores.map (fun n => (s.core n).recv)).sum + s.absentReceived j (fun k => k == m)
    idle := cores.all s.coreIdle }

/-- The initial messages of a job have all gone (R144). -/
def Job.launched (x : Job) : Bool := x.released && x.record.modules.all (fun m => decide (x.record.ninit ≤ agetD x.initNext m 0))

/-- The sweeps of every module are combined (R172, R381, R399). Two equal rounds that find every core of an armed job saved complete its snapshot; two that find every core idle end the job, armed or not, unless it is frozen (R465). -/
def State.combine (s : State) (j : Nat) : State :=
  let x := s.job j
  let ms := x.record.modules
  let sent := (x.sweeps.map (fun (e : Nat × Sweep) => e.2.sent)).sum + x.hostSent
  let recv := (x.sweeps.map (fun (e : Nat × Sweep) => e.2.recv)).sum + x.hostRecv + s.absentReceived j (fun k => !ms.contains k)
  let held := recv + s.taskEntries j
  let saved := x.snapshot.isSome && ((s.quadsOf j).flatMap coresOf).all (fun n => (s.core n).hinge.saved) && sent == held
  let idle := x.sweeps.all (fun (e : Nat × Sweep) => e.2.idle) && sent == recv && x.launched && !x.frozen
  if saved ∧ x.savedSums = some (sent, held) then s.completeSnapshot j
  else if idle ∧ x.sums = some (sent, recv) then s.endJob j
  else s.onJob j (fun x => { x with
    sweeps := [], sums := if idle then some (sent, recv) else none, savedSums := if saved then some (sent, held) else none })

/-- END_OF_JOB_SWEEP (R172, R381). -/
def execEndOfJobSweep (module job : Nat) (s : State) : Out :=
  let x := s.job job
  if x.status ≠ .resident then .next s
  else
    let s1 := (s.onJob job (fun x => { x with sweeps := aset x.sweeps module (s.sweepModule job module) })).after 65536 (.endOfJobSweep module job)
    .next (if x.record.modules.all (fun m => (aget (s1.job job).sweeps m).isSome) then s1.combine job else s1)

/-! Restore (R403, R404). -/

/-- A slot of an image, in absolute form; its source is that of its channel, or the host port of its job (log 24). -/
def State.readSlot (s : State) (pa : Nat) (pl : Word) (x : Job) : Saved :=
  let r := x.record
  let bs := Memory.readN s.mem pa 288
  let m := slotMessage bs
  let w := wordAt bs 16
  let n := fieldOf m.w0 18 15
  { msg := { m with w0 := absoluteHeader pl r m.w0, poison := (List.range n).map (fun b => anyPoison s (pa + 32 + 32 * b) 32), counted := true,
                     src := ((x.channels[fieldOf w 21 15]?).map (fun (c : Channel) => c.source pl r)).getD (endNode x.port 0 3 0) }
    kind := fieldOf w 2 0, input := fieldOf w 4 3, inputs := fieldOf w 6 5 + 1, head := fieldOf w 14 7, channel := fieldOf w 21 15
    task := flagOf w 22, stamp := some (wordAt bs 24).toNat }

/-- n queue entries from the head of a list of slots; a lone part of a join runs its orphan entry (R160; log 24). -/
def takeEntries (wkd : Word) (arity : Nat → Nat) : Nat → List Saved → List QEntry × List Saved
  | 0, l => ([], l)
  | n + 1, l =>
    match l with
    | [] => ([], [])
    | a :: _ =>
      let (r, rest) := takeEntries wkd arity n (l.drop a.inputs)
      (⟨(l.take a.inputs).map (fun e => { e.msg with counted := false }), a.head, a.inputs == 1 && decide (0 < arity a.head),
        wkTag wkd a.msg.w1, lengthOf a.msg, 0, false, a.stamp.getD 0, 0, a.task, false⟩ :: r, rest)

/-- n lists of entries, one for each priority. -/
def takeLists (wkd : Word) (arity : Nat → Nat) : List Nat → List Saved → List (List QEntry) × List Saved
  | [], l => ([], l)
  | n :: r, l =>
    let (e, l1) := takeEntries wkd arity n l
    let (es, l2) := takeLists wkd arity r l1
    (e :: es, l2)

/-- A waiting entry of a slot. -/
def Saved.waiting (wkd : Word) (clk : Nat) (e : Saved) : Waiting :=
  ⟨e.head, e.input, { e.msg with counted := false }, wkTag wkd e.msg.w1, lengthOf e.msg, e.stamp.getD 0, isMarker e.msg, clk⟩

/-- A key as an image keeps it. -/
def savedKey (ring mask own : Nat) (k : Nat) : Key :=
  { bit := bitAt ring k, alloc := if bitAt mask k then .owned else .free, owner := .ofNat 4 own }

/-- The state of a core from its record (R403, R404 steps 3 to 5); recorded arrivals re-enter the arrival path behind it. -/
def State.restoreCore (s : State) (node pa : Nat) (x : Job) : State :=
  let bs := Memory.readN s.mem pa 0x6B40
  let n (k : Nat) : Nat := numAt bs (4 * k) 4
  let w (k : Nat) : Word := wordAt bs (0x40 + 8 * k)
  let c := s.core node
  let arity (h : Nat) : Nat := (s.handler node h).arity
  let all := (List.range (s.slotCount pa)).map (fun i => s.readSlot (pa + 0x6B40 + 288 * i) c.plbase x)
  let (qs, l1) := takeLists c.wkdesc arity ((List.range 4).map n) all
  let (sp, l2) := takeLists c.wkdesc arity ((List.range 4).map (fun k => n (k + 4))) l1
  let store := (l2.take (n 8)).map (Saved.waiting c.wkdesc s.clk)
  let ovf := ((l2.drop (n 8)).take (n 9)).map (Saved.waiting c.wkdesc s.clk)
  let recorded := ((l2.drop (n 8 + n 9)).take (n 10)).map (fun e => e.msg)
  let own (k : Nat) : Nat := fieldOf (w (5 + k / 16)) (4 * (k % 16) + 3) (4 * (k % 16))
  let area := bs.drop 0x100
  let lat := bs.drop 0x5240
  let c1 := { c with
    ctxs := Vector.ofFn (fun k : Fin 11 => if k.val = 10 then c.ctx 10 else { c.ctx k.val with regs := {} })
    q := { c.q with age := (w 0).toNat, queue := Vector.ofFn (fun p : Fin 4 => qs.getD p.val []), spill := Vector.ofFn (fun p : Fin 4 => sp.getD p.val [])
                    store := store, overflow := ovf, stamp := all.foldl (fun a e => max a (e.stamp.getD 0 + 1)) 0 }
    sent := (w 1).toNat
    recv := (w 2).toNat
    keys := Vector.ofFn (fun k : Fin 64 => savedKey (w 3).toNat (w 4).toNat (own k.val) k.val)
    fpfirst := w 9
    lattice := if (imageFault c.lattice lat true).isNone then c.lattice.ofImage lat true else c.lattice }
  let c2 := if (areaFault area).isNone then c1.restorePatch (area.take areaSize) else c1
  let cl := s.cluster (clusterOf node)
  let d := s.die (dieNode node)
  let s1 := (s.setCore node c2).setCluster (clusterOf node) (cl.setSlot (slotOf node) { cl.slot (slotOf node) with format := w 10 })
  (s1.holdFirst recorded).setDie (dieNode node) { d with listed := d.listed + (sp.map (fun l => regionEntries l.length)).sum + regionEntries ovf.length }

/-- An action record of the new quad: HDR of ACT 0b01 and 0b11 goes from the old placement to the new one, an endpoint in its module only (R404 step 4). -/
def moveHeader (oldPl newPl : Word) (oldR r : JobRecord) (ctl hdr : Word) : Word :=
  let n := fieldOf hdr 63 42
  if fieldOf ctl 1 0 ≠ 1 ∧ fieldOf ctl 1 0 ≠ 3 then hdr
  else if nodeIsEnd n then
    match oldR.modules.findIdx? (fun m => m == nodeModule n) with
    | some jm => putField hdr 63 42 (endNode (r.modmap.getD jm 0) (nodeDie n) (nodeClass n) (nodeIndex n))
    | none => hdr
  else
    match relativeOf oldPl oldR n with
    | some (x, y, jm) => putField hdr 63 42 (placedCore newPl r x y jm (nodeCore n))
    | none => hdr

/-- Every store byte of a quad is zero, but for its handler table and its private windows, which are no bytes of the job (R37, R401, R404). -/
def State.clearStores (s : State) (quad : Nat) : State :=
  let clear (t : State) (la n : Nat) : State :=
    let pa := localPhys quad la
    { t.dropPoison pa n with mem := Memory.clear t.mem pa n }
  clear (clear (clear (clear s 0 0x28000) 0x100000 0x80000) 0x200000 0x80000) 0x300000 0x40000

/-- The shared state of a quad and its live regions from its record. -/
def State.restoreQuad (s : State) (x : Job) (quad pa jx jy jm : Nat) (pl oldPl : Word) (oldR : JobRecord) : State :=
  let s1 := s.clearStores quad
  let s2 := (List.range 512).foldl (fun (t : State) i =>
    let a := pa + 0x100 + 40 * i
    let w := Memory.word t.mem a
    let tm : Tumbler := { count := fieldOf w 23 0, target := fieldOf w 47 24, arm := flagOf w 48, ovs := flagOf w 49 }
    let q := t.quad quad
    let t1 := if tm = {} then t else t.setQuad quad { q with tumblers := aset q.tumblers i tm }
    let bs := Memory.readN t.mem (a + 8) 32
    let t2 := t1.put (localPhys quad (0x24000 + 32 * i)) (bytesOfWord (moveHeader oldPl pl oldR x.record (wordAt bs 16) (wordAt bs 0)) ++ bs.drop 8)
    (List.range 4).foldl (fun (u : State) k => if isPoisoned s (a + 8 + 8 * k) then u.addPoison (localPhys quad (0x24000 + 32 * i + 8 * k)) else u) t2) s1
  s2.copyRegions quad (pa + 0x5100) false (x.regionsOf jx jy jm)

/-- The dies on which a placed job has quads. -/
def jobDies (pl : Word) (r : JobRecord) : List Nat := ((jobQuads pl r).map dieNode).eraseDups

/-- A restored job on its new rectangle (R404 steps 1 to 5); the absent queues of every die that holds one follow, the old placement's too (R405). -/
def State.restoreJob (s : State) (j : Nat) (pl : Word) : State :=
  let x := s.job j
  let r := x.record
  let img := x.image.getD 0
  let oldPl := Memory.word s.mem (img + 8)
  let head := Memory.readN s.mem (img + 32) 64
  let oldR : JobRecord := { r with modmap := (List.range (r.nmod + 1)).map (fun k => numAt head k 1) }
  let s1 := s.onJob j (fun x => { x with status := .restoring, plbase := pl, placed := r.modules, image := none })
  let qs : List (Nat × Nat × Nat × Nat) := (List.range (r.nmod + 1)).flatMap (fun jm => (List.range r.wy).flatMap (fun jy => (List.range r.wx).map (fun jx =>
    (placedCore pl r jx jy jm 0, jx, jy, jm))))
  let s2 := qs.foldl (fun (t : State) e => let u := t.loadQuad e.1 pl r; u.setQuad e.1 { u.quad e.1 with restoring := true }) s1
  let s3 := qs.foldl (fun (t : State) e =>
    let k := (e.2.2.2 * r.wy + e.2.2.1) * r.wx + e.2.1
    let pa := img + (Memory.word s.mem (img + 0x100 + 8 * k)).toNat
    let t1 := t.restoreQuad x e.1 pa e.2.1 e.2.2.1 e.2.2.2 pl oldPl oldR
    (List.range 4).foldl (fun (u : State) c => u.restoreCore (e.1 + c) (img + (Memory.word s.mem (pa + 8 + 8 * c)).toNat) x) t1) s2
  let dies := (jobDies pl r ++ (s3.dies.filter (fun (e : Nat × Die) => (aget e.2.absent j).isSome)).map (·.1)).eraseDups
  s3.dueAll (dies.map (fun d => .absentQueueReplay d j))

/-- RESTORE (R404, R433). -/
def execRestore (module : Nat) (cmd : List Word) (s : State) : Out :=
  s.command module cmd (fun s =>
    match s.checkRecord module (Memory.readN s.hostMem (cmdA cmd).toNat 256) (some (cmdB cmd).toNat) with
    | .error e => s.complete module 0x04 (cmdTarget cmd) 1 e 0
    | .ok x => s.handOverRecord module x)

/-- LAUNCH (R433). -/
def execLaunch (module : Nat) (cmd : List Word) (s : State) : Out :=
  s.command module cmd (fun s =>
    match s.checkRecord module (Memory.readN s.hostMem (cmdA cmd).toNat 256) none with
    | .error e => s.complete module 0x01 (cmdTarget cmd) 1 e 0
    | .ok x => s.handOverRecord module x)

/-- Jobs of a module that were ended from outside and still drained are looked at again (R427, R474). -/
def State.finishEnding (s : State) (n : Nat) : State :=
  if (s.module n).killing then s
  else
    let mine (t : State) : List (Nat × Job) := t.jobs.filter (fun (e : Nat × Job) => e.2.record.modules.contains n && e.2.status == .ending)
    let s1 := (mine s).foldl (fun (t : State) (e : Nat × Job) => (t.stopJob e.1).1) s
    if (mine s1).isEmpty then s1 else s1.after 1 (.placement n)

/-- PLACEMENT (R368, R369): the records that wait are examined, in order; a module that is hot places none (R474). -/
def execPlacement (module : Nat) (s : State) : Out :=
  let s0 := s.finishEnding module
  if (s0.module module).hot then .next s0
  else
    let (kept, s1) := State.placeAll (fun (t : State) j pl => t.restoreJob j pl) (s0.module module).waiting [] s0
    .next (s1.setModule module { s1.module module with waiting := kept })

/-- A recorded arrival or an absent entry of a job still waits at one of its quads. -/
def State.replayHeld (s : State) (j : Nat) : Bool := (s.quadsOf j).any (fun q => (s.netWait q).any (fun m => m.counted))

/-- An absent queue of a job holds entries. -/
def State.absentLeft (s : State) (j : Nat) : Bool := s.dies.any (fun (e : Nat × Die) => !(agetD e.2.absent j {}).entries.isEmpty)

/-- ABSENT_QUEUE_REPLAY (R405): once the recorded arrivals are performed, a die sends the next entry of the job's absent queue to its core; an empty queue makes the die's quads resident, and the last one ends the restore. -/
def execAbsentQueueReplay (die job : Nat) (s : State) : Out :=
  let x := s.job job
  let d := s.die die
  let q := agetD d.absent job {}
  if x.status ≠ .restoring then .next s
  else if s.replayHeld job then .next (s.after 1 (.absentQueueReplay die job))
  else
    match q.entries with
    | m :: rest =>
      let s1 := s.setDie die { d.relist (rest.length + 1) rest.length with absent := aset d.absent job { q with entries := rest } }
      .next (s1.dueAll [.handlerMessageArrival { m with w0 := absoluteHeader x.plbase x.record m.w0, tag := 0, counted := true }, .absentQueueReplay die job])
    | [] =>
      let mine := (s.quadsOf job).filter (fun n => dieNode n == die)
      let s1 := mine.foldl (fun (t : State) n => t.setQuad n { t.quad n with restoring := false }) s
      if (s1.quadsOf job).any (fun n => (s1.quad n).restoring) ∨ s1.absentLeft job then .next s1
      else
        let s2 := s1.onJob job (fun x => { x with status := .resident })
        .next (((s2.startSweeps job).complete x.port 0x04 job 0 0 0).releaseDependants x.record.prod)

/-- A LAUNCH or RESTORE that still waits for the placer when its job is killed completes with an open status (R432; log 23). -/
def State.dropWaiting (s : State) (j : Nat) : State :=
  let x := s.job j
  if s.modules.any (fun (e : Nat × Module) => e.2.waiting.any (fun (w : Nat × Nat) => w.1 == j)) then
    ({ s with modules := s.modules.map (fun (e : Nat × Module) => (e.1, { e.2 with waiting := e.2.waiting.filter (fun (w : Nat × Nat) => w.1 != j) })) }.complete
      x.port (if x.image.isSome then 0x04 else 0x01) j (Config.openWord s.free).toNat 0 0).useOpen
  else s

/-- KILL (R432, R406): it completes once no context of the job drains, and the commands behind it go on; a job that is not known gives an open status (log 23). -/
def execKill (module : Nat) (cmd : List Word) (s : State) : Out :=
  let done (t : State) : State := (t.setModule module { t.module module with killing := false }).nextCommands module
  let j := cmdTarget cmd
  if !(s.module module).running then .next (done (s.complete module (cmdOp cmd) j 0xFF 0 0))
  else if (aget s.jobs j).isNone ∨ (s.job j).status = .ended then .next (done ((s.complete module 0x05 j (Config.openWord s.free).toNat 0 0).useOpen))
  else
    match (s.dropWaiting j).stopJob j with
    | (t, true) => .next (done (t.complete module 0x05 j 0 0 0))
    | (t, false) => .next (t.after 1 (.kill module cmd))

end Sys2Proof.Machine
end

