-- ==== Sys2Proof/Machine/Clock.lean ====
section
/-! DEFINITION. One clk of the device: what falls due, the budget watchdog, YIELD, and the choice of contexts (R116, R117, R156, R159, R164, R165, R192, R206, R366, R374, R376, R377, R452). -/

namespace Sys2Proof.Machine

/-! Budget and YIELD. -/

/-- BUDGET_EXPIRY (R376): the context is stopped, its open block discarded and its reservations given back, and it parks. -/
def execBudgetExpiry (node ctx : Nat) (s : State) : Out :=
  let x := s.ctx node ctx
  if x.status ≠ .live ∨ !x.budgetOn ∨ x.budgetLeft ≠ 0 then .next s
  else
    let s1 := s.giveBack node ctx
    let y := s1.ctx node ctx
    let s2 := s1.setCtx node ctx { y with commit := y.commit.map (fun c => { c with reserved := false }), yieldEnd := none, rankLast := false }
    let blk := match x.block, x.commit with
      | some b, _ => b.header
      | none, some c => c.block
      | none, none => x.pc
    .next (({ s2 with free := s2.free + 2 }).park node ctx 0x68 blk (s2.given 0 none) (s2.given 1 none))

/-- YIELD_INTERVAL_END (R206): the context ranks below every other in this clk. -/
def execYieldIntervalEnd (node ctx : Nat) (s : State) : Out :=
  let x := s.ctx node ctx
  match x.yieldEnd with
  | some e => .next (if e ≤ s.clk then s.setCtx node ctx { x with yieldEnd := none, rankLast := true } else s)
  | none => .next s

/-- A context as a clk begins: the budget of a Live one counts down (R376). -/
def Ctx.tick (x : Ctx) (frozen : Bool) : Ctx :=
  if x.status = .live ∧ x.budgetOn ∧ !frozen then { x with budgetLeft := x.budgetLeft - 1 } else x

/-- A core as a clk begins: budgets, counter 3, and the hand-over of one trace record, which counter 9 counts (R366, R376, R452, R453). -/
def Core.tick (c : Core) (frozen : Bool) : Core :=
  let c1 := { c with ctxs := c.ctxs.map (fun (x : Ctx) => x.tick frozen), emptyWait := false, dbg := { c.dbg with traceBuf := c.dbg.traceBuf.drop 1 } }
  let c2 := if c.emptyWait then c1.count 3 1 else c1
  c2.count 9 (((c.dbg.traceBuf.head?).map (fun (r : List Word) => 8 * r.length)).getD 0)

/-! What falls due at a core in a clk. -/

/-- Contexts of a core that meet a condition. -/
def Core.ctxsWith (c : Core) (p : Ctx → Bool) : List Nat := (List.range 11).filter (fun k => p (c.ctx k))

/-- A refill may start: the highest priority first (R164). -/
def CoreQueues.refillPri (q : CoreQueues) : Option Nat :=
  (List.range 4).find? (fun p => decide ((q.queueAt p).length < q.depthAt p) && (q.refillAt p).isNone && !(q.spillAt p).isEmpty)

/-- The steps of a core's own units that are due in a clk. A waiting commit is tried in the turn of its context, before its budget can end it (R389; log 4). -/
def State.coreEvents (s : State) (node : Nat) : List Event :=
  let c := s.core node
  (c.ctxsWith (fun x => x.status == .live && x.budgetOn && x.budgetLeft == 0 && x.commit.isNone)).map (fun k => .budgetExpiry node k) ++
  (if c.departure.isEmpty then [] else [.departure node]) ++
  (if c.q.overflow.isEmpty ∨ 256 ≤ c.q.store.length then [] else [.matchOverflowMove node]) ++
  ((c.q.refillPri).map (fun p => Event.spillRefill node p)).toList ++
  (if (List.range 4).all (fun p => (c.q.queueAt p).isEmpty) && c.replayMode != 2 then [] else [.dispatch node]) ++
  (if c.sysq.isEmpty ∨ !c.systemIdle then [] else [.systemEntryTake node]) ++
  (if c.patch.results.any (fun (r : PatchResult) => decide (r.due ≤ s.clk)) then [.customOpcodeResult node] else []) ++
  (if c.lattice.clocksMove s.clk then [.latticeClockTick node] else []) ++
  (if (c.lattice.headDue s.clk).isSome then [.latticeInstructionPerform node] else []) ++
  (if c.hinge.landed && s.maySave node then [.coreSave node] else [])

/-- The steps of a memory core that are due in a clk: one request, one beat to the fabric, and the next write of each storer (R50, R57, R58). -/
def MemCore.events (m : MemCore) (node clk : Nat) : List Event :=
  (if (m.nextIssue).isSome && !m.paused then [.streamRequestIssue node] else []) ++
  ((((List.range 16).map (fun k => (clk + k) % 16)).find? (fun k => ((m.stream k).map Stream.mayWrite).getD false)).map (fun k => Event.loaderBeatWrite node k)).toList ++
  ((List.range 16).filter (fun k => ((m.stream k).map (fun x => !x.writes.isEmpty)).getD false)).map (fun k => .storerWrite node k)

/-! The choice of contexts (R374). -/

/-- The words of a block that have not issued. -/
def OpenBlock.left (b : OpenBlock) : List Nat := (List.range b.words.length).filter (fun k => decide (b.pos ≤ k) && !b.ahead.contains k)

/-- The word of a block that a slot may issue next: the first of the slot that has not issued or been tried, and that may pass every earlier word that has not issued (R175, R374). -/
def OpenBlock.candidate (b : OpenBlock) (vec : Bool) (tried : List Nat) : Option Nat :=
  let word (k : Nat) : BitVec 32 := b.words.getD k 0
  b.left.find? (fun j => vectorSlot (wordOpcode (word j)) == vec && !tried.contains j &&
    (b.left.filter (fun k => decide (k < j))).all (fun k => mayPass (word k) (word j)))

/-- Every word of the block has issued. -/
def OpenBlock.complete (b : OpenBlock) : Bool := decide (b.words.length ≤ b.pos)

/-- The context is to enter a block or to commit one. -/
def Ctx.atEdge (x : Ctx) : Bool := (x.block.map OpenBlock.complete).getD true

/-- Contexts after a pointer, ascending modulo 11. -/
def afterPointer (n : Nat) : List Nat := (List.range 11).map (fun k => (n + 1 + k) % 11)

/-- The turns of a core's contexts in a clk: first the blocks that are entered or committed and the commits that wait, in ascending number, which takes no slot; then each slot in its order (R117, R177, R260, R374). Those in their YIELD interval are left out, but for a commit that waits; those in their first clk after it come last. -/
def Core.order (c : Core) (node : Nat) (clk : Nat) : List Turn :=
  let live (k : Nat) : Bool := (c.ctx k).status == .live && ((c.ctx k).yieldEnd.map (fun e => decide (e ≤ clk))).getD true
  let edge (k : Nat) : Bool := if (c.ctx k).commit.isSome then (c.ctx k).status == .live else live k && (c.ctx k).atEdge
  let slot (vec : Bool) (ptr : Nat) : List Turn :=
    let l := (afterPointer ptr).filter live
    (l.filter (fun k => !(c.ctx k).rankLast) ++ l.filter (fun k => (c.ctx k).rankLast)).map (fun k => { node := node, ctx := k, vector := vec, kind := .issue })
  ((List.range 11).filter edge).map (fun k => { node := node, ctx := k, vector := false, kind := .block }) ++
  slot false c.lastScalar ++ slot true c.lastVector

/-- The contexts of every core are put into their order. -/
def State.pick (s : State) : State :=
  { s with
    picked := true
    turn := s.cores.flatMap (fun (e : Nat × Core) => if e.2.fenced then [] else e.2.order e.1 s.clk)
    cores := s.cores.map (fun (e : Nat × Core) => (e.1, { e.2 with ctxs := e.2.ctxs.map (fun x => { x with rankLast := false }) })) }

/-- A block that a slot has selected a word of: the word, and, while none has issued, the watchpoints and trace control that are to govern it (R458). -/
def OpenBlock.selectWord (b : OpenBlock) (t : Turn) (dbg : CoreDebug) : OpenBlock :=
  let b1 := { b with cursor := (b.candidate t.vector t.tried).getD b.words.length }
  if b.pos = 0 ∧ b.ahead.isEmpty then { b1 with watch := dbg.watch, traceCtl := dbg.traceCtl } else b1

/-- The context whose turn it is becomes the current one; where it is to issue, its slot selects a word. -/
def State.select (s : State) (t : Turn) (r : List Turn) : State :=
  let u := { s with cur := t.node, curCtx := t.ctx, turn := r, stalled := false }
  if t.kind = .block then u else u.onBlock (fun b => b.selectWord t u.myCore.dbg)

/-- A context that issued closes its slot for the clk, and the slot's pointer names it; the contexts behind it in the slot only show whether they wait on an empty register (R366, R374). -/
def State.issued (s : State) (t : Turn) : State :=
  if s.stalled then s
  else
    let c := s.core t.node
    { s.setCore t.node (if t.vector then { c with lastVector := t.ctx } else { c with lastScalar := t.ctx }) with
      turn := s.turn.map (fun u => if u.node = t.node ∧ u.vector = t.vector ∧ u.kind = .issue then { u with kind := .probe } else u) }

/-- The word that the current context issues next. -/
def State.nextWord (s : State) : Option (BitVec 32) := s.me.block.bind (fun b => b.words[b.cursor]?)

/-- The selected word stands behind one of its block that has not issued. -/
def State.early (s : State) : Bool := decide (s.block.pos < s.block.cursor)

/-- A word that waits gives the turn to the next word of its context that the slot may issue (R374). -/
def State.tryNext (s u : State) (t : Turn) : State := { u with turn := { t with tried := s.block.cursor :: t.tried } :: u.turn }

/-- What an instruction has come to, `u`, in the turn of a context: a probe keeps only that it waits on an empty register (R366); one that has issued closes the slot; where one waits, the next word is tried. The fault of an early one is reported in program order, so it waits (R178). -/
def State.taken (s u : State) (t : Turn) : State :=
  let waits : State := { s.setMyCore { s.myCore with emptyWait := s.myCore.emptyWait || u.myCore.emptyWait } with stalled := true }
  if t.kind = .probe then waits
  else if s.early ∧ (u.me.status ≠ .live ∨ u.me.block.isNone) then s.tryNext waits t
  else if u.stalled then s.tryNext u t
  else u.issued t

/-- A word that decodes to no instruction is illegal (R174, R194). -/
def State.rejectWord (s : State) (w : BitVec 32) (e : Reject) : State :=
  ({ s with free := s.free + 1 }).takeFault s.cur s.curCtx 0x01 (s.given 0 none)
    (illegalInfo (s.block.cursor + 1) (wordOpcode w) e.why w.toNat)

/-! The clk. -/

/-- Trace records of every core reach its die's unit, one in a clk (R448, R452). -/
def State.handOver (s : State) : State :=
  s.cores.foldl (fun (t : State) (e : Nat × Core) =>
    match e.2.dbg.traceBuf with
    | r :: _ => t.ringWrite (dieNode e.1) r (t.module (nodeModule e.1)).sealed
    | [] => t) s

/-- A clk begins: what was set for it falls due, and every unit takes up its work. What waits is tried again, in the order in which it came, and keeps its place while it waits (R69, R70, R121, R431). -/
def State.tick (s : State) : State :=
  let clk := s.clk + 1
  let s0 := s.quads.foldl (fun (t : State) (e : Nat × Quad) => if e.2.updates.isEmpty && e.2.fires.isEmpty && e.2.drains.isEmpty then t else t.tumblerFile e.1) s
  let s1 := s0.cores.foldl (fun (t : State) (e : Nat × Core) => if e.2.q.moved.isEmpty then t else t.enterMoved e.1) s0.handOver
  let due := (s1.later.filter (fun (e : Nat × Event) => decide (e.1 ≤ clk))).map (·.2)
  let s2 := { s1 with
    clk := clk, picked := false, stalled := false
    later := s1.later.filter (fun (e : Nat × Event) => decide (clk < e.1))
    cores := s1.cores.map (fun (e : Nat × Core) => (e.1, e.2.tick ((((s1.quad e.1).job).map s1.frozen).getD false))) }
  let own := s2.cores.flatMap (fun (e : Nat × Core) => s2.coreEvents e.1) ++
    s2.memCores.flatMap (fun (e : Nat × MemCore) => e.2.events e.1 clk)
  let waiting := s2.arrivals.map (fun e => route e.m) ++ s2.modules.flatMap (fun (e : Nat × Module) => e.2.hostWait.map (·.1))
  { s2 with
    agenda := waiting ++ s2.agenda ++ due ++ own
    arrivals := s2.arrivals.map (fun e => { e with due := true })
    modules := s2.modules.map (fun (e : Nat × Module) => (e.1, { e.2 with hostWait := e.2.hostWait.map (fun u => (u.1, true)) }))
    dies := s2.dies.map (fun (e : Nat × Die) => (e.1, { e.2 with starved := false })) }

end Sys2Proof.Machine
end

