-- ==== Sys2Proof/Machine/Collective.lean ====
section
/-! DEFINITION. Collectives: opcodes 0x8D and 0x8E, and the collective units (R355, R438, R439). -/

namespace Sys2Proof.Machine

/-! The descriptor (Table 15-2). -/

def colOp (d : List Word) : Nat := fieldOf (d.headD 0) 1 0
def colType (d : List Word) : Nat := fieldOf (d.headD 0) 3 2
def colBytes (d : List Word) : Nat := 32 * (fieldOf (d.headD 0) 6 4 + 1)
def colKey (d : List Word) : Nat := fieldOf (d.headD 0) 12 7
def colSeq (d : List Word) : Nat := fieldOf (d.headD 0) 28 13
def colRoot (d : List Word) : Nat := fieldOf (d.headD 0) 34 29
def colSrc (d : List Word) : Nat := (d.getD 1 0).toNat
def colDst (d : List Word) : Nat := (d.getD 2 0).toNat
def colGroup (d : List Word) : Word := d.getD 3 0

/-- The descriptor's fields, ROOT membership and the bit of the own module (R355). -/
def colGood (bc : Bool) (own : Nat) (d : List Word) : Bool :=
  (if bc then colOp d == 0 else colOp d != 3) && fieldOf (d.headD 0) 63 35 == 0 &&
  decide (colSrc d < 2 ^ 48) && colSrc d % 32 == 0 && decide (colDst d < 2 ^ 48) && colDst d % 32 == 0 &&
  (!bc || flagOf (colGroup d) (colRoot d)) && flagOf (colGroup d) own

/-- COL.RED and COL.BC (R355). -/
def State.issueCollective (s : State) (p : BitVec 4) (op : Nat) (bc : Bool) (d a b : BitVec 5) : Out :=
  s.issue p op [gsrc a, gsrc b] [.g d.toNat false] (fun s => do
    let la := (s.regs.gval a.toNat).toNat
    s.checkLocal op .payload la 32 false 32
    let w := s.regs.gval b.toNat
    let n := fieldOf w 21 0
    if fieldOf w 63 22 ≠ 0 ∨ !goodNode s.present n ∨ !nodeIsEnd n ∨ nodeClass n ≠ 1 ∨ nodeModule n ≠ nodeModule s.cur then .error (badDestination n)
    let (ws, ps) ← s.readPayload op la 1
    needOperand op a.toNat (colGood bc (nodeModule s.cur) ws)
    let key := s.myCore.key (colKey ws)
    if key.alloc = .free ∨ key.flight ≠ 0 then .error (.trap 0x42 none none)
    let pay := commandBeat (if bc then 2 else 1) 0 0 ++ ws
    let ans := Answer.collective (colKey ws)
    let t ← if d = 0 then s.buffer (.msg (s.engineCommand n ackSelector pay (false :: ps)) none ans none)
      else s.bufferCommand d.toNat ans (fun sel => s.engineCommand n sel pay (false :: ps))
    pure (t.notePayload op la 32))

/-- COL.RED (R355). -/
def execColRed (p : BitVec 4) (d a b : BitVec 5) (s : State) : Out := s.issueCollective p 0x8D false d a b

/-- COL.BC (R355). -/
def execColBc (p : BitVec 4) (d a b : BitVec 5) (s : State) : Out := s.issueCollective p 0x8E true d a b

/-! The result (R439). -/

/-- Round to nearest even, with gradual underflow. -/
def nearest : FpMode := ⟨0, false⟩

/-- The element type of a TYPE. -/
def colElement (t : Nat) : BitVec 3 := if t = 0 then 0 else if t = 1 then 1 else if t = 2 then 3 else 4

/-- The six levels of the tree over up to 64 ranks (R270, R439). -/
def rankTree (f : Nat → Nat → FpResult) (leaves : List (Option Nat)) : Nat :=
  (((List.range 6).foldl (fun l _ => (reducePairs f l).1) leaves).headD none).getD 0

/-- The reduction of one element over the ranks; a sum of .bf16 is taken in .f32 and rounded once. -/
def reduceRanks (type op : Nat) (l : List Nat) : Nat :=
  let t := colElement type
  let f (u : BitVec 3) (x y : Nat) : FpResult :=
    if op = 0 then (if u.toNat < 3 then f32.add nearest false x y else ((x + y) % 2 ^ 32, 0)) else elementMinMax u (op == 1) x y
  if type = 1 ∧ op = 0 then
    (convertElement nearest 0 1 (rankTree (f 0) (fit 64 none (l.map (fun x => some (convertElement nearest 1 0 x).1))))).1
  else rankTree (f t) (fit 64 none (l.map some))

/-- The bytes of an all-reduce of the contributions, in rank order. -/
def reduceBytes (type op n : Nat) (l : List (List Byte)) : List Byte :=
  let w := if type = 1 then 2 else 4
  (List.range (n / w)).flatMap (fun k => bytesOfNat w (reduceRanks type op (l.map (fun bs => numAt bs (w * k) w))))

/-! The units (R438). -/

/-- The descriptor of a command. -/
def colDesc (m : Packet) : List Word := m.payload.drop 4

/-- It is a broadcast. -/
def colIsBc (m : Packet) : Bool := numAt (bytesOf m) 0 1 == 2

/-- Physical runs of a member's SRC or DST; none where a page does not translate or the access is not allowed there. -/
def State.colRuns (s : State) (m : Packet) (va : Nat) (write : Bool) : Option (List (Nat × Nat)) :=
  match s.walkRun (jobOf m) va (colBytes (colDesc m)) (if write then .write else .read) with
  | .ok l =>
    if decide (va + colBytes (colDesc m) ≤ 2 ^ 48) && l.all (fun (e : Nat × Nat) => placeAllows (if write then .remoteWrite else .remoteRead) e.1 e.2 write)
    then some l else none
  | .error _ => none

/-- The collective is the first of its context's queue at the unit (R123). -/
def Module.colHeads (x : Module) (e : Packet) : Bool := x.collectives.find? (fun f => f.src == e.src && f.ctx == e.ctx && destOf f == destOf e) == some e

/-- The descriptor of a module that runs with another: one of the same job, SEQ and GROUP, else the first of the same job and SEQ, which disagrees on GROUP (R355, R438; log 47). -/
def Module.colPartner (x : Module) (m : Packet) : Option Packet :=
  let l := x.collectives.filter (fun e => jobOf e == jobOf m && colSeq (colDesc e) == colSeq (colDesc m))
  (l.find? (fun e => colGroup (colDesc e) == colGroup (colDesc m))).or l.head?

/-- The commands of every member of a collective, in rank order; none while one has not issued it, or has an earlier one of the same context to be performed first (R123). -/
def State.colMembers (s : State) (m : Packet) : Option (List Packet) :=
  (setBits (colGroup (colDesc m)).toNat 64).mapM (fun k => ((s.module k).colPartner m).filter (s.module k).colHeads)

/-- Two members agree (R355). -/
def colAgree (a b : Packet) : Bool :=
  let x := colDesc a
  let y := colDesc b
  colIsBc a == colIsBc b && colOp x == colOp y && colType x == colType y && colBytes x == colBytes y && colRoot x == colRoot y && colGroup x == colGroup y

/-- A member is answered: its reply, its key, and its place in the unit freed; a translation fault raises a notice of the issuing context (R355, R386). -/
def State.colAnswer (s : State) (m : Packet) (status : Nat) : State :=
  let n := nodeModule (destOf m)
  let x := s.module n
  let s1 := s.setModule n { x with collectives := x.collectives.filter (fun e => e != m) }
  let s2 := if status = 2 then s1.notice m.src 0x80 m.ctx 0 0 else s1
  (s2.engineDone m (engineWord 0 status 0)).send (keySetTo m.src (destOf m) (colKey (colDesc m)))

/-- A member's accesses translate: SRC where it contributes, and DST (R355). -/
def State.colReady (s : State) (m : Packet) : Bool :=
  let d := colDesc m
  ((colIsBc m && colRoot d != nodeModule (destOf m)) || (s.colRuns m (colSrc d) false).isSome) && (s.colRuns m (colDst d) true).isSome

/-- The bytes of a member's SRC. -/
def State.colBytesOf (s : State) (m : Packet) : List Byte :=
  ((s.colRuns m (colSrc (colDesc m)) false).getD []).flatMap (fun (e : Nat × Nat) => Memory.readN s.mem e.1 e.2)

/-- A member's SRC, where it contributes, or its DST lies in a stack that is paused (R473). -/
def State.colPaused (s : State) (m : Packet) : Bool :=
  let d := colDesc m
  let at_ (va : Nat) (write : Bool) : Bool := ((s.colRuns m va write).getD []).any (fun (e : Nat × Nat) => s.pausedAt e.1)
  (!(colIsBc m && colRoot d != nodeModule (destOf m)) && at_ (colSrc d) false) || at_ (colDst d) true

/-- Bytes go to physical runs, in order. -/
def State.writeRuns (s : State) : List (Nat × Nat) → List Byte → State
  | [], _ => s
  | (pa, n) :: r, bs => State.writeRuns (writeUnits s pa (bs.take n)).1 r (bs.drop n)

/-- A collective that every member has issued is performed (R355, R439). -/
def State.performCollective (s : State) (m : Packet) (l : List Packet) : State :=
  let d := colDesc m
  if !l.all (colAgree m) then l.foldl (fun (t : State) e => t.colAnswer e 1) s
  else if !l.all s.colReady then l.foldl (fun (t : State) e => t.colAnswer e (if s.colReady e then 3 else 2)) s
  else
    let result :=
      if colIsBc m then ((l.find? (fun e => nodeModule (destOf e) == colRoot d)).map s.colBytesOf).getD []
      else reduceBytes (colType d) (colOp d) (colBytes d) (l.map s.colBytesOf)
    let s1 := l.foldl (fun (t : State) e => t.writeRuns ((s.colRuns e (colDst (colDesc e)) true).getD []) result) s
    l.foldl (fun (t : State) e => t.colAnswer e 0) s1

/-- A collective has to wait: it is to move data, and some of it lies in a paused stack (R473). -/
def State.colHeld (s : State) (m : Packet) (l : List Packet) : Bool := l.all (colAgree m) && l.all s.colReady && l.any s.colPaused

/-- The first accepted collective, in the order of modules and arrival, that every member has issued and that no paused stack delays (R438, R473). -/
def State.colNext (s : State) : Option (Packet × List Packet) :=
  (s.modules.flatMap (fun (e : Nat × Module) => e.2.collectives)).findSome? (fun m =>
    match s.colMembers m with
    | some l => if l.contains m && !s.colHeld m l then some (m, l) else none
    | none => none)

/-- A unit accepts a descriptor (R111, R355). -/
def State.colAccept (s : State) (m : Packet) : State :=
  let n := nodeModule (destOf m)
  (s.setModule n { s.module n with collectives := (s.module n).collectives ++ [m] }).acceptCommand m

/-- Descriptors that wait take the places that are free (R438). -/
def State.colRefill (s : State) : State :=
  s.modules.foldl (fun (t : State) (e : Nat × Module) =>
    let x := t.module e.1
    let n := 16 - x.collectives.length
    (x.colWaiting.take n).foldl State.colAccept (t.setModule e.1 { x with colWaiting := x.colWaiting.drop n })) s

/-- Every collective that is complete is performed, one after another; n bounds their number (R438). -/
def State.runCollectives : Nat → State → State
  | 0, s => s
  | n + 1, s =>
    match s.colNext with
    | some (m, l) => State.runCollectives n (s.performCollective m l).colRefill
    | none => s

/-- Descriptors that the units hold. -/
def State.colCount (s : State) : Nat := (s.modules.map (fun (e : Nat × Module) => e.2.collectives.length + e.2.colWaiting.length)).sum

/-- COLLECTIVE_PERFORM (R438, R439): a unit accepts a descriptor while its module holds fewer than 16 and none waits, and every collective that is then complete is performed. -/
def execCollectivePerform (m : Packet) (s : State) : Out :=
  let n := nodeModule (destOf m)
  let x := s.module n
  if 16 ≤ x.collectives.length ∨ !x.colWaiting.isEmpty then .next (s.setModule n { x with colWaiting := x.colWaiting ++ [m] })
  else .next ((s.colAccept m).runCollectives (s.colCount + 1))

end Sys2Proof.Machine
end

