-- ==== Sys2Proof/Machine/Host.lean ====
section
/-! DEFINITION. The host port: BAR0, the aperture, injection and receipt (R427 to R435, R440, R444). -/

namespace Sys2Proof.Machine

/-- The host port's node (R15). -/
def hostNode (n : Nat) : Nat := endNode n 0 3 0

/-! Registers (Tables 23-2 and 23-3). -/

/-- A host index lies beyond its producer's TAIL, in the sense of free-running 32-bit counts (R429; log 26). -/
def beyond (v tail : Nat) : Bool :=
  let d := (v + 2 ^ 32 - tail) % 2 ^ 32
  1 ≤ d && d < 2 ^ 31

/-- A ring with its host index advanced, unless the write goes beyond TAIL. -/
def Ring.setHead (r : Ring) (v : Nat) : Ring := if beyond (v % 2 ^ 32) r.tail then r else { r with head := v % 2 ^ 32 }

/-- WIN with its reserved bits zero (Table 23-3). -/
def winValue (v : Word) : Word := putField (putField v 25 13 0) 63 48 0

def Module.window (x : Module) (w : Nat) : Word := agetD x.windows w 0

/-- What a host read of BAR0 gives (R428). -/
def Module.bar0 (x : Module) (off : Nat) : Word :=
  let ring (r : Ring) (k : Nat) (tailFirst : Bool) : Word :=
    if k = 0 then wordOf r.base else if k = 1 then wordOf r.size
    else if (k = 2) = tailFirst then wordOf r.tail else wordOf r.head
  if off = 0 then wordOf (bitNat x.sealed + bitNat x.running * 2)
  else if 0x40 ≤ off ∧ off < 0x60 ∧ off % 8 = 0 then ring x.cmd ((off - 0x40) / 8) true
  else if 0x60 ≤ off ∧ off < 0x80 ∧ off % 8 = 0 then ring x.cpl ((off - 0x60) / 8) true
  else if 0x80 ≤ off ∧ off < 0xA0 ∧ off % 8 = 0 then ring x.rx ((off - 0x80) / 8) true
  else if 0xA0 ≤ off ∧ off < 0xC0 ∧ off % 8 = 0 then ring x.frm ((off - 0xA0) / 8) true
  else if off = 0xC0 then wordOf x.umbase
  else if off = 0x100 then wordOf x.injTail
  else if off = 0x108 then wordOf x.injHead
  else if 0x1000 ≤ off ∧ off < 0x3000 ∧ off % 8 = 0 then x.window ((off - 0x1000) / 8)
  else if 0x10000 ≤ off ∧ off < 0x18000 then wordOf (natOfBytes (Memory.readN x.inject off 8))
  else 0

/-! Commands (R432). -/

/-- The step of a command by its OP (Tables 23-4 and 25-1). -/
def commandEvent (n : Nat) (cmd : List Word) : Event :=
  match cmdOp cmd with
  | 0x01 => .launch n cmd
  | 0x02 => .preempt n cmd
  | 0x03 => .cancel n cmd
  | 0x04 => .restore n cmd
  | 0x05 => .kill n cmd
  | 0x20 => .loadfw n cmd
  | 0x21 => .swap n cmd
  | 0x22 => .attest n cmd
  | 0x23 => .serviceFence n cmd
  | 0x24 => .unfence n cmd
  | 0x25 => .recal n cmd
  | 0x26 => .health n cmd
  | 0x27 => .traceout n cmd
  | _ => .unknownHostCommand n cmd

/-- The host's actions that wait and came before one: those before it where it is one of them, tried again; else all of them. -/
def Module.actsBefore (x : Module) (e : Event) : List (Event × Bool) := x.hostWait.takeWhile (fun u => u != (e, true))

/-- An action of the host waits; one that is tried again keeps its place (R431). -/
def Module.delay (x : Module) (e : Event) : Module :=
  { x with hostWait := if x.hostWait.contains (e, true) then x.hostWait.replace (e, true) (e, false) else x.hostWait ++ [(e, false)] }

/-- An action of the host waits no longer. -/
def State.hostDone (s : State) (n : Nat) (e : Event) : State := s.setModule n { s.module n with hostWait := (s.module n).hostWait.erase (e, true) }

/-- An action of the host is performed, or waits behind an earlier one that does (R431). -/
def State.hostAction (s : State) (n : Nat) (e : Event) (act : State → State) : Out :=
  .next (if ((s.module n).actsBefore e).isEmpty then act (s.hostDone n e) else s.setModule n ((s.module n).delay e))

/-- What an action of the host, from a state s, has made due in t comes before later actions (R431). -/
def State.actsFirst (s t : State) : State := { t with agenda := t.agenda.drop s.agenda.length ++ s.agenda }

/-- The commands up to a new TAIL are taken, 64 bytes each (R432). -/
def State.takeCommands (s : State) (module tail : Nat) : State :=
  let x := s.module module
  let r := { x.cmd with tail := tail }
  let n := min r.used r.size
  let cmds := (List.range n).map (fun k => wordsOf (Memory.readN s.hostMem (r.base + (r.head + k) % r.size * 64) 64) 8)
  s.actsFirst ((s.setModule module { x with cmd := { r with head := (r.head + n) % 2 ^ 32 }, commands := x.commands ++ cmds.map (commandEvent module) }).nextCommands module)

/-- CMDTAIL_WRITE (R431, R432): the entries up to the new TAIL are performed in ring order. -/
def execCmdtailWrite (module : Nat) (tail : BitVec 32) (s : State) : Out :=
  s.hostAction module (.cmdtailWrite module tail) (fun s => s.takeCommands module tail.toNat)

/-- UNKNOWN_HOST_COMMAND (R432). -/
def execUnknownHostCommand (module : Nat) (cmd : List Word) (s : State) : Out :=
  .next (s.complete module (cmdOp cmd) (cmdTarget cmd) 0xFF 0 0)

/-! Injection (R434). -/

/-- A job is loaded: it is resident, or saved and kept by its absent queues (R404, R434). -/
def State.jobLoaded (s : State) (j : Nat) : Bool :=
  match aget s.jobs j with
  | some x => x.status == .resident || x.status == .saved || x.status == .restoring
  | none => false

/-- One injection slot is consumed (R434). -/
def State.injectSlot (s : State) (n : Nat) : State :=
  let x := s.module n
  let bs := Memory.readN x.inject (0x10000 + 0x200 * (x.injHead % 64)) 288
  let m := slotMessage bs
  let j := jobOf m
  let s1 := s.setModule n { x with injHead := (x.injHead + 1) % 2 ^ 32 }
  let drop := s1.setModule n { s1.module n with droppedSlots := x.droppedSlots + 1 }
  if !s.jobLoaded j ∨ !slotGood (s.job j).record.wkd m then drop
  else
    match s.relocateSlot (s.job j) m (hostNode n) with
    | some p => s1.hostSend j p
    | none => drop

/-- The slots up to a new TAIL are consumed (R434). -/
def State.takeSlots (s : State) (module tail : Nat) : State :=
  let x := s.module module
  let n := min 64 ((tail + 2 ^ 32 - x.injHead) % 2 ^ 32)
  s.actsFirst ((List.range n).foldl (fun (t : State) _ => t.injectSlot module) (s.setModule module { x with injTail := tail }))

/-- INJTAIL_WRITE (R431, R434): every slot up to the new TAIL is consumed. -/
def execInjtailWrite (module : Nat) (tail : BitVec 32) (s : State) : Out :=
  s.hostAction module (.injtailWrite module tail) (fun s => s.takeSlots module tail.toNat)

/-! Writes to BAR0 (R428). -/

/-- BAR0_REGISTER_WRITE (R428, R429, R431): read-only registers and unlisted offsets ignore it; a host index that moves makes room for what waits. -/
def execBar0RegisterWrite (module offset : Nat) (value : Word) (s : State) : Out := s.hostAction module (.bar0RegisterWrite module offset value) <| fun s =>
  let x := s.module module
  let v := value.toNat
  let put (y : Module) : State := s.setModule module y
  match offset with
  | 0x040 => (put { x with cmd := { x.cmd with base := v } })
  | 0x048 => (put { x with cmd := { x.cmd with size := v } })
  | 0x050 => (s.takeCommands module (v % 2 ^ 32))
  | 0x060 => (put { x with cpl := { x.cpl with base := v } })
  | 0x068 => ((put { x with cpl := { x.cpl with size := v } }).flushCompletions module)
  | 0x078 => ((put { x with cpl := x.cpl.setHead v }).flushCompletions module)
  | 0x080 => (put { x with rx := { x.rx with base := v } })
  | 0x088 => ((put { x with rx := { x.rx with size := v } }).releaseHeld module)
  | 0x098 => ((put { x with rx := x.rx.setHead v }).releaseHeld module)
  | 0x0A0 => (put { x with frm := { x.frm with base := v } })
  | 0x0A8 => ((put { x with frm := { x.frm with size := v } }).pumpSeal module)
  | 0x0B8 => ((put { x with frm := x.frm.setHead v }).pumpSeal module)
  | 0x0C0 => (put { x with umbase := v })
  | 0x100 => (s.takeSlots module (v % 2 ^ 32))
  | _ =>
    if 0x1000 ≤ offset ∧ offset < 0x3000 ∧ offset % 8 = 0 then (put { x with windows := aset x.windows ((offset - 0x1000) / 8) (winValue value) })
    else if 0x10000 ≤ offset ∧ offset + 8 ≤ 0x18000 then (put { x with inject := Memory.writeN x.inject offset (bytesOfWord value) })
    else s

/-! The aperture (R430, R440). -/

/-- The part of an access in one page: window, job, and virtual address. -/
structure HostPart where
  job : Nat
  va : Nat
  len : Nat
deriving DecidableEq, Repr

/-- The parts of an access, each in one window and one 64 KiB page; none where a window is closed or its job not loaded. -/
def State.hostParts (s : State) (n off len : Nat) : Option (List HostPart) :=
  (runParts off len).mapM (fun (e : Nat × Nat) =>
    let w := (s.module n).window (e.1 / 2 ^ 26)
    let j := fieldOf w 12 1
    if flagOf w 0 ∧ s.jobLoaded j then some ⟨j, fieldOf w 47 26 * 2 ^ 26 + e.1 % 2 ^ 26, e.2⟩ else none)

/-- The host port's translation: its TLB, then its walker (R430); and the state with the leaf in the TLB. -/
def State.hostLeaf (s : State) (n job va : Nat) : Option TlbEntry × State :=
  match tlbPick (s.module n).tlb job va with
  | some e => (some e, s)
  | none =>
    match s.walkAll job va with
    | .ok e => (some e, s.setModule n { s.module n with tlb := tlbAdd 256 (s.module n).tlb e })
    | .error _ => (none, s)

/-- Sealed-output mode lets the host read only manifest buffers that a job has opened (R440). -/
def State.sealedAllows (s : State) (n : Nat) (p : HostPart) : Bool :=
  let x := s.module n
  !x.sealed || x.engine.buffers.any (fun (b : Nat × Nat) => b.1 == p.job && decide (b.2 ≤ p.va) && decide (p.va + p.len ≤ b.2 + 0x6000))

/-- The physical address of a part of a host access, or none where the host port refuses it (R98, R430). -/
def State.hostPart (s : State) (n : Nat) (p : HostPart) (write : Bool) : Option Nat × State :=
  match s.hostLeaf n p.job p.va with
  | (some e, t) =>
    if !flagOf e.pte 6 ∨ (!write ∧ !s.sealedAllows n p) then (none, t)
    else
      match State.useLeaf e p.va (if write then .write else .read) with
      | .ok pa => (if placeAllows (if write then .remoteWrite else .remoteRead) pa p.len write then some pa else none, t)
      | .error _ => (none, t)
  | (none, t) => (none, t)

/-- The physical runs of a host access, or none where some part is refused. -/
def State.hostRuns (s : State) (n : Nat) (write : Bool) : List HostPart → Option (List (Nat × Nat)) × State
  | [] => (some [], s)
  | p :: r =>
    match s.hostPart n p write with
    | (some pa, t) =>
      match State.hostRuns t n write r with
      | (some l, u) => (some ((pa, p.len) :: l), u)
      | (none, u) => (none, u)
    | (none, t) => (none, t)

/-- The runs of an access of the host. -/
def State.hostAccess (s : State) (n off len : Nat) (write : Bool) : Option (List (Nat × Nat)) × State :=
  match s.hostParts n off len with
  | some l => s.hostRuns n write l
  | none => (none, s)

/-- Bytes that a host read returns of a run; poisoned data give open bytes (log 27). -/
def State.hostBytes (s : State) (pa n : Nat) : List Byte :=
  if anyPoison s pa n then (List.range n).map (fun k => .ofNat 8 (Config.openWord (s.free + k)).toNat) else Memory.readN s.mem pa n

/-- The message that a step performs at a quad. -/
def Event.packet : Event → Option Packet
  | .handlerMessageArrival m | .boltArrival m | .remoteRead m | .remoteWrite m | .remoteAtomicAdd m | .remoteAtomicAnd m | .remoteAtomicOr m
  | .remoteAtomicXor m | .remoteAtomicMin m | .remoteAtomicMax m | .remoteAtomicMinn m | .remoteAtomicMaxn m | .remoteAtomicSwap m
  | .remoteAtomicCas m | .versionedRead m | .versionedWrite m | .versionRetire m | .tumblerIncrement m | .tumblerDecrement m | .tumblerArm m
  | .tumblerRead m | .copy m | .copyBeat m | .refusedOperation m => some m
  | _ => none

/-- A message of the host to a quad has not been performed: it waits there, or is under way (R121, R431). -/
def State.hostSent (s : State) (n q : Nat) : Bool :=
  (s.netWait q ++ s.agenda.filterMap Event.packet).any (fun m => m.src == hostNode n && !nodeIsEnd (destOf m) && quadOf (destOf m) == quadOf q)

/-- An access of the host has to wait: a run of it lies in a paused stack, or an earlier message of the host has not been performed at the quad of one (R121, R431, R473). -/
def State.hostWaits (s : State) (n : Nat) (l : List (Nat × Nat)) : Bool :=
  l.any (fun (e : Nat × Nat) =>
    match placeOf e.1 with
    | .store q _ _ => s.hostSent n q
    | _ => s.pausedAt e.1)

/-- An access of the host to its runs is performed, or waits before every later action (R431, R473). -/
def State.hostRun (s : State) (n : Nat) (e : Event) (l : List (Nat × Nat)) (t : State) : State :=
  if s.hostWaits n l then s.setModule n { s.module n with hostWait := (e, false) :: (s.module n).hostWait } else t

/-- APERTURE_READ (R430, R431, R440): the completion holds the bytes, or is a Completer Abort. -/
def execApertureRead (module offset size : Nat) (s : State) : Out := s.hostAction module (.apertureRead module offset size) <| fun s =>
  match s.hostAccess module offset size false with
  | (some l, t) =>
    let bs := l.flatMap (fun (e : Nat × Nat) => t.hostBytes e.1 e.2)
    t.hostRun module (.apertureRead module offset size) l
      { t.setModule module { t.module module with reads := (t.module module).reads ++ [some bs] } with free := t.free + size }
  | (none, t) => (t.setModule module { t.module module with reads := (t.module module).reads ++ [none] })

/-- The bytes of a host write go to its runs. -/
def State.hostStore (s : State) : List (Nat × Nat) → List Byte → State
  | [], _ => s
  | (pa, n) :: r, bs => State.hostStore (writeUnits s pa (bs.take n)).1 r (bs.drop n)

/-- APERTURE_WRITE (R430, R431): a refused write is dropped and counted. -/
def execApertureWrite (module offset : Nat) (data : List Byte) (s : State) : Out := s.hostAction module (.apertureWrite module offset data) <| fun s =>
  match s.hostAccess module offset data.length true with
  | (some l, t) => t.hostRun module (.apertureWrite module offset data) l (t.hostStore l data)
  | (none, t) => (t.setModule module { t.module module with droppedWrites := (t.module module).droppedWrites + 1 })

/-! Receipt (R435, R444). -/

/-- A slot of the receive ring: the layout of R66, with the kind as its metadata word. -/
def receiveSlot (m : Packet) : List Byte :=
  bytesOfWord m.w0 ++ bytesOfWord m.w1 ++ bytesOfNat 8 (kindOf m) ++ bytesOfNat 8 0 ++ fit 256 0 ((bytesOf m).take (32 * beatsOf m))

/-- HOST_PORT_RECEIVE (R435): an arrival is written to the receive ring, or held while the ring is full, or while 64 unmarked records are pending in sealed-output mode (R444). -/
def execHostPortReceive (m : Packet) (s : State) : Out :=
  let n := nodeModule (destOf m)
  let x := s.module n
  let unmarked := x.sealed && decide (0 < beatsOf m)
  if !x.held.isEmpty ∨ x.rx.isFull ∨ (unmarked ∧ 64 ≤ x.engine.records.length) then .next (s.setModule n { x with held := x.held ++ [m] })
  else
    let s1 := { s.setModule n { x with rx := { x.rx with tail := (x.rx.tail + 1) % 2 ^ 32 }, interrupts := x.interrupts ++ [1] } with
      hostMem := Memory.writeN s.hostMem (x.rx.base + x.rx.tail % x.rx.size * 288) (receiveSlot m) }
    let s2 := if kindOf m = 0 ∧ hidxOf m < 0xE0 then s1.onJob (jobOf m) (fun j => { j with hostRecv := j.hostRecv + 1 }) else s1
    let s3 := if unmarked then s2.addUnmarked n m else s2
    .next (if m.tag = 0 then s3 else s3.answer m 0)

end Sys2Proof.Machine
end

