-- ==== Sys2Proof/Machine/Integer.lean ====
section
/-! DEFINITION. Integer, field, key and node instructions: opcodes 0x10 to 0x3D (R210 to R219). -/

namespace Sys2Proof.Machine

/-- A two-source instruction of Table 9-3. -/
def State.alu2 (s : State) (p : BitVec 4) (op : Nat) (d a b : BitVec 5) (x y : BitVec 1) (f : Word → Word → Word) : Out :=
  s.issueG p op [gsrcE a x, gsrcE b y] d (fun s => f (s.regs.gval a.toNat) (s.regs.gval b.toNat))

/-- An immediate form of R211. -/
def State.aluI (s : State) (p : BitVec 4) (op : Nat) (d a : BitVec 5) (f : Word → Word) : Out :=
  s.issueG p op [gsrc a] d (fun s => f (s.regs.gval a.toNat))

/-- A one-source instruction of R213. -/
def State.alu1 (s : State) (p : BitVec 4) (op : Nat) (d a : BitVec 5) (x : BitVec 1) (f : Word → Word) : Out :=
  s.issueG p op [gsrcE a x] d (fun s => f (s.regs.gval a.toNat))

/-- Shift and rotate amounts are the low six bits of b (R210). -/
def shiftAmount (b : Word) : Nat := b.toNat % 64

/-- Bits 127 to 64 of the signed product (R210). -/
def mulHigh (a b : Word) : Word := wordOfInt ((a.toInt * b.toInt) / 2 ^ 64)

/-- Bits 127 to 64 of the unsigned product (R210). -/
def mulHighN (a b : Word) : Word := wordOf (a.toNat * b.toNat / 2 ^ 64)

/-- The quotient rounded toward zero, 0 for a divisor of 0 (R212). -/
def divSigned (a b : Word) : Word := if b = 0 then 0 else wordOfInt (Int.tdiv a.toInt b.toInt)

/-- The remainder with the sign of a; a for a divisor of 0 (R212). -/
def remSigned (a b : Word) : Word := if b = 0 then a else wordOfInt (Int.tmod a.toInt b.toInt)

def divUnsigned (a b : Word) : Word := if b = 0 then 0 else wordOf (a.toNat / b.toNat)

def remUnsigned (a b : Word) : Word := if b = 0 then a else wordOf (a.toNat % b.toNat)

/-- The smaller and the larger, signed and unsigned (R210). -/
def minSigned (a b : Word) : Word := if a.toInt ≤ b.toInt then a else b
def maxSigned (a b : Word) : Word := if b.toInt ≤ a.toInt then a else b
def minUnsigned (a b : Word) : Word := if a.toNat ≤ b.toNat then a else b
def maxUnsigned (a b : Word) : Word := if b.toNat ≤ a.toNat then a else b

/-- Zero bits above the highest one bit (R213). -/
def countLeading (a : Word) : Word := wordOf (lowestBit ((List.range 64).foldl (fun x k => x * 2 + bitNat (flagOf a k)) 0) 64)

/-- Zero bits below the lowest one bit (R213). -/
def countTrailing (a : Word) : Word := wordOf (lowestBit a.toNat 64)

/-- The low bit and the width of the field that register b names, cut at bit 63 (R214). -/
def fieldSpec (b : Word) : Nat × Nat :=
  let lo := fieldOf b 5 0
  let hi := min (lo + fieldOf b 13 8) 63
  (lo, hi - lo + 1)

def fieldExtract (a b : Word) : Word := wordOf (bitsW a.toNat (fieldSpec b).1 (fieldSpec b).2)

def fieldExtractSigned (a b : Word) : Word := wordOfInt (signExt (bitsW a.toNat (fieldSpec b).1 (fieldSpec b).2) (fieldSpec b).2)

def fieldInsert (d a b : Word) : Word := wordOf (insertW d.toNat (fieldSpec b).1 (fieldSpec b).2 a.toNat)

/-- Sat of R11. -/
def saturate (x lo hi : Int) : Int := if x < lo then lo else if hi < x then hi else x

/-- SATI with its seven immediate bits: n - 1 in [5:0], .n in [6] (R216). -/
def saturateWord (a : Word) (i : Nat) : Word :=
  let n := i % 64 + 1
  if bitAt i 6 then wordOfInt (saturate a.toInt 0 (2 ^ n - 1))
  else wordOfInt (saturate a.toInt (-(2 ^ (n - 1))) (2 ^ (n - 1) - 1))

/-- WKF and WKF.pre with their immediate: L in [2:0], .pre in [3] (R217). -/
def keyField (d a : Word) (i : Nat) : Word :=
  let l := i % 8
  if wkLevels d < l then 0
  else if bitAt i 3 then
    let top := wkLow d 0 + wkWidth d 0
    wordOf (bitsW a.toNat (wkLow d l) (top - wkLow d l) * 2 ^ wkLow d l)
  else wordOf (bitsW a.toNat (wkLow d l) (wkWidth d l))

/-- WKS (R217). -/
def keySet (d a b : Word) (l : Nat) : Word :=
  if wkLevels d < l then a else wordOf (insertW a.toNat (wkLow d l) (wkWidth d l) b.toNat)

/-- ADD (R210). -/
def execAdd (p : BitVec 4) (d a b : BitVec 5) (x y : BitVec 1) (s : State) : Out :=
  s.alu2 p 0x10 d a b x y (fun a b => a + b)

/-- SUB (R210). -/
def execSub (p : BitVec 4) (d a b : BitVec 5) (x y : BitVec 1) (s : State) : Out :=
  s.alu2 p 0x12 d a b x y (fun a b => a - b)

/-- MUL (R210). -/
def execMul (p : BitVec 4) (d a b : BitVec 5) (x y : BitVec 1) (s : State) : Out :=
  s.alu2 p 0x13 d a b x y (fun a b => a * b)

/-- MULH (R210). -/
def execMulh (p : BitVec 4) (d a b : BitVec 5) (x y : BitVec 1) (s : State) : Out :=
  s.alu2 p 0x15 d a b x y (mulHigh)

/-- MULHN (R210). -/
def execMulhn (p : BitVec 4) (d a b : BitVec 5) (x y : BitVec 1) (s : State) : Out :=
  s.alu2 p 0x16 d a b x y (mulHighN)

/-- AND (R210). -/
def execAnd (p : BitVec 4) (d a b : BitVec 5) (x y : BitVec 1) (s : State) : Out :=
  s.alu2 p 0x1B d a b x y (fun a b => a &&& b)

/-- ANDN (R210). -/
def execAndn (p : BitVec 4) (d a b : BitVec 5) (x y : BitVec 1) (s : State) : Out :=
  s.alu2 p 0x1D d a b x y (fun a b => a &&& ~~~b)

/-- OR (R210). -/
def execOr (p : BitVec 4) (d a b : BitVec 5) (x y : BitVec 1) (s : State) : Out :=
  s.alu2 p 0x1E d a b x y (fun a b => a ||| b)

/-- XOR (R210). -/
def execXor (p : BitVec 4) (d a b : BitVec 5) (x y : BitVec 1) (s : State) : Out :=
  s.alu2 p 0x20 d a b x y (fun a b => a ^^^ b)

/-- SHL (R210). -/
def execShl (p : BitVec 4) (d a b : BitVec 5) (x y : BitVec 1) (s : State) : Out :=
  s.alu2 p 0x22 d a b x y (fun a b => a <<< shiftAmount b)

/-- SHR (R210). -/
def execShr (p : BitVec 4) (d a b : BitVec 5) (x y : BitVec 1) (s : State) : Out :=
  s.alu2 p 0x24 d a b x y (fun a b => a >>> shiftAmount b)

/-- SAR (R210). -/
def execSar (p : BitVec 4) (d a b : BitVec 5) (x y : BitVec 1) (s : State) : Out :=
  s.alu2 p 0x26 d a b x y (fun a b => a.sshiftRight (shiftAmount b))

/-- ROT (R210). -/
def execRot (p : BitVec 4) (d a b : BitVec 5) (x y : BitVec 1) (s : State) : Out :=
  s.alu2 p 0x28 d a b x y (fun a b => a.rotateRight (shiftAmount b))

/-- MIN (R210). -/
def execMin (p : BitVec 4) (d a b : BitVec 5) (x y : BitVec 1) (s : State) : Out :=
  s.alu2 p 0x29 d a b x y (minSigned)

/-- MAX (R210). -/
def execMax (p : BitVec 4) (d a b : BitVec 5) (x y : BitVec 1) (s : State) : Out :=
  s.alu2 p 0x2A d a b x y (maxSigned)

/-- MINN (R210). -/
def execMinn (p : BitVec 4) (d a b : BitVec 5) (x y : BitVec 1) (s : State) : Out :=
  s.alu2 p 0x2B d a b x y (minUnsigned)

/-- MAXN (R210). -/
def execMaxn (p : BitVec 4) (d a b : BitVec 5) (x y : BitVec 1) (s : State) : Out :=
  s.alu2 p 0x2C d a b x y (maxUnsigned)

/-- DIV (R212). -/
def execDiv (p : BitVec 4) (d a b : BitVec 5) (x y : BitVec 1) (s : State) : Out :=
  s.alu2 p 0x17 d a b x y (divSigned)

/-- DIVN (R212). -/
def execDivn (p : BitVec 4) (d a b : BitVec 5) (x y : BitVec 1) (s : State) : Out :=
  s.alu2 p 0x18 d a b x y (divUnsigned)

/-- REM (R212). -/
def execRem (p : BitVec 4) (d a b : BitVec 5) (x y : BitVec 1) (s : State) : Out :=
  s.alu2 p 0x19 d a b x y (remSigned)

/-- REMN (R212). -/
def execRemn (p : BitVec 4) (d a b : BitVec 5) (x y : BitVec 1) (s : State) : Out :=
  s.alu2 p 0x1A d a b x y (remUnsigned)

/-- BFX (R214). -/
def execBfx (p : BitVec 4) (d a b : BitVec 5) (x y : BitVec 1) (s : State) : Out :=
  s.alu2 p 0x31 d a b x y (fieldExtract)

/-- BFXS (R214). -/
def execBfxs (p : BitVec 4) (d a b : BitVec 5) (x y : BitVec 1) (s : State) : Out :=
  s.alu2 p 0x32 d a b x y (fieldExtractSigned)

/-- ADDI (R211). -/
def execAddi (p : BitVec 4) (d a : BitVec 5) (i : BitVec 10) (s : State) : Out :=
  s.aluI p 0x11 d a (fun v => v + wordOfInt i.toInt)

/-- MULI (R211). -/
def execMuli (p : BitVec 4) (d a : BitVec 5) (i : BitVec 10) (s : State) : Out :=
  s.aluI p 0x14 d a (fun v => v * wordOfInt i.toInt)

/-- ANDI (R211). -/
def execAndi (p : BitVec 4) (d a : BitVec 5) (i : BitVec 10) (s : State) : Out :=
  s.aluI p 0x1C d a (fun v => v &&& wordOf i.toNat)

/-- ORI (R211). -/
def execOri (p : BitVec 4) (d a : BitVec 5) (i : BitVec 10) (s : State) : Out :=
  s.aluI p 0x1F d a (fun v => v ||| wordOf i.toNat)

/-- XORI (R211). -/
def execXori (p : BitVec 4) (d a : BitVec 5) (i : BitVec 10) (s : State) : Out :=
  s.aluI p 0x21 d a (fun v => v ^^^ wordOf i.toNat)

/-- SHLI (R211). -/
def execShli (p : BitVec 4) (d a : BitVec 5) (i : BitVec 10) (s : State) : Out :=
  s.aluI p 0x23 d a (fun v => v <<< i.toNat)

/-- SHRI (R211). -/
def execShri (p : BitVec 4) (d a : BitVec 5) (i : BitVec 10) (s : State) : Out :=
  s.aluI p 0x25 d a (fun v => v >>> i.toNat)

/-- SARI (R211). -/
def execSari (p : BitVec 4) (d a : BitVec 5) (i : BitVec 10) (s : State) : Out :=
  s.aluI p 0x27 d a (fun v => v.sshiftRight i.toNat)

/-- ABS (R213). -/
def execAbs (p : BitVec 4) (d a : BitVec 5) (x : BitVec 1) (s : State) : Out :=
  s.alu1 p 0x2D d a x (fun v => if v.toInt < 0 then 0 - v else v)

/-- CLZ (R213). -/
def execClz (p : BitVec 4) (d a : BitVec 5) (x : BitVec 1) (s : State) : Out :=
  s.alu1 p 0x2E d a x (countLeading)

/-- CTZ (R213). -/
def execCtz (p : BitVec 4) (d a : BitVec 5) (x : BitVec 1) (s : State) : Out :=
  s.alu1 p 0x2F d a x (countTrailing)

/-- POPC (R213). -/
def execPopc (p : BitVec 4) (d a : BitVec 5) (x : BitVec 1) (s : State) : Out :=
  s.alu1 p 0x30 d a x (fun v => wordOf (popCount v.toNat 64))

/-- MOV (R213). -/
def execMov (p : BitVec 4) (d a : BitVec 5) (x : BitVec 1) (s : State) : Out :=
  s.alu1 p 0x34 d a x (fun v => v)

/-- BFI, which reads its destination (R214). -/
def execBfi (p : BitVec 4) (d a b : BitVec 5) (x y : BitVec 1) (s : State) : Out :=
  s.issueG p 0x33 [gsrcE a x, gsrcE b y, gsrc d] d
    (fun s => fieldInsert (s.regs.gval d.toNat) (s.regs.gval a.toNat) (s.regs.gval b.toNat))

/-- MOVL (R215). -/
def execMovl (p : BitVec 4) (d : BitVec 5) (i : BitVec 15) (s : State) : Out :=
  s.issueG p 0x35 [] d (fun _ => wordOfInt i.toInt)

/-- MOVH, which reads its destination (R215). -/
def execMovh (p : BitVec 4) (d : BitVec 5) (i : BitVec 15) (s : State) : Out :=
  s.issueG p 0x36 [gsrc d] d (fun s => s.regs.gval d.toNat <<< 15 ||| wordOf i.toNat)

/-- SEL: s [2:0] names the predicate and s [3] negates it (R216). -/
def execSel (p : BitVec 4) (d a b : BitVec 5) (t : BitVec 4) (s : State) : Out :=
  s.issueG p 0x37 [gsrc a, gsrc b] d
    (fun s => if s.regs.pred (t.toNat % 8) != bitAt t.toNat 3 then s.regs.gval a.toNat else s.regs.gval b.toNat)

/-- ADDX (R210). -/
def execAddx (p : BitVec 4) (d a b : BitVec 5) (x y : BitVec 1) (k : BitVec 3) (s : State) : Out :=
  s.alu2 p 0x38 d a b x y (fun a b => a + b <<< k.toNat)

/-- SATI (R216). -/
def execSati (p : BitVec 4) (d a : BitVec 5) (i : BitVec 7) (s : State) : Out :=
  s.aluI p 0x39 d a (fun v => saturateWord v i.toNat)

/-- WKF (R217). -/
def execWkf (p : BitVec 4) (d a : BitVec 5) (i : BitVec 4) (s : State) : Out :=
  s.issueG p 0x3A [gsrc a] d (fun s => keyField s.myCore.wkdesc (s.regs.gval a.toNat) i.toNat)

/-- WKS (R217). -/
def execWks (p : BitVec 4) (d a b : BitVec 5) (l : BitVec 3) (s : State) : Out :=
  s.issueG p 0x3B [gsrc a, gsrc b] d (fun s => keySet s.myCore.wkdesc (s.regs.gval a.toNat) (s.regs.gval b.toNat) l.toNat)

/-- NODE (R218). -/
def execNode (p : BitVec 4) (d a b c : BitVec 5) (s : State) : Out :=
  s.issue p 0x3C [gsrc a, gsrc b, gsrc c] [.g d.toNat false] (fun s =>
    match s.formNode (s.regs.gval a.toNat).toNat (s.regs.gval b.toNat).toNat (s.regs.gval c.toNat).toNat with
    | .ok n => .ok (s.setRegs (s.regs.setG d.toNat (wordOf n)))
    | .error n => .error (badDestination n))

/-- MOVM: input a, selector i (R219). -/
def execMovm (p : BitVec 4) (d a : BitVec 5) (i : BitVec 10) (s : State) : Out :=
  s.issue p 0x3D [] [.g d.toNat false] (fun s =>
    match s.input a.toNat with
    | none => .ok (s.setRegs (s.regs.setG d.toNat 0))
    | some m =>
      if i.toNat = 32 then .ok (s.setRegs (s.regs.setG d.toNat (s.inputKey m)))
      else if i.toNat = 33 then .ok (s.setRegs (s.regs.setG d.toNat (s.inputHeader m)))
      else
        .ok (s.setRegs (s.regs.loadG d.toNat (payloadWord m i.toNat) (payloadPoison m i.toNat))))

end Sys2Proof.Machine
end

