-- ==== Sys2Proof/Machine/Matrix.lean ====
section
/-! DEFINITION. The outer-product matrix array: its cells and leases, the MX instructions, opcodes 0x80 to 0x89, and the fire of a tumbler (R39, R40, R282 to R307). -/

namespace Sys2Proof.Machine

/-! Checks that the core makes at issue, and the array for a chain (R297, R303 to R307). -/

/-- The matrix-command fault, with the register at fault (R299). -/
def badMatrix (reg : Nat) : Stop := .trap 0x0B none (some (wordOf (reg % 32)))

/-- A matrix operand meets its layout, or raises the matrix-command fault (R299). -/
def needMatrix (reg : Nat) (ok : Bool) : Res Unit := if ok then .ok () else .error (badMatrix reg)

/-- A store right fails (R35). -/
def badStore (sel off op : Nat) : Stop := .trap 0x07 (some (wordOf (sel * 0x100000 + off))) (some (wordOf (sel + op * 256)))

/-- A store range fails (R27). -/
def badRange : Stop := .trap 0x06 none none

/-- The core of number n of quad QC of the cluster at (x, y) (R284). -/
def clusterCore (module x y qc n : Nat) : Nat := coreNode module (x + qc % 2) (y + qc / 2) n

/-- Coordinates of the first quad of a core's cluster. -/
def clusterX (node : Nat) : Nat := nodeX node / 2 * 2
def clusterY (node : Nat) : Nat := nodeY node / 2 * 2

/-- Coordinates of the first quad of the cluster that a panel's quad lies in (R292). -/
def panelX (node : Nat) (w : Word) : Nat := if flagOf w 24 then nodeX node / 4 * 4 + fieldOf w 26 25 % 2 * 2 else clusterX node
def panelY (node : Nat) (w : Word) : Nat := if flagOf w 24 then nodeY node / 4 * 4 + fieldOf w 26 25 / 2 * 2 else clusterY node

/-- The source quad of a panel word (R291, R292). -/
def panelQuad (node : Nat) (w : Word) : Nat := clusterCore (nodeModule node) (panelX node w) (panelY node w) (fieldOf w 23 22) 0

/-- Every quad of a panel's cluster lies in the job's rectangle (R292). -/
def inRectangle (pl : Word) (x y : Nat) : Bool :=
  decide (plBX pl ≤ x) && decide (x + 2 ≤ plBX pl + plWX pl) && decide (plBY pl ≤ y) && decide (y + 2 ≤ plBY pl + plWY pl)

/-- A panel word (R303). -/
def State.checkPanel (s : State) (node op : Nat) (w : Word) (reg : Nat) : Res Unit := do
  needMatrix reg (fieldOf w 63 47 == 0)
  needMatrix reg (fieldOf w 4 0 == 0 && fieldOf w 31 27 == 0)
  if fieldOf w 21 20 = 0 ∨ fieldOf w 21 20 = 3 then .error (badStore (fieldOf w 21 20) (fieldOf w 19 0) op)
  if flagOf w 24 then
    if inRectangle (s.core node).plbase (panelX node w) (panelY node w) then .ok () else .error (badDestination (panelQuad node w))
  else needMatrix reg (fieldOf w 26 25 == 0)

/-- A window word (R299). -/
def checkWindow (w : Word) (reg : Nat) : Res Unit :=
  needMatrix reg (!flagOf w 7 && !flagOf w 15 && fieldOf w 63 32 == 0 &&
    decide (winRow w + winRows w ≤ 128) && decide (winCol w + winCols w ≤ 256))

/-- A header template of the message forms (R16, R295); a handler context may not name a handler index of 0xE0 or above (R149). -/
def State.checkTemplate (s : State) (handler : Bool) (w : Word) (reg : Nat) : Res Unit := do
  needMatrix reg (!flagOf w 57 && !flagOf w 41 && fieldOf w 30 0 == 0)
  if !goodNode s.present (fieldOf w 63 42) then .error (badDestination (fieldOf w 63 42))
  else if handler ∧ 0xE0 ≤ fieldOf w 38 31 then .error (.trap 0x02 none none)
  else .ok ()

/-- A destination word of a drain to C: its layout, then the range of R27, then the right (R35, R295, R305). -/
def checkDrain (op sub : Nat) (a b : Word) (ra rb : Nat) : Res Unit := do
  let size := if bitAt sub 0 then 2 else 4
  let row := winCols a * size
  needMatrix rb (fieldOf b 63 40 == 0 && fieldOf b 4 0 == 0)
  needMatrix ra (row % 32 == 0)
  needMatrix rb (fieldOf b 39 24 % 32 == 0 && decide (row ≤ fieldOf b 39 24))
  if storeSize (fieldOf b 21 20) < fieldOf b 19 0 + (winRows a - 1) * fieldOf b 39 24 + row then .error badRange
  if fieldOf b 21 20 ≠ 3 then .error (badStore (fieldOf b 21 20) (fieldOf b 19 0) op)

/-- The count of keys of a sort, and the bytes of its source (R296, R307). -/
def sortCount (w : Word) : Nat := fieldOf w 31 24 + 1
def sortBytes (sub : Nat) (w : Word) : Nat := 4 * sortCount w + (if bitAt sub 2 then 2 * sortCount w else 0)

/-- A source word of a sort: its layout, then the range of R27, then the right (R35, R307). -/
def checkSort (op sub : Nat) (a : Word) (ra : Nat) : Res Unit := do
  needMatrix ra (fieldOf a 63 56 == 0 && decide (fieldOf a 39 32 ≤ fieldOf a 31 24))
  needMatrix ra (fieldOf a 4 0 == 0)
  if storeSize (fieldOf a 21 20) < fieldOf a 19 0 + sortBytes sub a then .error badRange
  if fieldOf a 21 20 = 0 ∨ fieldOf a 21 20 = 3 then .error (badStore (fieldOf a 21 20) (fieldOf a 19 0) op)

/-- The limits of a counted command's operands, of a handler context or not (R303 to R307). -/
def State.checkCommand (s : State) (handler : Bool) (node code sub : Nat) (a b : Word) (ra rb : Nat) : Res Unit :=
  match code with
  | 0x83 | 0x84 => s.checkPanel node code a ra
  | 0x85 => do checkWindow a ra; needMatrix rb (fieldOf b 63 16 == 0)
  | 0x86 => checkWindow a ra
  | 0x87 => do
    checkWindow a ra
    if bitAt sub 1 then do
      needMatrix ra (winCol a % drainGroup sub == 0 && winCols a % drainGroup sub == 0)
      s.checkTemplate handler b rb
    else checkDrain code sub a b ra rb
  | 0x88 => needMatrix ra (sub == 1 || (!flagOf a 7 && fieldOf a 63 16 == 0))
  | 0x89 => do checkSort code sub a ra; s.checkTemplate handler b rb
  | _ => .ok ()

/-! The MX instructions (R287, R299 to R307). -/

/-- The no-hasp fault (R287). -/
def noHasp (reason : Nat) : Stop := .trap 0x48 none (some (wordOf reason))

/-- A LEASE is buffered that has not been committed (R300). -/
def State.leaseHeld (s : State) : Bool := s.held.any (fun e => match e with
  | .msg m _ _ _ => isMatrix m && mxCode m == 0x80
  | _ => false)

/-- The hasp state at issue: a LEASE that is not committed yet counts as requested (R287, R307). -/
def State.haspNow (s : State) : Hasp := if s.leaseHeld then .requested else s.me.hasp

/-- What a command that requires the hasp does before anything else (R287). -/
def State.checkHasp (s : State) : Res Unit :=
  match s.haspNow with
  | .requested => .error .wait
  | .held => if s.me.haspCnt < 64 then .ok () else .error (noHasp 2)
  | .none => .error (noHasp 1)
  | .lost => .error (noHasp 3)

/-- The course of an MX instruction: a pending report, the job's MX field and the hasp come before its operands (R287, R294). -/
def State.issueMx (s : State) (p : BitVec 4) (op : Nat) (hasp : Bool) (srcs dsts : List Operand) (body : State → Res State) : Out :=
  if s.regs.qualified p then
    match s.me.report with
    | some r => .next ((s.setMe { s.me with report := none }).settle (.error (.trap 0x49 none (some r))))
    | none =>
      .next (s.settle (do
        if !s.myRecord.mx then .error (noHasp 4)
        if hasp then s.checkHasp
        s.regs.checkSources op srcs
        let t ← body s
        s.regs.checkDests dsts
        pure t))
  else .next s.advance

/-- A command record of the current context. -/
def State.mxCommand (s : State) (record : List Word) : Packet := withFlags s.regs.flags (mxPacket s.cur s.curCtx s.me.jobid s.me.invser record)

/-- A command is buffered, with a reply slot where it fills a register (R289, R299). -/
def State.bufferMx (s : State) (d code sub : Nat) (ans : Answer) (a b c : Word) : Res State :=
  if d = 0 then s.buffer (.msg (s.mxCommand (mxRecord code sub none a b c)) none plainAnswer none)
  else s.bufferCommand d ans (fun sel => s.mxCommand (mxRecord code sub (some sel) a b c))

/-- The counted commands of the lease are raised by one; the open block notes it (R178, R287). -/
def State.countMx (s : State) : State :=
  (s.setMe { s.me with haspCnt := s.me.haspCnt + 1 }).onBlock (fun b => { b with counted := b.counted + 1 })

/-- A counted command, with a completion reply to register d where d is not 0 (R299). -/
def State.countedMx (s : State) (p : BitVec 4) (code sub : Nat) (d a b : BitVec 5) (two : Bool) (ans : Answer) : Out :=
  s.issueMx p code true (if two then [gsrc a, gsrc b] else [gsrc a]) [.g d.toNat false] (fun s => do
    let x := s.regs.gval a.toNat
    let y := if two then s.regs.gval b.toNat else 0
    s.checkCommand (!s.isSystem) s.cur code sub x y a.toNat b.toNat
    let t ← s.bufferMx d.toNat code sub ans x y 0
    pure t.countMx)

/-- A counted command whose register d is a key that is read (R305, R307). -/
def State.keyedMx (s : State) (p : BitVec 4) (code sub : Nat) (d a b : BitVec 5) : Out :=
  s.issueMx p code true [gsrc d, gsrc a, gsrc b] [] (fun s => do
    let x := s.regs.gval a.toNat
    let y := s.regs.gval b.toNat
    s.checkCommand (!s.isSystem) s.cur code sub x y a.toNat b.toNat
    let t ← s.bufferMx 0 code sub plainAnswer x y (s.regs.gval d.toNat)
    pure t.countMx)

/-- MX.LEASE and MX.LEASE.nb (R300). -/
def execMxLease (p : BitVec 4) (d : BitVec 5) (n : BitVec 1) (s : State) : Out :=
  s.issueMx p 0x80 false [] [.g d.toNat false] (fun s =>
    if s.haspNow = .requested ∨ s.haspNow = .held then .error (badMatrix d.toNat)
    else s.bufferMx d.toNat 0x80 n.toNat (.lease (n == 1)) 0 0 0)

/-- MX.REL (R301): without a hasp it departs nothing. -/
def execMxRel (p : BitVec 4) (s : State) : Out :=
  s.issueMx p 0x81 false [] [] (fun s =>
    if s.haspNow = .none ∨ s.haspNow = .lost then .ok s else s.bufferMx 0 0x81 0 plainAnswer 0 0 0)

/-- MX.CTX (R302). -/
def execMxCtx (p : BitVec 4) (a : BitVec 5) (s : State) : Out :=
  s.issueMx p 0x82 false [gsrc a] [] (fun s => do
    let x := s.regs.gval a.toNat
    needMatrix a.toNat (fieldOf x 63 9 == 0)
    s.bufferMx 0 0x82 0 plainAnswer x 0 0)

/-- MX.A (R303). -/
def execMxA (p : BitVec 4) (d a : BitVec 5) (s : State) : Out := s.countedMx p 0x83 0 d a 0 false .matrix

/-- MX.B (R303). -/
def execMxB (p : BitVec 4) (d a : BitVec 5) (s : State) : Out := s.countedMx p 0x84 0 d a 0 false .matrix

/-- MX.RUN (R304). -/
def execMxRun (p : BitVec 4) (d a b : BitVec 5) (s : State) : Out := s.countedMx p 0x85 0 d a b true .matrix

/-- MX.ZERO (R304). -/
def execMxZero (p : BitVec 4) (d a : BitVec 5) (s : State) : Out := s.countedMx p 0x86 0 d a 0 false .matrix

/-- MX.DRAIN and MX.DRAIN.bf16 (R305). -/
def execMxDrain (p : BitVec 4) (d a b : BitVec 5) (t : BitVec 1) (s : State) : Out := s.countedMx p 0x87 t.toNat d a b true .matrix

/-- MX.DRAIN.msg and MX.DRAIN.msg.bf16 (R305). -/
def execMxDrainMsg (p : BitVec 4) (d a b : BitVec 5) (t : BitVec 1) (s : State) : Out := s.keyedMx p 0x87 (t.toNat + 2) d a b

/-- MX.RAW.cell (R306). -/
def execMxRawCell (p : BitVec 4) (d a : BitVec 5) (s : State) : Out := s.countedMx p 0x88 0 d a 0 false (.raw false)

/-- MX.RAW.stat (R306). -/
def execMxRawStat (p : BitVec 4) (d : BitVec 5) (s : State) : Out := s.countedMx p 0x88 1 d 0 0 false (.raw true)

/-- MX.SORT: sub [0] .dn, [1] .i32, [2] .ix (R307). -/
def execMxSort (p : BitVec 4) (d a b : BitVec 5) (t : BitVec 3) (s : State) : Out := s.keyedMx p 0x89 t.toNat d a b

/-! The course of a command at an array (R123, R290). -/

/-- A command arrives: it is acknowledged and joins the queue of its context (R111, R290). -/
def State.acceptMx (s : State) (m : Packet) : State :=
  let node := destOf m
  let c := s.cluster node
  let touch (l : MxLease) : MxLease := if l.holds m then { l with touched := s.clk } else l
  let c1 := { c.setQueue (mxQueue m) (c.queue (mxQueue m) ++ [{ m with counted := true }]) with lease := c.lease.map touch }
  ((s.setCluster node c1).answer m 0).pump node

/-- A record of a chain. -/
def isChainRecord (m : Packet) : Bool := m.ctx == 15

/-- The command is the next of its queue, or of the chain. -/
def Cluster.heads (c : Cluster) (m : Packet) : Bool :=
  if isChainRecord m then (c.lease.bind (fun (l : MxLease) => l.chain.head?)) == some m else (c.queue (mxQueue m)).head? == some m

/-- The state with a command taken from its queue, or from the chain. -/
def State.takeCommand (s : State) (m : Packet) : State :=
  let node := destOf m
  let c := s.cluster node
  s.setCluster node (if isChainRecord m then { c with lease := c.lease.map (fun (l : MxLease) => { l with chain := l.chain.drop 1 }) }
    else c.setQueue (mxQueue m) ((c.queue (mxQueue m)).drop 1))

/-- The course of a command at the array: on its way it joins its queue, and at the head of it its work is done. -/
def State.performMx (s : State) (m : Packet) (work : State → State) : Out :=
  let c := s.cluster (destOf m)
  if !m.counted then .next (s.acceptMx m)
  else if c.finishing.isNone ∧ c.heads m then .next (work (s.takeCommand m))
  else .next s

/-! The hasp of a context. -/

/-- The context still runs the invocation that a lease or a LEASE belongs to (R286, R294). -/
def State.sameInvocation (s : State) (node k : Nat) (inv : Word) : Bool :=
  (s.ctx node k).invocation.isSome && (s.ctx node k).invser == inv

/-- The hasp of an invocation passes from one state to another (R286, R287). -/
def State.turnHasp (s : State) (node k : Nat) (inv : Word) (old new : Hasp) : State :=
  let x := s.ctx node k
  if s.sameInvocation node k inv ∧ x.hasp = old then s.setCtx node k { x with hasp := new, haspCnt := if new = .held then 0 else x.haspCnt } else s

/-- The lease of an array ends (R286). -/
def State.endLease (s : State) (node : Nat) : State := s.setCluster node { s.cluster node with lease := none }

/-! LEASE, CTX and REL at the array. -/

/-- LEASE_REQUEST (R300): the .nb form is refused while a lease is active or a slot waits; otherwise the request waits in its slot. -/
def execLeaseRequest (m : Packet) (s : State) : Out :=
  let node := destOf m
  let c := s.cluster node
  if !m.counted then .next (s.acceptMx m)
  else if !c.heads m ∨ c.waits m ∨ c.finishing.isSome then .next s
  else if mxSub m % 2 = 1 ∧ (c.lease.isSome ∨ c.anyWaiting) then
    .next (((s.takeCommand m).turnHasp m.src m.ctx m.inv .requested .none).doneMx m [0])
  else
    let k := slotOf m.src
    let x := c.slot k
    .next ((s.setCluster node (c.setSlot k { x with waiting := x.waiting ++ [.lease m] })).pump node)

/-- ARRAY_CTX (R302). -/
def execArrayCtx (m : Packet) (s : State) : Out :=
  s.performMx m (fun s =>
    let node := destOf m
    let c := s.cluster node
    let k := slotOf m.src
    (s.setCluster node (c.setSlot k { c.slot k with format := wordOf (fieldOf (mxA m) 8 0) })).doneMx m [])

/-- ARRAY_REL (R286): the release of the holder ends the lease. -/
def execArrayRel (m : Packet) (s : State) : Out :=
  s.performMx m (fun s =>
    let node := destOf m
    let held := ((s.cluster node).lease.map (fun (l : MxLease) => l.holds m)).getD false
    (if held then s.endLease node else s).doneMx m [])

/-! Reports and flags (R294, R298). -/

/-- Trouble of a command: cause, KBLK, SIDE, row and column (Table 12-4). -/
structure MxReport where
  cause : Nat
  kb : Nat := 0
  side : Nat := 0
  row : Nat := 0
  col : Nat := 0
deriving DecidableEq, Repr

/-- TRAPINFO of a report (Table 12-4). -/
def MxReport.word (r : MxReport) (code : Nat) : Word :=
  wordOf (r.cause + r.kb % 65536 * 2 ^ 4 + r.side * 2 ^ 20 + r.row * 2 ^ 21 + r.col * 2 ^ 28 + code * 2 ^ 36)

/-- The core of a slot of an array (R284). -/
def arrayX (node : Nat) : Nat := nodeDie node % 4 * 20 + nodeIndex node % 10 * 2
def arrayY (node : Nat) : Nat := nodeDie node / 4 * 30 + nodeIndex node / 10 * 2
def coreOfSlot (node slot : Nat) : Nat := clusterCore (nodeModule node) (arrayX node) (arrayY node) (slot / 4) (slot % 4)

/-- A context of the slot's core has a report that is not delivered (R294). -/
def Core.reportPending (c : Core) : Bool := c.ctxs.any (fun (x : Ctx) => x.report.isSome)

/-- A report is sent to the holder's context, or as a notice to the slot's core (R294). -/
def State.reportMx (s : State) (l : MxLease) (array code : Nat) (r : MxReport) : State :=
  let node := coreOfSlot array l.slot
  let s1 := s.setMxFlags node ((s.cluster array).slot l.slot).flags.toNat
  if (s1.core node).reportPending then s1
  else
    match l.holder with
    | some (n, k) =>
      if s1.sameInvocation n k l.inv then s1.setCtx n k { s1.ctx n k with report := some (r.word code) }
      else s1.notice node 0x4A k 0 (r.word code)
    | none => s1.notice node 0x4A 15 0 (r.word code)

/-- The sticky flags of a slot with more raised (R293). -/
def State.stickMx (s : State) (array slot : Nat) (f : BitVec 5) : State :=
  let c := s.cluster array
  let x := c.slot slot
  s.setCluster array (c.setSlot slot { x with flags := x.flags ||| f })

/-- What the work of a counted command leaves: the state, its trouble, whether it was performed, and a result in place of its status. -/
structure MxWork where
  state : State
  report : Option MxReport := none
  status : Nat := 0
  value : Option Word := none
  /-- Messages that it has sent. -/
  sent : Nat := 0

/-- The parity errors that the array has met are reported with the command that finds them (R392, R294; log 91). -/
def State.reportParity (s : State) (l : MxLease) (array code : Nat) : State :=
  let c := s.cluster array
  c.parity.foldl (fun (t : State) e => t.reportMx l array code { cause := 5, kb := e.2.2, row := e.1, col := e.2.1 })
    (s.setCluster array { c with parity := [] })

/-- A counted command under a lease (R285, R286, R299): its work, its report, the end of the lease after the 64th or the last of a chain, and its reply, once its messages are accepted (R111, R413). -/
def State.countedWork (s : State) (m : Packet) (work : State → MxLease → MxWork) : Out :=
  s.performMx m (fun s =>
    let node := destOf m
    match (s.cluster node).lease with
    | none => s
    | some l =>
      let w := work s l
      let s0 := w.state.reportParity l node (mxCode m)
      let s1 := match w.report with
        | some r => s0.reportMx l node (mxCode m) r
        | none => s0
      let c := s1.cluster node
      let l1 := (c.lease.getD l)
      let l2 := { l1 with count := l1.count + 1, touched := s.clk }
      let ended := if l2.holder.isNone then l2.chain.isEmpty else decide (64 ≤ l2.count)
      let s2 := s1.setCluster node { c with lease := if ended then none else some l2 }
      let pay : List Word := [w.value.getD (wordOf w.status), wordOf (c.slot l.slot).flags.toNat]
      if w.sent = 0 then s2.doneMx m pay else s2.setCluster node { s2.cluster node with awaited := w.sent, finishing := some (m, pay) })

/-- ARRAY_PANEL (R291, R303). -/
def execArrayPanel (m : Packet) (s : State) : Out :=
  s.countedWork m (fun s l =>
    let node := destOf m
    let l1 := if mxCode m = 0x83 then { l with panelA := some (mxA m) } else { l with panelB := some (mxA m) }
    { state := s.setCluster node { s.cluster node with lease := some l1 } })

/-! Cells (R282). -/

/-- ACC and KB of a cell. -/
def Cluster.cell (c : Cluster) (r k : Nat) : Nat × Nat := agetD c.cells (256 * r + k) (0, 0)

/-- The cells with those of a window replaced: a row of values for each row of it. -/
def setWindow (old : List (Nat × Nat × Nat)) (r0 nr c0 nc : Nat) (rows : List (List (Nat × Nat))) : List (Nat × Nat × Nat) :=
  let row (e : Nat × Nat × Nat) : Nat := e.1 / 256
  let col (e : Nat × Nat × Nat) : Nat := e.1 % 256
  let put (r : Nat) (l : List (Nat × Nat)) : List (Nat × Nat × Nat) :=
    ((l.zipIdx c0).map (fun e => (256 * r + e.2, e.1))).filter (fun e => e.2 != (0, 0))
  old.filter (fun e => decide (row e < r0)) ++
  (rows.zipIdx r0).flatMap (fun e =>
    old.filter (fun x => row x == e.2 && decide (col x < c0)) ++ put e.2 e.1 ++
    old.filter (fun x => row x == e.2 && decide (c0 + nc ≤ col x))) ++
  old.filter (fun e => decide (r0 + nr ≤ row e))

/-- ARRAY_ZERO (R304). -/
def execArrayZero (m : Packet) (s : State) : Out :=
  s.countedWork m (fun s _ =>
    let node := destOf m
    let c := s.cluster node
    let w := mxA m
    let rows := List.replicate (winRows w) []
    { state := s.setCluster node { c with cells := setWindow c.cells (winRow w) (winRows w) (winCol w) (winCols w) rows } })

/-! The block sum (R293). -/

/-- A provenance NaN (Table 4-6). -/
def provNan (arith poison side kb : Nat) : Nat := 0x7FC00000 + arith * 2 ^ 19 + 2 ^ 18 + poison * 2 ^ 17 + side * 2 ^ 16 + kb % 65536

/-- One block of an operand: its 32 mantissas, its exponent, and whether it holds poison. -/
structure MxBlock where
  mant : List Int
  exp : Nat
  bad : Bool
deriving DecidableEq, Repr

/-- The widths and formats of a format context, and its flush (Table 12-1). -/
structure MxFormat where
  wa : Nat
  intA : Bool
  wb : Nat
  intB : Bool
  ftz : Bool
deriving DecidableEq, Repr

def mxFormat (w : Word) : MxFormat := ⟨fieldOf w 2 0 + 2, flagOf w 3, fieldOf w 6 4 + 2, flagOf w 7, flagOf w 8⟩

/-- WA or WB is 7 (Table 12-1). -/
def MxFormat.invalid (f : MxFormat) : Bool := f.wa == 9 || f.wb == 9

/-- The scale of a block: E - 127 - (w - 2), or 0 for integers (R288, R293). -/
def blockScale (w : Nat) (int : Bool) (e : Nat) : Int := if int then 0 else (e : Int) - 127 - ((w : Int) - 2)

/-- ACC and KB of a cell, the flags raised, and the first poison or NaN block: its block, KB and side (log 57). -/
structure CellRun where
  acc : Nat
  kb : Nat
  flags : BitVec 5 := 0
  first : Option (Nat × Nat × Nat) := none
deriving DecidableEq, Repr

/-- One k-block on a cell (R293). -/
def CellRun.block (f : MxFormat) (x : CellRun) (b : Nat) (p q : MxBlock) : CellRun :=
  let kb := (x.kb + 1) % 65536
  let mark (poison side : Nat) : CellRun :=
    { x with acc := provNan 0 poison side x.kb, kb := kb
             first := if x.first.isNone then some (b, x.kb, side) else x.first }
  if f32.isNan x.acc then { x with kb := kb }
  else if p.bad then mark 1 0
  else if q.bad then mark 1 1
  else if !f.intA ∧ p.exp = 0xFF then mark 0 0
  else if !f.intB ∧ q.exp = 0xFF then mark 0 1
  else
    let sum := ((p.mant.zip q.mant).map (fun e => e.1 * e.2)).sum
    let md : FpMode := ⟨0, f.ftz⟩
    let (v, f1) := f32.roundInt md sum (blockScale f.wa f.intA p.exp + blockScale f.wb f.intB q.exp) false
    let (n, f2) := f32.add md false x.acc v
    if f32.isNan n then { x with acc := provNan 1 0 0 x.kb, kb := kb, flags := x.flags ||| f1 ||| flagNV }
    else { x with acc := n, kb := kb, flags := x.flags ||| f1 ||| f2 }

/-- All k-blocks on a cell. -/
def runCell (f : MxFormat) (cell : Nat × Nat) (row col : List MxBlock) : CellRun :=
  (((row.zip col).zipIdx).foldl (fun x e => x.block f e.2 e.1.1 e.1.2) { acc := cell.1, kb := cell.2 })

/-- The mantissas of 32 fields of w bits (R85). -/
def mantissas (w x : Nat) : List Int := (List.range 32).map (fun i => signExt (x / 2 ^ (w * i)) w)

/-- Block b of line i of a panel, where a block of a panel has `stride` lines (R291). -/
def State.panelBlock (s : State) (quad : Nat) (w : Word) (width stride : Nat) (int : Bool) (b i : Nat) : MxBlock :=
  let base := fieldOf w 21 20 * 0x100000
  let ma := localPhys quad (base + fieldOf w 19 0) + (b * stride + i) * 4 * width
  let ea := localPhys quad (base + fieldOf w 46 27) + b * stride + i
  { mant := mantissas width (natOfBytes (Memory.readN s.mem ma (4 * width)))
    exp := if int then 0 else (Memory.read s.mem ea).toNat
    bad := anyPoison s ma (4 * width) || (!int && anyPoison s ea 1) }

/-- The reads of a run from a panel pass the end of its store (Table 12-4, cause 2). -/
def panelPasses (w : Word) (width stride : Nat) (int : Bool) (k top : Nat) : Bool :=
  let lines := (k - 1) * stride + top
  decide (0x80000 < fieldOf w 19 0 + lines * 4 * width) || (!int && decide (0x80000 < fieldOf w 46 27 + lines))

/-- The lines of a panel that a run reads, each with its K blocks. -/
def State.panelLines (s : State) (array : Nat) (w : Word) (width stride : Nat) (int : Bool) (k first n : Nat) : List (List MxBlock) :=
  let quad := panelQuad (coreOfSlot array 0) w
  (List.range n).map (fun i => (List.range k).map (fun b => s.panelBlock quad w width stride int b (first + i)))

/-- The first offending cell of a run: the lowest b, then row, then column (R294). -/
def firstPoison (l : List (Nat × Nat × CellRun)) : Option MxReport :=
  let hits := l.filterMap (fun e => e.2.2.first.map (fun (x : Nat × Nat × Nat) => (x.1, ({ cause := 1, kb := x.2.1, side := x.2.2, row := e.1, col := e.2.1 } : MxReport))))
  (hits.foldl (fun (a : Option (Nat × MxReport)) h => match a with
    | some y => if h.1 < y.1 then some h else some y
    | none => some h) none).map (·.2)

/-- A run over a window with both panels set (R293, R304). -/
def State.runWindow (s : State) (array : Nat) (l : MxLease) (f : MxFormat) (pa pb w : Word) (k : Nat) : MxWork :=
  let c := s.cluster array
  let rows := s.panelLines array pa f.wa 128 f.intA k (winRow w) (winRows w)
  let cols := s.panelLines array pb f.wb 256 f.intB k (winCol w) (winCols w)
  let out := (rows.zipIdx (winRow w)).map (fun r => (cols.zipIdx (winCol w)).map (fun q =>
    (r.2, q.2, runCell f (c.cell r.2 q.2) r.1 q.1)))
  let values := out.map (fun r => r.map (fun e => (e.2.2.acc, e.2.2.kb)))
  let flags := (out.flatten).foldl (fun a e => a ||| e.2.2.flags) 0
  let s1 := s.setCluster array { c with cells := setWindow c.cells (winRow w) (winRows w) (winCol w) (winCols w) values }
  { state := s1.stickMx array l.slot flags, report := firstPoison out.flatten }

/-- ARRAY_RUN (R293, R304): an invalid format context, a missing panel or a panel that passes its store is reported, and nothing is performed (R294). Where cause 3 and cause 2 both apply, cause 3 is reported: the model's DESIGN CHOICE (log 111). -/
def execArrayRun (m : Packet) (s : State) : Out :=
  s.countedWork m (fun s l =>
    let array := destOf m
    let f := mxFormat ((s.cluster array).slot l.slot).format
    let w := mxA m
    let k := fieldOf (mxB m) 15 0 + 1
    let no (cause : Nat) : MxWork := { state := s, report := some { cause := cause }, status := 1 }
    if f.invalid then no 3
    else
      match l.panelA, l.panelB with
      | some pa, some pb =>
        if panelPasses pa f.wa 128 f.intA k (winRow w + winRows w) ∨ panelPasses pb f.wb 256 f.intB k (winCol w + winCols w) then no 2
        else s.runWindow array l f pa pb w k
      | _, _ => no 2)

/-! Drains (R295). -/

/-- An element that a drain writes, and its flags: the bits of ACC, or its conversion to bf16 without a flush. -/
def drainElement (half : Bool) (acc : Nat) : FpResult := if half then convertFloat f32 bf16 ⟨0, false⟩ acc else (acc, 0)

/-- The elements of a row of a window. -/
def Cluster.drainRow (c : Cluster) (half : Bool) (r c0 nc : Nat) : List FpResult :=
  (List.range nc).map (fun k => drainElement half (c.cell r (c0 + k)).1)

/-- The bytes of elements. -/
def elementBytes (half : Bool) (l : List FpResult) : List Byte := l.flatMap (fun e => bytesOfNat (if half then 2 else 4) e.1)

/-- A message that the array forms from a template (R295, R296). -/
def State.arrayMessage (s : State) (array slot job : Nat) (template key : Word) (j beats : Nat) (pay : List Byte) : Packet :=
  let wk := (s.core (coreOfSlot array slot)).wkdesc
  let w0 := putField (putField template 30 19 job) 18 15 beats
  { w0 := w0, w1 := wkPutTag wk key (wkTag wk key + j), payload := fit (4 * beats) 0 (wordsOf pay (4 * beats))
    poison := List.replicate beats false, src := array, aclass := aclassOf array (fieldOf template 63 42), tag := 1 }

/-- ARRAY_DRAIN (R295, R305). -/
def execArrayDrain (m : Packet) (s : State) : Out :=
  s.countedWork m (fun s l =>
    let array := destOf m
    let c := s.cluster array
    let half := bitAt (mxSub m) 0
    let w := mxA m
    let b := mxB m
    let rows := (List.range (winRows w)).map (fun i => (i, c.drainRow half (winRow w + i) (winCol w) (winCols w)))
    let flags := rows.foldl (fun a r => r.2.foldl (fun a e => a ||| e.2) a) 0
    let s1 :=
      if bitAt (mxSub m) 1 then
        let n := drainGroup (mxSub m)
        let g := winCols w / n
        rows.foldl (fun t r => (List.range g).foldl (fun t k =>
          t.send (s.arrayMessage array l.slot (jobOf m) b (mxC m) (r.1 * g + k) 8 (elementBytes half ((r.2.drop (n * k)).take n)))) t) s
      else
        let base := localPhys (clusterCore (nodeModule array) (arrayX array) (arrayY array) (fieldOf b 23 22) 0) (0x300000 + fieldOf b 19 0)
        rows.foldl (fun t r => (writeUnits t (base + r.1 * fieldOf b 39 24) (elementBytes half r.2)).1) s
    { state := s1.stickMx array l.slot flags, sent := if bitAt (mxSub m) 1 then winRows w * (winCols w / drainGroup (mxSub m)) else 0 })

/-! MX.RAW (R306). -/

/-- ARRAY_RAW. The flags that MX.RAW.stat reads are those of MXSTAT from then on, with or without a reply (R306). -/
def execArrayRaw (m : Packet) (s : State) : Out :=
  s.countedWork m (fun s l =>
    let c := s.cluster (destOf m)
    let x := c.slot l.slot
    let (acc, kb) := c.cell (fieldOf (mxA m) 6 0) (fieldOf (mxA m) 15 8)
    { state := if mxSub m = 1 ∧ !mxReplies m ∧ l.holder.isSome then s.setMxFlags m.src x.flags.toNat else s
      value := some (if mxSub m = 1 then wordOf (fieldOf x.format 8 0 + x.flags.toNat * 512) else wordOf (acc + kb * 2 ^ 32)) })

/-! Sort mode (R296). -/

/-- A key of a sort: whether it is ordered as a NaN, its value in the sort's direction, its index, its position and its bits. -/
structure SortKey where
  last : Bool
  value : Int
  index : Nat
  pos : Nat
  bits : Nat
deriving DecidableEq, Repr

/-- The order of keys (R296). -/
def SortKey.before (x y : SortKey) : Bool :=
  if x.last ≠ y.last then y.last
  else if x.value ≠ y.value then decide (x.value < y.value)
  else if x.index ≠ y.index then decide (x.index < y.index)
  else decide (x.pos ≤ y.pos)

/-- Key i of a sort, and whether it is poisoned (R296). An index under .ix whose bytes are poisoned is used with its stored bits and not reported, which is the model's DESIGN CHOICE (log 59). -/
def State.sortKey (s : State) (base sub n ibase i : Nat) : SortKey × Bool :=
  let x := natOfBytes (Memory.readN s.mem (base + 4 * i) 4)
  let bad := anyPoison s (base + 4 * i) 4
  let nan := bad || (!bitAt sub 1 && f32.isNan x)
  let v := if bitAt sub 1 then signExt x 32 else f32.valueKey x
  ({ last := nan
     value := if nan then 0 else if bitAt sub 0 then -v else v
     index := if bitAt sub 2 then natOfBytes (Memory.readN s.mem (base + 4 * n + 2 * i) 2) else (ibase + i) % 65536
     pos := i, bits := x }, bad)

/-- ARRAY_SORT (R296, R307): the first K pairs are sent, and every cell is cleared. -/
def execArraySort (m : Packet) (s : State) : Out :=
  s.countedWork m (fun s l =>
    let array := destOf m
    let a := mxA m
    let quad := clusterCore (nodeModule array) (arrayX array) (arrayY array) (fieldOf a 23 22) 0
    let n := sortCount a
    let keys := (List.range n).map (s.sortKey (localPhys quad (fieldOf a 21 20 * 0x100000 + fieldOf a 19 0)) (mxSub m) n (fieldOf a 55 40))
    let count := fieldOf a 39 32 + 1
    let pairs := ((sortBy SortKey.before (keys.map (·.1))).take count).map (fun k => wordOf (k.bits + k.index * 2 ^ 32))
    let s1 := (List.range ((count + 31) / 32)).foldl (fun t j =>
      let part := (pairs.drop (32 * j)).take 32
      t.send (s.arrayMessage array l.slot (jobOf m) (mxB m) (mxC m) j ((part.length + 3) / 4) (bytesOfWords part))) s
    let c := s1.cluster array
    { state := s1.setCluster array { c with cells := [] }
      report := if keys.any (·.2) then some { cause := 4 } else none
      sent := (count + 31) / 32 })

/-! Arbitration (R285, R286, R297). -/

/-- Slots after the slot of the last lease, ascending modulo 16 (R285). -/
def Cluster.grantSlot (c : Cluster) : Option Nat :=
  ((List.range 16).map (fun k => (c.last + 1 + k) % 16)).find? (fun k => !(c.slot k).waiting.isEmpty)

/-- Largest sub field of a counted command that a chain may hold (Table 12-6). -/
def chainSub (code : Nat) : Option Nat :=
  match code with
  | 0x83 | 0x84 | 0x85 | 0x86 => some 0
  | 0x87 => some 3
  | 0x89 => some 7
  | _ => none

/-- A record of a chain is valid (R297). -/
def State.chainValid (s : State) (node : Nat) (m : Packet) : Bool :=
  match chainSub (mxCode m) with
  | some k => decide (mxSub m ≤ k) && !mxReplies m && (fieldOf (m.payload.headD 0) 63 22 == 0) &&
      (s.checkCommand false node (mxCode m) (mxSub m) (mxA m) (mxB m) 0 0).toBool
  | none => false

/-- The index of the first record of a chain that is invalid or poisoned. -/
def State.chainFault (s : State) (node : Nat) (l : List Packet) (bad : Option Nat) : Option Nat :=
  (l.zipIdx.find? (fun e => some e.2 == bad || !s.chainValid node e.1)).map (·.2)

/-- LEASE_GRANT (R285, R297, R300). -/
def execLeaseGrant (node : Nat) (s : State) : Out :=
  let c := s.cluster node
  if c.lease.isSome then .next s
  else
    match c.grantSlot with
    | none => .next s
    | some k =>
      let x := c.slot k
      let c1 := { c.setSlot k { x with waiting := x.waiting.drop 1 } with last := k, leases := c.leases + 1 }
      match x.waiting with
      | .lease m :: _ =>
        let l : MxLease := { slot := k, holder := some (m.src, m.ctx), inv := m.inv, name := c.leases, touched := s.clk }
        let s1 := (s.setCluster node { c1 with lease := some l }).after 4096 (.leaseIdleTimeout node c.leases)
        .next (((s1.takeCommand m).turnHasp m.src m.ctx m.inv .requested .held).doneMx m [1])
      | .chain rs bad :: _ =>
        let core := coreOfSlot node k
        match s.chainFault core rs bad with
        | some i => .next (((s.setCluster node c1).notice core 0x4B 15 0 (wordOf (i % 64))).pump node)
        | none =>
          let l : MxLease := { slot := k, holder := none, chain := rs, name := c.leases, touched := s.clk }
          .next ((s.setCluster node { c1 with lease := some l }).pump node)
      | [] => .next s

/-- LEASE_IDLE_TIMEOUT (R286): a lease whose holder has sent nothing for 4,096 clk ends, and the hasp is lost. A command that has been taken up, and whose messages are not accepted yet, is no longer in the queue: the model's DESIGN CHOICE (log 60). -/
def execLeaseIdleTimeout (node name : Nat) (s : State) : Out :=
  let c := s.cluster node
  match c.lease with
  | none => .next s
  | some l =>
    match l.holder with
    | none => .next s
    | some (n, k) =>
      if l.name ≠ name then .next s
      else if !(c.queue (16 * n + k)).isEmpty then .next (s.after 4096 (.leaseIdleTimeout node name))
      else if s.clk < l.touched + 4096 then .next (s.after (l.touched + 4096 - s.clk) (.leaseIdleTimeout node name))
      else .next (((s.endLease node).turnHasp n k l.inv .held .lost).pump node)

/-! The fire of a tumbler (R39, R40, R170, R297). -/

/-- SENT of a core is raised. -/
def State.addSent (s : State) (node n : Nat) : State :=
  let c := s.core node
  s.setCore node { c with sent := c.sent + n }

/-- The records of a chain at an offset of G, as commands of its slot. -/
def State.chainRecords (s : State) (quad core off n : Nat) : List Packet :=
  (List.range n).map (fun k =>
    let pa := localPhys quad (off + 32 * k)
    { mxPacket core 15 (((s.quad quad).job).getD 0) 0 (wordsOf (Memory.readN s.mem pa 32) 4) with counted := true })

/-- A chain is posted to its slot (R297). -/
def State.postChain (s : State) (quad : Nat) (a : ActionRecord) : State :=
  let core := quadOf quad + fieldOf a.hdr 43 42
  let array := clusterOf core
  let n := fieldOf a.ctl 9 4 + 1
  let off := fieldOf a.ptr 17 0
  let rs := s.chainRecords quad core off n
  let bad := (List.range n).find? (fun k => anyPoison s (localPhys quad (off + 32 * k)) 32)
  let s1 := s.addSent core (rs.map recordMessages).sum
  let c := s1.cluster array
  let k := slotOf core
  let x := c.slot k
  (s1.setCluster array (c.setSlot k { x with waiting := x.waiting ++ [.chain rs bad] })).pump array

/-- What a fire does by the record that was read at the fill: its action, or the action-record fault (R40). -/
def State.fireAction (s : State) (quad index : Nat) : Option ActionRecord → State
  | none => s.notice (quadOf quad) 0x62 15 0 (wordOf (index % 512))
  | some a =>
    let act := fieldOf a.ctl 1 0
    if act = 0 then s
    else if act = 2 then s.postChain quad a
    else
      let m := s.firedMessage quad index a
      (s.addSent (quadOf quad) (bitNat (countsSent m))).send m

/-- TUMBLER_FIRE (R40): the first fill of the tumbler that has not fired does. -/
def execTumblerFire (quad index : Nat) (s : State) : Out :=
  let q := s.quad quad
  match q.fires.find? (fun e => e.1 == index) with
  | none => .next s
  | some e => .next ((s.setQuad quad { q with fires := q.fires.erase e }).fireAction quad index e.2)

end Sys2Proof.Machine
end

