-- ==== Sys2Proof/Machine/Repair.lean ====
section
/-! DEFINITION. Soft errors: the scrubber, transient events and a core that is fenced (R42, R45, R48, R119, R390 to R392). -/

namespace Sys2Proof.Machine

/-! Words (R42, R45, R48). -/

/-- Where corrected errors and poison are counted. -/
def State.countCorrected (s : State) (addr : Nat) : State :=
  match placeOf addr with
  | .store q _ _ => s.setQuad q { s.quad q with corrected := (s.quad q).corrected + 1 }
  | .hbm c => s.setMemCore c { s.memCore c with corrected := (s.memCore c).corrected + 1 }
  | .reserved => s

/-- The poison code is written in place, which the quad's log keeps (R42, R45, R48). -/
def State.poisonWord (s : State) (addr : Nat) : State :=
  match placeOf addr with
  | .reserved => s
  | _ => s.addPoison addr

/-- SCRUB (R42, R45, R48): a correctable word is corrected and counted; an uncorrectable one is read again, and poisoned if it stays so. -/
def execScrub (addr : Nat) (found reread : EccState) (s : State) : Out :=
  if isPoisoned s addr then .next s
  else
    match found, reread with
    | .clean, _ => .next s
    | .correctable, _ => .next (s.countCorrected addr)
    | .uncorrectable, .uncorrectable => .next (s.poisonWord addr)
    | .uncorrectable, _ => .next (s.countCorrected addr)

/-! Moves (R119, R390). -/

/-- The invocation of a context moves as a TRETRY with AUTO = 1: it ends as TKILL does where it has passed a COMMIT or its retries are used up, and its entry stays at its queue's head where there is no target (R390). -/
def State.autoMove (s : State) (node k : Nat) : State :=
  let x := s.ctx node k
  match x.invocation with
  | none => s.leaveCtx node k
  | some i =>
    if i.finished then s.killCtx node k
    else if i.consumed then (s.killCtx node k).notice node 0x33 k 0 0
    else if i.retry ≤ i.entry.retries then (s.killCtx node k).notice node 0x69 k 0 (wordOf (i.handler % 256))
    else
      match s.retryTarget node x.jobid 0 true with
      | some t => (s.moveEntry node k t).killCtx node k
      | none =>
        let s1 := s.dropInvocation node k
        ((s1.setCore node ((s1.core node).returnEntry i.entry)).leaveCtx node k).notice node 0x69 k 0 (wordOf (i.handler % 256))

/-! A fenced core (R391). -/

/-- A waiting entry joins the store or the list of another core, by R159; a region without a slot keeps it in the store itself. -/
def State.appendWaiting (s : State) (node : Nat) (a : Waiting) : State :=
  (s.waitEntry node a).getD (let c := s.core node; s.setCore node { c with q := { c.q with store := c.q.store ++ [a] } })

/-- The lists of a core move to another core, each in its order (R391 step 1). -/
def State.moveLists (s : State) (node t : Nat) : State :=
  let c := s.core node
  let s1 := s.emptyCore node
  let s2 := s1.setCore node { s1.core node with hinge := c.hinge }
  let s3 := s2.setDie (dieNode node) ((s2.die (dieNode node)).relist 0 c.hinge.recorded.length)
  let s4 := (List.range 4).foldl (fun (u : State) p =>
    (c.q.queueAt p ++ (c.q.refillAt p).toList ++ c.q.spillAt p).foldl (fun (v : State) e => v.enterOrWait t e) u) s3
  (c.q.store ++ c.q.overflow).foldl (fun (u : State) a => u.appendWaiting t a) (c.q.moved.foldl (fun (u : State) e => u.enterOrWait t e) s4)

/-- A context of a fenced core awaits no result of the patch, and no answer to a request that has not left (R154, R317, R391). -/
def Ctx.lose (x : Ctx) : Ctx :=
  let l := x.slots.filter (fun e => e.2.sent)
  { x with slots := l, results := 0, status := if x.status = .draining ∧ l.isEmpty then .free else x.status }

/-- What a fenced core loses: keys, patch and lattice state, and the effects in its departure queue (R391 step 3); its TLBs hold nothing. -/
def Core.lose (c : Core) : Core :=
  { c with
    ctxs := c.ctxs.map Ctx.lose
    keys := Vector.replicate 64 {}
    patch := { c.patch.cleared with fenced := c.patch.fenced }
    lattice := c.lattice.cleared
    opmap := 0
    departure := []
    pending := []
    sysq := []
    sysHeld := []
    itlb := []
    dtlb := []
    draining := []
    fenced := true }

/-- A core loses its state; shootdowns that waited for its accesses wait no more (R107, R391). -/
def State.loseCore (s : State) (node : Nat) : State :=
  (s.core node).draining.foldl (fun (t : State) (e : Shootdown × List Nat) => t.shootdownAck e.1 (.core node)) (s.setCore node (s.core node).lose)

/-- A core is fenced (R390, R391). -/
def State.fenceFailed (s : State) (node : Nat) : State :=
  let c0 := s.core node
  if c0.fenced then s
  else
    let lost := !c0.departure.isEmpty
    let job := ((s.quad node).job).getD 0
    let live (t : State) (k : Nat) : Bool := (t.ctx node k).status == .live || (t.ctx node k).status == .parked
    let s1 := (List.range 10).foldl (fun (t : State) k => if live t k then t.autoMove node k else t) s
    let s2 := if (s1.ctx node 10).status = .live ∨ (s1.ctx node 10).status = .parked then s1.killCtx node 10 else s1
    let told := s2.complete (nodeModule node) 0x89 0 0 0 (wordOf (node % 65536))
    match told.retryTarget node job 0 true with
    | none => told.loseCore node
    | some t =>
      let sysq := (told.core node).sysq ++ (told.core node).sysHeld
      let s3 := told.moveLists node t
      let s4 := s3.loseCore node
      let q := s4.quad node
      let s5 := s4.setQuad node { q with redirect := aset (q.redirect.map (fun (e : Nat × Nat) => (e.1, if e.2 = node then t else e.2))) node t }
      let s6 := sysq.foldl (fun (u : State) e => u.sysEntry t e) s5
      s6.notice t 0x6A 15 0 (wordOf (node % 2 ^ 22 + bitNat lost * 2 ^ 22))

/-! Transient events (Table 17-2). -/

/-- The third event of a core in 2^20 clk fences it. -/
def State.countTransient (s : State) (node : Nat) : State × Bool :=
  let c := s.core node
  let l := c.transients.filter (fun t => decide (s.clk < t + 2 ^ 20)) ++ [s.clk]
  (s.setCore node { c with transients := l }, decide (3 ≤ l.length))

/-- A parity error discards and re-runs the block; answers whether it is the block's third in the invocation. -/
def State.parityError (s : State) (node k : Nat) : State × Bool :=
  let x := s.ctx node k
  let h := (x.block.map (fun b => b.header)).getD x.pc
  let n := agetD x.parity h 0 + 1
  let s1 := s.setCore node ((s.core node).discardBlock k)
  let y := s1.ctx node k
  (s1.setCtx node k { y with pc := h, parity := aset y.parity h n }, decide (3 ≤ n))

/-- A parity error in a cell of the array: ACC becomes the provenance NaN with ARITH = 1 and POISON = 1 (R392). -/
def State.cellParity (s : State) (node row col : Nat) : State :=
  let a := clusterOf node
  let c := s.cluster a
  let r := row % 128
  let k := col % 256
  let kb := (c.cell r k).2
  s.setCluster a { c with cells := setWindow c.cells r 1 k 1 [[(provNan 1 1 0 kb, kb)]], parity := c.parity ++ [(r, k, kb)] }

/-- TRANSIENT_EVENT (R390), and the parity error of a cell of the core's array (R392), which is no event of the core. -/
def execTransientEvent (node ctx : Nat) (kind : Transient) (s : State) : Out :=
  let (s1, often) := s.countTransient node
  let live := (s1.ctx node ctx).status == .live
  match kind with
  | .departureQueue => .next (s1.fenceFailed node)
  | .parity =>
    let (s2, third) := if live then s1.parityError node ctx else (s1, false)
    .next (if often ∨ third then s2.fenceFailed node else s2)
  | .retireEntry =>
    let s2 := if !live then s1 else if ctx = 10 then s1.killCtx node 10 else s1.autoMove node ctx
    .next (if often then s2.fenceFailed node else s2)
  | .cellParity row col => .next (s.cellParity node row col)

end Sys2Proof.Machine
end

