-- ==== Sys2Proof/Machine/Service.lean ====
section
/-! DEFINITION. Bring-up, service commands, power, cooling, skew and the links (R42, R45, R46, R388, R427, R436, R446, R447, R463, R467 to R474). -/

namespace Sys2Proof.Machine

/-! Firmware images (R467). -/

/-- The fields of an image's header are well formed: format, lengths, and zeros elsewhere. -/
def imageShape (head : List Byte) (len : Nat) : Bool :=
  let w := wordAt head 0
  let n := (wordAt head 8).toNat
  fieldOf w 7 0 == 1 && fieldOf w 63 17 == 0 && n % 4096 == 0 && decide (n ≤ 2 ^ 24) && len == 512 + n &&
  ((head.drop 48).take 80).all (fun b => b == 0)

/-- An image as it comes from the host: the firmware, or the status of its refusal (R467, Table 25-1). -/
def State.readImage (s : State) (n addr len : Nat) : Except Nat Firmware :=
  let head := Memory.readN s.hostMem addr 512
  let code := Memory.readN s.hostMem (addr + 512) (len - 512)
  let w := wordAt head 0
  let hash := (head.drop 16).take 32
  if !imageShape head len ∨ !pssVerify (Config.ferdoumKey n).1 (Config.ferdoumKey n).2 (head.take 128) (head.drop 128) ∨ sha256 code ≠ hash then .error 1
  else if fieldOf w 15 8 < Config.minVersion n then .error 2
  else .ok ⟨fieldOf w 15 8, flagOf w 16, hash⟩

/-- The image that runs. -/
def Module.image (x : Module) : Option Firmware := if x.second then x.slotB else x.slotA

/-! Bring-up (R46, R66, R446, R448, R459, R468). -/

/-- First byte of a stack's HBM. -/
def stackBaseOf (n die : Nat) : Nat := n * 2 ^ 46 + die * 2 ^ 36

/-- Free intervals, each from its first byte to the byte behind its last, without a run that lies in one of them. -/
def carve (l : List (Nat × Nat)) (a n : Nat) : List (Nat × Nat) :=
  l.flatMap (fun (e : Nat × Nat) => if e.1 ≤ a ∧ a + n ≤ e.2 then [(e.1, a), (a + n, e.2)] else [e])

/-- A die as bring-up sets it: its areas, which do not meet, their sizes and its release are the firmware's choice (R66, R448, R459; log 28). -/
def newDie (n die clk k : Nat) : Die :=
  let c (i : Nat) : Nat := Config.openChoice (k + i)
  let base := stackBaseOf n die
  let size := c 0 % (2 ^ 15 + 1)
  let at_ := c 1 % (2 ^ 15 - size + 1)
  let l1 := carve [(0, 2 ^ 36)] (at_ * 2 ^ 21) (size * 2 ^ 21)
  let p := l1.getD (c 2 % l1.length) (0, 0)
  let ring := c 3 % ((p.2 - p.1) / 64 + 1) * 64
  let ringAt := p.1 + c 4 % (p.2 - p.1 - ring + 1)
  let l2 := carve l1 ringAt ring
  let q := l2.getD (c 5 % l2.length) (0, 0)
  let log := c 6 % ((q.2 - q.1) / (2400 * 4096) + 1) * 4096
  let logAt := q.1 + c 7 % (q.2 - q.1 - 2400 * log + 1)
  { regionBase := base + at_ * 2 ^ 21, regionSize := size * 2 ^ 21, ringBase := base + ringAt, ringSize := ring
    replayBase := base + logAt, logSize := log, start := clk - c 8 % (2 ^ 22 + 1)
    closedRanges := [(base + at_ * 2 ^ 21, size * 2 ^ 21), (base + ringAt, ring), (base + logAt, 2400 * log)]
    skews := (List.range 8).map (fun d => if d = die then 0 else 0xFF000000) }

/-- Node of a stack's queue logic. -/
def queueNodeOf (n die : Nat) : Nat := endNode n die 4 0

/-- Every quad store of a module is cleared (R468). -/
def State.clearModule (s : State) (n : Nat) : State :=
  let pa := n * 2 ^ 46 + storeWindows
  { s.dropPoison pa (4800 * 0x200000) with mem := Memory.clear s.mem pa (4800 * 0x200000) }

/-- The firmware brings the module up (R468): the dies, the presence map, the areas, the stores, and its own schedules (R447, R473). Records that wait for it may be placed (R368). -/
def State.bringUp (s : State) (n : Nat) (f : Firmware) : State :=
  let s1 := (List.range 8).foldl (fun (t : State) d => { t.setDie (queueNodeOf n d) (newDie n d t.clk t.free) with free := t.free + 9 }) s
  let s2 := { s1.clearModule n with present := s1.present ||| (1#64 <<< n) }
  let s3 := s2.setModule n { s2.module n with sealed := f.sealed, running := true, slotA := some f, second := false }
  (((List.range 8).foldl (fun (t : State) d => t.after (2 ^ 20) (.skewMeasurement n d)) s3).after (2 ^ 32) (.recalSchedule n 0)).wakePlacers

/-- LOADFW (R467 to R470): at the boot ROM the first valid image is started; later an image goes to the slot that does not run. -/
def execLoadfw (module : Nat) (cmd : List Word) (s : State) : Out :=
  let x := s.module module
  let done (t : State) (st : Nat) : State := t.complete module 0x20 (cmdTarget cmd) st 0 0
  match s.readImage module (cmdA cmd).toNat (cmdB cmd).toNat with
  | .error e => .next (done s e)
  | .ok f =>
    if !x.running then .next (done (s.bringUp module f) 0)
    else if f.sealed ≠ x.sealed then .next (done s 3)
    else .next (done (s.setModule module (if x.second then { x with slotA := some f } else { x with slotB := some f })) 0)

/-- SWAP (R470). -/
def execSwap (module : Nat) (cmd : List Word) (s : State) : Out :=
  s.command module cmd (fun s =>
    let x := s.module module
    match if x.second then x.slotA else x.slotB with
    | some f => (s.setModule module { x with second := !x.second }).complete module 0x21 (cmdTarget cmd) 0 0 (wordOf f.sv)
    | none => s.complete module 0x21 (cmdTarget cmd) 1 0 0)

/-- The quote up to its signature (R471). -/
def quoteBody (n : Nat) (x : Module) (present : BitVec 64) (nonce : List Byte) : List Byte :=
  let f := x.image.getD ⟨0, false, []⟩
  bytesOfNat 8 (1 + (Config.serial n).toNat * 2 ^ 8) ++ nonce ++ fit 32 0 f.hash ++ fit 32 0 (Config.egressKeyHash n) ++
  bytesOfNat 8 (bitNat x.sealed + f.sv % 256 * 2 ^ 8 + bitNat x.second * 2 ^ 16) ++ bytesOfWord present ++ bytesOfNat 8 0

/-- ATTEST (R471). -/
def execAttest (module : Nat) (cmd : List Word) (s : State) : Out :=
  s.command module cmd (fun s =>
    let body := quoteBody module (s.module module) s.present (Memory.readN s.hostMem (cmdA cmd).toNat 32)
    let quote := body ++ s.sign module 1 body
    ({ s with free := s.free + 4, hostMem := Memory.writeN s.hostMem (cmdB cmd).toNat quote }).complete module 0x22 (cmdTarget cmd) 0 0 512)

/-! Fencing (R472). -/

/-- The unit operand of FENCE and UNFENCE. -/
def fenceKind (cmd : List Word) : Nat := fieldOf (cmdA cmd) 2 0
def fenceUnit (cmd : List Word) : Nat := fieldOf (cmdA cmd) 31 8
def fencePort (cmd : List Word) : Nat := fenceUnit cmd % 8
def fenceLane (cmd : List Word) : Nat := fenceUnit cmd / 8 % 32

/-- The unit exists (R469, R472). -/
def fenceExists (cmd : List Word) : Bool :=
  let u := fenceUnit cmd
  if fenceKind cmd = 3 then decide (fencePort cmd < 6) && decide (fenceLane cmd ≤ 16) && decide (u < 256)
  else decide (fenceKind cmd ≤ 5) && decide (u < 2 ^ 15) && decide (nodeX u ≤ 79) && decide (nodeY u ≤ 59)

/-- The quads of a node's cluster (R14). -/
def clusterQuads (node : Nat) : List Nat :=
  let x := nodeX node / 2 * 2
  let y := nodeY node / 2 * 2
  let m := nodeModule node
  [coreNode m x y 0, coreNode m (x + 1) y 0, coreNode m x (y + 1) 0, coreNode m (x + 1) (y + 1) 0]

/-- The quads that a unit is part of, or that are part of it. -/
def fencedQuads (n : Nat) (cmd : List Word) : List Nat :=
  let node := n * 65536 + fenceUnit cmd
  if fenceKind cmd = 2 then clusterQuads node else [quadOf node]

/-- A core, its patch or its lattice goes out of service or comes back; a core out of service holds no translation (R109). -/
def State.fenceCore (s : State) (node : Nat) (core patch lattice on : Bool) : State :=
  let c := s.core node
  s.setCore node { c with
    fenced := if core then on else c.fenced
    itlb := if core then [] else c.itlb
    dtlb := if core then [] else c.dtlb
    patch := if patch then { c.patch with fenced := on } else c.patch
    lattice := if lattice then { c.lattice with fenced := on } else c.lattice }

/-- A quad with its cores, patches and lattices. -/
def State.fenceQuad (s : State) (quad : Nat) (on : Bool) : State :=
  let s1 := s.setQuad quad { s.quad quad with fenced := on }
  (coresOf quad).foldl (fun (t : State) n => t.fenceCore n true true true on) s1

/-- A unit other than a lane. -/
def State.fenceUnitOf (s : State) (n : Nat) (cmd : List Word) (on : Bool) : State :=
  let node := n * 65536 + fenceUnit cmd
  match fenceKind cmd with
  | 0 => s.fenceCore node true false false on
  | 1 => s.fenceQuad (quadOf node) on
  | 2 =>
    let s1 := (clusterQuads node).foldl (fun (t : State) q => t.fenceQuad q on) s
    s1.setCluster (clusterOf node) { s1.cluster (clusterOf node) with fenced := on }
  | 4 => s.fenceCore node false true false on
  | _ => s.fenceCore node false false true on

/-- FENCE (R472). -/
def execServiceFence (module : Nat) (cmd : List Word) (s : State) : Out :=
  s.command module cmd (fun s =>
    let x := s.module module
    let lane := (fencePort cmd, fenceLane cmd)
    let done (t : State) (st : Nat) : State := t.complete module 0x23 (cmdTarget cmd) st 0 0
    if !fenceExists cmd then done s 2
    else if fenceKind cmd = 3 then
      if x.lanes.contains lane then done s 0
      else if x.lanes.any (fun l => l.1 == lane.1) then done s 3
      else done (s.setModule module { x with lanes := x.lanes ++ [lane] }) 0
    else if (fencedQuads module cmd).any (fun q => (s.quad q).job.isSome) then done s 1
    else done (s.fenceUnitOf module cmd true) 0)

/-- UNFENCE (R469, R472): the placers may use the unit again, whichever module a record waits at (R368). -/
def execUnfence (module : Nat) (cmd : List Word) (s : State) : Out :=
  s.command module cmd (fun s =>
    let x := s.module module
    let done (t : State) (st : Nat) : State := t.complete module 0x24 (cmdTarget cmd) st 0 0
    if !fenceExists cmd then done s 2
    else if fenceKind cmd = 3 then done (s.setModule module { x with lanes := x.lanes.filter (fun l => l != (fencePort cmd, fenceLane cmd)) }) 0
    else (done (s.fenceUnitOf module cmd false) 0).wakePlacers)

/-! Recalibration (R473). -/

/-- The memory cores of a stack. -/
def stackCores (n stack : Nat) : List Nat := (List.range 160).map (fun k => endNode n stack 0 k)

/-- The memory cores of a stack pause. -/
def State.pauseStack (s : State) (n stack : Nat) : State :=
  (stackCores n stack).foldl (fun (t : State) c => t.setMemCore c { t.memCore c with paused := true }) s

/-- Arrivals and walks that waited at the memory cores of a stack come before everything else (R102, R473). -/
def State.resumeStack (s : State) (n stack : Nat) : State :=
  let l := (stackCores n stack).flatMap (fun c => (s.memCore c).held.map route ++ (s.memCore c).walkReads.map Event.pageWalkRead)
  ((stackCores n stack).foldl (fun (t : State) c =>
    t.setMemCore c { t.memCore c with paused := false, held := [], walkReads := [] }) s).dueFirst l

/-- The miss entries of a stack's memory cores hold nothing (R473 step 1). -/
def State.stackDrained (s : State) (n stack : Nat) : Bool := (stackCores n stack).all (fun c => (s.memCore c).inFlight == 0)

/-- A stack pauses, unless it is paused already; a RECAL waits for the end. -/
def State.recalibrate (s : State) (n stack : Nat) (waits : List Nat) : State :=
  let x := s.module n
  match aget x.recal stack with
  | some l => s.setModule n { x with recal := aset x.recal stack (l ++ waits) }
  | none => ((s.setModule n { x with recal := aset x.recal stack waits }).pauseStack n stack).due (.stackRecalibrationPauseEnd n stack)

/-- RECAL (R473); a stack above 7 gives an open status (log 23). -/
def execRecal (module : Nat) (cmd : List Word) (s : State) : Out :=
  s.command module cmd (fun s =>
    if 7 < (cmdA cmd).toNat then (s.complete module 0x25 (cmdTarget cmd) (Config.openWord s.free).toNat 0 0).useOpen
    else s.recalibrate module (cmdA cmd).toNat [cmdTarget cmd])

/-- RECAL_SCHEDULE (R473): one stack every 2^32 clk, in turn. -/
def execRecalSchedule (module stack : Nat) (s : State) : Out :=
  .next ((s.recalibrate module (stack % 8) []).after (2 ^ 32) (.recalSchedule module ((stack + 1) % 8)))

/-- STACK_RECALIBRATION_PAUSE_END (R473): 131,072 clk after the stack's miss entries have drained, the memory cores go on where they stopped, and each RECAL that waited completes. -/
def execStackRecalibrationPauseEnd (module stack : Nat) (s : State) : Out :=
  let x := s.module module
  let l := (aget x.recal stack).getD []
  let again (n : Nat) (t : State) : Out := .next (t.after n (.stackRecalibrationPauseEnd module stack))
  match aget x.recalEnd stack with
  | none =>
    if (aget x.recal stack).isNone then .next s
    else if s.stackDrained module stack then again 131072 (s.setModule module { x with recalEnd := aset x.recalEnd stack (s.clk + 131072) })
    else again 1 s
  | some e =>
  if s.clk < e then .next s
  else
  let s1 := (s.setModule module { x with recal := adel x.recal stack, recalEnd := adel x.recalEnd stack }).resumeStack module stack
  let s2 := l.foldl (fun (t : State) j => t.complete module 0x25 j 0 0 0) s1
  let s3 := s2.modules.foldl (fun (t : State) (e : Nat × Module) => t.pumpSeal e.1) s2
  .next (s3.runCollectives (s3.colCount + 1))

/-! Reports (R45, R48, R448, R471). -/

/-- The corrected-error counts of a module's quads and memory cores, and its quads' logs of poisoned words, each behind its node and its length (R45, R48). -/
def State.errorCounts (s : State) (n : Nat) : List Nat :=
  s.quads.flatMap (fun (e : Nat × Quad) => if nodeModule e.1 = n then [e.1, e.2.corrected, e.2.poisonLog.length] ++ e.2.poisonLog else []) ++
  s.memCores.flatMap (fun (e : Nat × MemCore) => if nodeModule e.1 = n then [e.1, e.2.corrected] else [])

/-- HEALTH (R471): it writes the counts and the logs to its buffer of 64 KiB, in a layout that the specification does not give (log 29). -/
def execHealth (module : Nat) (cmd : List Word) (s : State) : Out :=
  s.command module cmd (fun s =>
    let bs := (Config.healthBytes (s.errorCounts module)).take 65536
    ({ s with hostMem := Memory.writeN s.hostMem (cmdA cmd).toNat bs }).complete module 0x26 (cmdTarget cmd) 0 0 (wordOf bs.length))

/-- Bytes of a trace record by its kind (Table 24-3). -/
def recordSize (kind : Nat) : Nat := if kind = 3 ∨ kind = 4 ∨ kind = 5 ∨ kind = 7 ∨ kind = 8 ∨ kind = 9 ∨ kind = 10 then 64 else 32

/-- Whole records from the head of a trace ring, at most n bytes; the first argument bounds their number. -/
def State.ringRecords (s : State) (d : Die) : Nat → Nat → Nat → List Byte
  | 0, _, _ => []
  | t + 1, out, n =>
    let at_ (k : Nat) : Byte := Memory.read s.mem (d.ringBase + (out + k) % d.ringSize)
    let z := recordSize ((at_ 0).toNat % 16)
    if d.ringIn ≤ out ∨ n < z then []
    else (List.range z).map at_ ++ State.ringRecords s d t (out + z) (n - z)

/-- TRACEOUT (R448, R471): whole records go to the host and their space is freed; word B of the command holds the size in [31:0] and the die in [34:32] (log 30). -/
def execTraceout (module : Nat) (cmd : List Word) (s : State) : Out :=
  s.command module cmd (fun s =>
    let node := queueNodeOf module (fieldOf (cmdB cmd) 34 32)
    let size := fieldOf (cmdB cmd) 31 0
    let d := s.die node
    let bs := s.ringRecords d (size / 32) d.ringOut size
    ({ s.setDie node { d with ringOut := d.ringOut + bs.length } with hostMem := Memory.writeN s.hostMem (cmdA cmd).toNat bs }).complete
      module 0x27 (cmdTarget cmd) 0 0 (wordOf bs.length))

/-! Power-up, resets, power and cooling (R427, R468, R474). -/

/-- A schedule of a module's firmware. -/
def firmwareTimer (n : Nat) : Event → Bool
  | .recalSchedule m _ => m == n
  | .skewMeasurement m _ => m == n
  | .stackRecalibrationPauseEnd m _ => m == n
  | .unmarkedManifestSign m => m == n
  | _ => false

/-- Members of a sparse map whose node lies outside a module. -/
def outside {α : Type} (n : Nat) (l : List (Nat × α)) : List (Nat × α) := l.filter (fun (e : Nat × α) => nodeModule e.1 != n)

/-- POWER_UP (R468): every unit of the module is at its reset value, HPSTAT is 0, and the boot ROM serves the command ring. The jobs that it held end, and other modules close their segments (R445). -/
def execPowerUp (module : Nat) (s : State) : Out :=
  let mine (x : Job) : Bool := x.record.modules.contains module || x.port == module
  let s := (s.jobs.filter (fun (e : Nat × Job) => mine e.2)).foldl (fun (t : State) (e : Nat × Job) => (t.dropWaiting e.1).closeJob e.1) s
  .next { s with
    mem := Memory.clear s.mem (module * 2 ^ 46) (2 ^ 46)
    poison := s.poison.filter (fun a => a / 2 ^ 46 != module)
    cores := outside module s.cores
    quads := outside module s.quads
    clusters := outside module s.clusters
    memCores := outside module s.memCores
    dies := outside module s.dies
    modules := aset s.modules module {}
    present := s.present &&& ~~~(1#64 <<< module)
    jobs := s.jobs.map (fun (e : Nat × Job) => (e.1, if mine e.2 then { e.2 with status := .ended, snapshot := none, frozen := false } else e.2))
    turn := s.turn.filter (fun t => nodeModule t.node != module)
    agenda := s.agenda.filter (fun e => !firmwareTimer module e)
    later := s.later.filter (fun (e : Nat × Event) => !firmwareTimer module e.2) }

/-- Every job of a module that is loaded is ended without a snapshot; what still drains is looked at again (R427, R474). -/
def State.endJobsOf (s : State) (n : Nat) : State :=
  let l := s.jobs.filter (fun (e : Nat × Job) => e.2.record.modules.contains n && (e.2.status == .resident || e.2.status == .restoring || e.2.status == .saved || e.2.status == .ending))
  let s1 := l.foldl (fun (t : State) (e : Nat × Job) => (t.stopJob e.1).1) s
  if l.any (fun (e : Nat × Job) => (s1.job e.1).status == .ending) then s1.after 1 (.placement n) else s1

/-- Jobs of a module that wait for the placer end before they are loaded (R427). -/
def State.endWaiting (s : State) (n : Nat) : State :=
  let mine (j : Nat) : Bool := (s.job j).record.modules.contains n || (s.job j).port == n
  let l := (s.modules.flatMap (fun (e : Nat × Module) => e.2.waiting.map (fun (w : Nat × Nat) => w.1))).filter mine
  l.foldl (fun (t : State) j => ((t.dropWaiting j).stopJob j).1) s

/-- A host port with its registers at their reset values, and no command or action of the host left (R427). -/
def Module.portReset (x : Module) : Module :=
  { x with
    cmd := {}, cpl := {}, rx := {}, frm := {}, umbase := 0, injTail := 0, injHead := 0, inject := [], windows := [], tlb := []
    completions := [], commands := [], killing := false, hostWait := [] }

/-- FUNCTION_LEVEL_RESET (R427): every job of the module ends, those that wait for placement too, the registers of the port take their reset values, and sealed-output mode stays. A record that another module's ring brought completes there (R432). -/
def execFunctionLevelReset (module : Nat) (s : State) : Out :=
  let s1 := ((s.setModule module (s.module module).portReset).endWaiting module).endJobsOf module
  .next (s1.setModule module (s1.module module).portReset)

/-- THROTTLE (R474): only time changes. -/
def execThrottle (module : Nat) (on : Bool) (s : State) : Out :=
  .next ((s.setModule module { s.module module with throttled := on }).complete module 0x87 0 0 0 (wordOf (bitNat on)))

/-- A host command of a module. -/
def commandOf (n : Nat) : Event → Bool
  | .launch m _ | .preempt m _ | .cancel m _ | .restore m _ | .kill m _ | .loadfw m _ | .swap m _ | .attest m _ | .serviceFence m _
  | .unfence m _ | .recal m _ | .health m _ | .traceout m _ | .unknownHostCommand m _ => m == n
  | _ => false

/-- Commands of a module that have begun and are not performed yet are its next commands again, so that a hot module performs no LAUNCH and no RESTORE (R474). -/
def State.recallCommands (s : State) (n : Nat) : State :=
  let x := s.module n
  let l := s.agenda.filter (commandOf n)
  (({ s with agenda := s.agenda.filter (fun e => !commandOf n e) }).setModule n { x with commands := l ++ x.commands, killing := x.killing && !l.any isKill }).nextCommands n

/-- OVER_TEMPERATURE (R474). -/
def execOverTemperature (module die : Nat) (s : State) : Out :=
  let s1 := (s.endJobsOf module).complete module 0x88 0 0 0 (wordOf die)
  .next ((s1.setModule module { s1.module module with hot := true }).recallCommands module)

/-- DIES_BELOW_95C (R474): the module takes LAUNCH and RESTORE again, and records that wait for it may be placed (R368). -/
def execDiesBelow95c (module : Nat) (s : State) : Out :=
  .next (((s.setModule module { s.module module with hot := false }).nextCommands module).wakePlacers)

/-! Skew (R446, R447). -/

/-- A measured offset: off by at most its bound, which is at most `most`; outside the range of OFF the nearer limit with ERR 0xFE. -/
def measure (true_ : Int) (most k : Nat) : Word :=
  let e := Config.openChoice k % (most + 1)
  let off := true_ + (Config.openChoice (k + 1) % (2 * e + 1) : Nat) - (e : Int)
  if off < -(2 ^ 23) then wordOf (2 ^ 23 + 0xFE * 2 ^ 24)
  else if 2 ^ 23 - 1 < off then wordOf (2 ^ 23 - 1 + 0xFE * 2 ^ 24)
  else wordOf ((off % 2 ^ 24).toNat + e * 2 ^ 24)

/-- The module behind a Roltin port (R14, Table 1-1). -/
def neighbour (n port : Nat) : Nat :=
  let step (v up : Nat) : Nat := if up = 0 then (v + 1) % 4 else (v + 3) % 4
  let x := n % 4
  let y := n / 4 % 4
  let z := n / 16 % 4
  match port / 2 with
  | 0 => z * 16 + y * 4 + step x (port % 2)
  | 1 => z * 16 + step y (port % 2) * 4 + x
  | _ => step z (port % 2) * 16 + y * 4 + x

/-- SKEW_MEASUREMENT (R447): each offset is measured, the records are emitted, and the next measurement follows 2^20 clk later; a neighbour that is absent is not measured. -/
def execSkewMeasurement (module die : Nat) (s : State) : Out :=
  let node := queueNodeOf module die
  let d := s.die node
  let skew (k : Nat) : Word :=
    if k = die then 0 else measure ((d.start : Int) - ((s.die (queueNodeOf module k)).start : Int)) 4 (s.free + 2 * k)
  let mskew (p : Nat) : Word :=
    let n := neighbour module p
    if bitAt s.present.toNat n then measure ((d.start : Int) - ((s.die (queueNodeOf n 0)).start : Int)) 16 (s.free + 16 + 2 * p) else d.mskews.getD p 0xFF000000
  let s1 := { s.setDie node { d with skews := (List.range 8).map skew, mskews := if die = 0 then (List.range 6).map mskew else d.mskews } with free := s.free + 28 }
  .next ((s1.emitSkew node).after (2 ^ 20) (.skewMeasurement module die))

/-- LINK_RETRY (R436): the flit is sent again, in order, and nothing else happens. -/
def execLinkRetry (_module _port _lane : Nat) (s : State) : Out := .next s

/-! Replay and the system context. -/

/-- REPLAY_TIMEOUT (R463): the entry has been expected for the whole timeout, and no match is present; in a frozen job a core that has diverged does so no more (R465). -/
def execReplayTimeout (node stamp : Nat) (s : State) : Out :=
  let c := s.core node
  if c.dbg.replayWait = some stamp ∧ c.replayMode = 2 ∧ (s.replayHit node c.dbg.replayPos).isNone ∧ !((((s.quad node).job).map s.frozen).getD false && flagOf c.dbg.replayctl 3) then .next (s.diverge node false)
  else .next s

/-- SYSTEM_CONTEXT_RELEASE (R388): a parked system context is resumed at its block, or its entry abandoned. -/
def execSystemContextRelease (node : Nat) (abandon : Bool) (s : State) : Out :=
  if (s.ctx node 10).status ≠ .parked then .next s
  else .next (if abandon then s.killCtx node 10 else s.resumeCtx node 10)

end Sys2Proof.Machine
end

