-- ==== Sys2Proof/Machine/Dispatch.lean ====
section
/-! DEFINITION. One arm for each constructor of Instr, each a direct call of its meaning. -/

namespace Sys2Proof.Machine

def exec (i : Instr) (s : State) : Host.Outcome State Fault Refusal :=
  match i with
  | .nop p => Sys2Proof.Machine.execNop p s
  | .exit p e o => Sys2Proof.Machine.execExit p e o s
  | .call p e o => Sys2Proof.Machine.execCall p e o s
  | .ret p e => Sys2Proof.Machine.execRet p e s
  | .loop p e o => Sys2Proof.Machine.execLoop p e o s
  | .done p => Sys2Proof.Machine.execDone p s
  | .commit p => Sys2Proof.Machine.execCommit p s
  | .yield p j => Sys2Proof.Machine.execYield p j s
  | .trap p d j => Sys2Proof.Machine.execTrap p d j s
  | .bkpt p j => Sys2Proof.Machine.execBkpt p j s
  | .waitf p a u => Sys2Proof.Machine.execWaitf p a u s
  | .empty p d a u => Sys2Proof.Machine.execEmpty p d a u s
  | .exitr p e a => Sys2Proof.Machine.execExitr p e a s
  | .callr p e a => Sys2Proof.Machine.execCallr p e a s
  | .add p d a b x y => Sys2Proof.Machine.execAdd p d a b x y s
  | .addi p d a j => Sys2Proof.Machine.execAddi p d a j s
  | .sub p d a b x y => Sys2Proof.Machine.execSub p d a b x y s
  | .mul p d a b x y => Sys2Proof.Machine.execMul p d a b x y s
  | .muli p d a j => Sys2Proof.Machine.execMuli p d a j s
  | .mulh p d a b x y => Sys2Proof.Machine.execMulh p d a b x y s
  | .mulhn p d a b x y => Sys2Proof.Machine.execMulhn p d a b x y s
  | .div p d a b x y => Sys2Proof.Machine.execDiv p d a b x y s
  | .divn p d a b x y => Sys2Proof.Machine.execDivn p d a b x y s
  | .rem p d a b x y => Sys2Proof.Machine.execRem p d a b x y s
  | .remn p d a b x y => Sys2Proof.Machine.execRemn p d a b x y s
  | .and p d a b x y => Sys2Proof.Machine.execAnd p d a b x y s
  | .andi p d a j => Sys2Proof.Machine.execAndi p d a j s
  | .andn p d a b x y => Sys2Proof.Machine.execAndn p d a b x y s
  | .or p d a b x y => Sys2Proof.Machine.execOr p d a b x y s
  | .ori p d a j => Sys2Proof.Machine.execOri p d a j s
  | .xor p d a b x y => Sys2Proof.Machine.execXor p d a b x y s
  | .xori p d a j => Sys2Proof.Machine.execXori p d a j s
  | .shl p d a b x y => Sys2Proof.Machine.execShl p d a b x y s
  | .shli p d a j => Sys2Proof.Machine.execShli p d a j s
  | .shr p d a b x y => Sys2Proof.Machine.execShr p d a b x y s
  | .shri p d a j => Sys2Proof.Machine.execShri p d a j s
  | .sar p d a b x y => Sys2Proof.Machine.execSar p d a b x y s
  | .sari p d a j => Sys2Proof.Machine.execSari p d a j s
  | .rot p d a b x y => Sys2Proof.Machine.execRot p d a b x y s
  | .min p d a b x y => Sys2Proof.Machine.execMin p d a b x y s
  | .max p d a b x y => Sys2Proof.Machine.execMax p d a b x y s
  | .minn p d a b x y => Sys2Proof.Machine.execMinn p d a b x y s
  | .maxn p d a b x y => Sys2Proof.Machine.execMaxn p d a b x y s
  | .abs p d a x => Sys2Proof.Machine.execAbs p d a x s
  | .clz p d a x => Sys2Proof.Machine.execClz p d a x s
  | .ctz p d a x => Sys2Proof.Machine.execCtz p d a x s
  | .popc p d a x => Sys2Proof.Machine.execPopc p d a x s
  | .bfx p d a b x y => Sys2Proof.Machine.execBfx p d a b x y s
  | .bfxs p d a b x y => Sys2Proof.Machine.execBfxs p d a b x y s
  | .bfi p d a b x y => Sys2Proof.Machine.execBfi p d a b x y s
  | .mov p d a x => Sys2Proof.Machine.execMov p d a x s
  | .movl p d j => Sys2Proof.Machine.execMovl p d j s
  | .movh p d j => Sys2Proof.Machine.execMovh p d j s
  | .sel p d a b u => Sys2Proof.Machine.execSel p d a b u s
  | .addx p d a b x y u => Sys2Proof.Machine.execAddx p d a b x y u s
  | .sati p d a j => Sys2Proof.Machine.execSati p d a j s
  | .wkf p d a j => Sys2Proof.Machine.execWkf p d a j s
  | .wks p d a b u => Sys2Proof.Machine.execWks p d a b u s
  | .node p d a b c => Sys2Proof.Machine.execNode p d a b c s
  | .movm p d a j => Sys2Proof.Machine.execMovm p d a j s
  | .cmp p d a b u => Sys2Proof.Machine.execCmp p d a b u s
  | .cmpi41 p k d a j => Sys2Proof.Machine.execCmpi41 p k d a j s
  | .cmpi42 p k d a j => Sys2Proof.Machine.execCmpi42 p k d a j s
  | .cmpi43 p k d a j => Sys2Proof.Machine.execCmpi43 p k d a j s
  | .pand p d a b u => Sys2Proof.Machine.execPand p d a b u s
  | .por p d a b u => Sys2Proof.Machine.execPor p d a b u s
  | .pxor p d a b u => Sys2Proof.Machine.execPxor p d a b u s
  | .pnot p d a => Sys2Proof.Machine.execPnot p d a s
  | .pmov p d a => Sys2Proof.Machine.execPmov p d a s
  | .gpredPack p d => Sys2Proof.Machine.execGpredPack p d s
  | .gpredUnpack p a x => Sys2Proof.Machine.execGpredUnpack p a x s
  | .gpredNz p d a x => Sys2Proof.Machine.execGpredNz p d a x s
  | .ldN8 p d b o => Sys2Proof.Machine.execLdN8 p d b o s
  | .ldN16 p d b o => Sys2Proof.Machine.execLdN16 p d b o s
  | .ldN32 p d b o => Sys2Proof.Machine.execLdN32 p d b o s
  | .ldN64 p d b o => Sys2Proof.Machine.execLdN64 p d b o s
  | .ldsI8 p d b o => Sys2Proof.Machine.execLdsI8 p d b o s
  | .ldsI16 p d b o => Sys2Proof.Machine.execLdsI16 p d b o s
  | .ldsI32 p d b o => Sys2Proof.Machine.execLdsI32 p d b o s
  | .stN8 p d b o => Sys2Proof.Machine.execStN8 p d b o s
  | .stN16 p d b o => Sys2Proof.Machine.execStN16 p d b o s
  | .stN32 p d b o => Sys2Proof.Machine.execStN32 p d b o s
  | .stN64 p d b o => Sys2Proof.Machine.execStN64 p d b o s
  | .ldv p d b o => Sys2Proof.Machine.execLdv p d b o s
  | .stv p d b o => Sys2Proof.Machine.execStv p d b o s
  | .ldp p d a b x y => Sys2Proof.Machine.execLdp p d a b x y s
  | .stp p d a b x y => Sys2Proof.Machine.execStp p d a b x y s
  | .ldx p d a b x y => Sys2Proof.Machine.execLdx p d a b x y s
  | .stx p d a b x y => Sys2Proof.Machine.execStx p d a b x y s
  | .amo p d a b u => Sys2Proof.Machine.execAmo p d a b u s
  | .rld p d a b x y u => Sys2Proof.Machine.execRld p d a b x y u s
  | .rst p d a b x y u => Sys2Proof.Machine.execRst p d a b x y u s
  | .ramo p d a b u => Sys2Proof.Machine.execRamo p d a b u s
  | .rcpy p a b c => Sys2Proof.Machine.execRcpy p a b c s
  | .vld p d a b x y u => Sys2Proof.Machine.execVld p d a b x y u s
  | .vst p a b x y u => Sys2Proof.Machine.execVst p a b x y u s
  | .vrecl p a b x y u => Sys2Proof.Machine.execVrecl p a b x y u s
  | .fence p j => Sys2Proof.Machine.execFence p j s
  | .qfence p j => Sys2Proof.Machine.execQfence p j s
  | .send p d a b u => Sys2Proof.Machine.execSend p d a b u s
  | .sendv p d a b u => Sys2Proof.Machine.execSendv p d a b u s
  | .reply p a b => Sys2Proof.Machine.execReply p a b s
  | .replySt p a b => Sys2Proof.Machine.execReplySt p a b s
  | .replyKey p a b => Sys2Proof.Machine.execReplyKey p a b s
  | .spawn p d a b u => Sys2Proof.Machine.execSpawn p d a b u s
  | .tinc p a b => Sys2Proof.Machine.execTinc p a b s
  | .tdec p a b => Sys2Proof.Machine.execTdec p a b s
  | .tarm p a b => Sys2Proof.Machine.execTarm p a b s
  | .trd p d a => Sys2Proof.Machine.execTrd p d a s
  | .keya p d => Sys2Proof.Machine.execKeya p d s
  | .keyaNb p d u => Sys2Proof.Machine.execKeyaNb p d u s
  | .keyf p a x => Sys2Proof.Machine.execKeyf p a x s
  | .waitany p d a x => Sys2Proof.Machine.execWaitany p d a x s
  | .waitall p d a x => Sys2Proof.Machine.execWaitall p d a x s
  | .ffr p d a x => Sys2Proof.Machine.execFfr p d a x s
  | .trigger p => Sys2Proof.Machine.execTrigger p s
  | .qpush p d a b u => Sys2Proof.Machine.execQpush p d a b u s
  | .qpop p d a b => Sys2Proof.Machine.execQpop p d a b s
  | .qpopFwd p d a => Sys2Proof.Machine.execQpopFwd p d a s
  | .qpopLen p d a => Sys2Proof.Machine.execQpopLen p d a s
  | .mxLease p d u => Sys2Proof.Machine.execMxLease p d u s
  | .mxRel p => Sys2Proof.Machine.execMxRel p s
  | .mxCtx p a => Sys2Proof.Machine.execMxCtx p a s
  | .mxA p d a => Sys2Proof.Machine.execMxA p d a s
  | .mxB p d a => Sys2Proof.Machine.execMxB p d a s
  | .mxRun p d a b => Sys2Proof.Machine.execMxRun p d a b s
  | .mxZero p d a => Sys2Proof.Machine.execMxZero p d a s
  | .mxDrain p d a b u => Sys2Proof.Machine.execMxDrain p d a b u s
  | .mxDrainMsg p d a b u => Sys2Proof.Machine.execMxDrainMsg p d a b u s
  | .mxRawCell p d a => Sys2Proof.Machine.execMxRawCell p d a s
  | .mxRawStat p d => Sys2Proof.Machine.execMxRawStat p d s
  | .mxSort p d a b u => Sys2Proof.Machine.execMxSort p d a b u s
  | .strmGo p d a b u => Sys2Proof.Machine.execStrmGo p d a b u s
  | .strmExt p d a b => Sys2Proof.Machine.execStrmExt p d a b s
  | .strmStop p d a => Sys2Proof.Machine.execStrmStop p d a s
  | .colRed p d a b => Sys2Proof.Machine.execColRed p d a b s
  | .colBc p d a b => Sys2Proof.Machine.execColBc p d a b s
  | .vadd p d a b t => Sys2Proof.Machine.execVadd p d a b t s
  | .vsub p d a b t => Sys2Proof.Machine.execVsub p d a b t s
  | .vmul p d a b t => Sys2Proof.Machine.execVmul p d a b t s
  | .vfma p d a b t => Sys2Proof.Machine.execVfma p d a b t s
  | .vfms p d a b t => Sys2Proof.Machine.execVfms p d a b t s
  | .vmin p d a b t => Sys2Proof.Machine.execVmin p d a b t s
  | .vmax p d a b t => Sys2Proof.Machine.execVmax p d a b t s
  | .vabs p d a t => Sys2Proof.Machine.execVabs p d a t s
  | .vneg p d a t => Sys2Proof.Machine.execVneg p d a t s
  | .vcmp p d a b t u => Sys2Proof.Machine.execVcmp p d a b t u s
  | .vsel p d a b u => Sys2Proof.Machine.execVsel p d a b u s
  | .vcvt p d a b t u => Sys2Proof.Machine.execVcvt p d a b t u s
  | .vpackb p d a u => Sys2Proof.Machine.execVpackb p d a u s
  | .vunpackb p d a u => Sys2Proof.Machine.execVunpackb p d a u s
  | .vrcpa p d a => Sys2Proof.Machine.execVrcpa p d a s
  | .vrsqa p d a => Sys2Proof.Machine.execVrsqa p d a s
  | .vexp2a p d a => Sys2Proof.Machine.execVexp2a p d a s
  | .vlog2a p d a => Sys2Proof.Machine.execVlog2a p d a s
  | .vsqrt p d a t => Sys2Proof.Machine.execVsqrt p d a t s
  | .vred p d a t u => Sys2Proof.Machine.execVred p d a t u s
  | .vperm p d a b => Sys2Proof.Machine.execVperm p d a b s
  | .vbcast p d a u => Sys2Proof.Machine.execVbcast p d a u s
  | .vidx p d b u => Sys2Proof.Machine.execVidx p d b u s
  | .vcompact p d a => Sys2Proof.Machine.execVcompact p d a s
  | .vexpand p d a => Sys2Proof.Machine.execVexpand p d a s
  | .vand p d a b => Sys2Proof.Machine.execVand p d a b s
  | .vor p d a b => Sys2Proof.Machine.execVor p d a b s
  | .vxor p d a b => Sys2Proof.Machine.execVxor p d a b s
  | .vshl p d a b t u => Sys2Proof.Machine.execVshl p d a b t u s
  | .vshr p d a b t u => Sys2Proof.Machine.execVshr p d a b t u s
  | .viadd p d a b t u => Sys2Proof.Machine.execViadd p d a b t u s
  | .vimul p d a b t u => Sys2Proof.Machine.execVimul p d a b t u s
  | .vmovg p a t u => Sys2Proof.Machine.execVmovg p a t u s
  | .vmovgQ p a u => Sys2Proof.Machine.execVmovgQ p a u s
  | .vmovl p d u => Sys2Proof.Machine.execVmovl p d u s
  | .vmovlQ p d u => Sys2Proof.Machine.execVmovlQ p d u s
  | .vldm p d a b => Sys2Proof.Machine.execVldm p d a b s
  | .vstm p a u => Sys2Proof.Machine.execVstm p a u s
  | .qand p d a b => Sys2Proof.Machine.execQand p d a b s
  | .qor p d a b => Sys2Proof.Machine.execQor p d a b s
  | .qnot p d a => Sys2Proof.Machine.execQnot p d a s
  | .qpopc p a u => Sys2Proof.Machine.execQpopc p a u s
  | .latPatch p a => Sys2Proof.Machine.execLatPatch p a s
  | .latSet p a b u => Sys2Proof.Machine.execLatSet p a b u s
  | .latGet p d a u => Sys2Proof.Machine.execLatGet p d a u s
  | .latRdv p d a u => Sys2Proof.Machine.execLatRdv p d a u s
  | .latInj p a b => Sys2Proof.Machine.execLatInj p a b s
  | .latStep p a b => Sys2Proof.Machine.execLatStep p a b s
  | .latClk p a b => Sys2Proof.Machine.execLatClk p a b s
  | .latRun p a => Sys2Proof.Machine.execLatRun p a s
  | .latStop p a => Sys2Proof.Machine.execLatStop p a s
  | .latSave p a => Sys2Proof.Machine.execLatSave p a s
  | .latRest p a => Sys2Proof.Machine.execLatRest p a s
  | .latStat p d => Sys2Proof.Machine.execLatStat p d s
  | .latStatClr p d => Sys2Proof.Machine.execLatStatClr p d s
  | .mfs p d j => Sys2Proof.Machine.execMfs p d j s
  | .mts p a j => Sys2Proof.Machine.execMts p a j s
  | .tresume p d a => Sys2Proof.Machine.execTresume p d a s
  | .tkill p d a => Sys2Proof.Machine.execTkill p d a s
  | .tretry p d a b => Sys2Proof.Machine.execTretry p d a b s
  | .tlbi p d a b u => Sys2Proof.Machine.execTlbi p d a b u s
  | .tlbp p d a u => Sys2Proof.Machine.execTlbp p d a u s
  | .sealOpen p d a => Sys2Proof.Machine.execSealOpen p d a s
  | .sealFrame p d a b => Sys2Proof.Machine.execSealFrame p d a b s
  | .sealClose p d a => Sys2Proof.Machine.execSealClose p d a s
  | .trcMark p a j => Sys2Proof.Machine.execTrcMark p a j s
  | .trcCtl p d a => Sys2Proof.Machine.execTrcCtl p d a s
  | .watch p a b u => Sys2Proof.Machine.execWatch p a b u s
  | .perfRd p d j => Sys2Proof.Machine.execPerfRd p d j s
  | .cfgLd p a u => Sys2Proof.Machine.execCfgLd p a u s
  | .cfgInv p u => Sys2Proof.Machine.execCfgInv p u s
  | .cfgInvAll p => Sys2Proof.Machine.execCfgInvAll p s
  | .cfgInvCb p => Sys2Proof.Machine.execCfgInvCb p s
  | .cfgBind p d u => Sys2Proof.Machine.execCfgBind p d u s
  | .cfgBindU p d => Sys2Proof.Machine.execCfgBindU p d s
  | .cfgQRes p d => Sys2Proof.Machine.execCfgQRes p d s
  | .cfgQId p d a => Sys2Proof.Machine.execCfgQId p d a s
  | .cfgQRot p d a => Sys2Proof.Machine.execCfgQRot p d a s
  | .cfgQTag p d a => Sys2Proof.Machine.execCfgQTag p d a s
  | .cfgSave p a => Sys2Proof.Machine.execCfgSave p a s
  | .cfgRest p a => Sys2Proof.Machine.execCfgRest p a s
  | .xn n p d a b c => Sys2Proof.Machine.execXn n p d a b c s
  | .blockEntry node ctx => Sys2Proof.Machine.execBlockEntry node ctx s
  | .blockCommit node ctx => Sys2Proof.Machine.execBlockCommit node ctx s
  | .parkingFault node ctx cause addr info => Sys2Proof.Machine.execParkingFault node ctx cause addr info s
  | .vstReservation node ctx => Sys2Proof.Machine.execVstReservation node ctx s
  | .invocationCommit node ctx => Sys2Proof.Machine.execInvocationCommit node ctx s
  | .tumblerFire quad index => Sys2Proof.Machine.execTumblerFire quad index s
  | .departure node => Sys2Proof.Machine.execDeparture node s
  | .handlerMessageArrival m => Sys2Proof.Machine.execHandlerMessageArrival m s
  | .matchOverflowMove node => Sys2Proof.Machine.execMatchOverflowMove node s
  | .spillRefill node pri => Sys2Proof.Machine.execSpillRefill node pri s
  | .dispatch node => Sys2Proof.Machine.execDispatch node s
  | .replySlotFill m => Sys2Proof.Machine.execReplySlotFill m s
  | .acknowledgement m => Sys2Proof.Machine.execAcknowledgement m s
  | .keySetReply m => Sys2Proof.Machine.execKeySetReply m s
  | .boltArrival m => Sys2Proof.Machine.execBoltArrival m s
  | .remoteRead m => Sys2Proof.Machine.execRemoteRead m s
  | .remoteWrite m => Sys2Proof.Machine.execRemoteWrite m s
  | .remoteAtomicAdd m => Sys2Proof.Machine.execRemoteAtomicAdd m s
  | .remoteAtomicAnd m => Sys2Proof.Machine.execRemoteAtomicAnd m s
  | .remoteAtomicOr m => Sys2Proof.Machine.execRemoteAtomicOr m s
  | .remoteAtomicXor m => Sys2Proof.Machine.execRemoteAtomicXor m s
  | .remoteAtomicMin m => Sys2Proof.Machine.execRemoteAtomicMin m s
  | .remoteAtomicMax m => Sys2Proof.Machine.execRemoteAtomicMax m s
  | .remoteAtomicMinn m => Sys2Proof.Machine.execRemoteAtomicMinn m s
  | .remoteAtomicMaxn m => Sys2Proof.Machine.execRemoteAtomicMaxn m s
  | .remoteAtomicSwap m => Sys2Proof.Machine.execRemoteAtomicSwap m s
  | .remoteAtomicCas m => Sys2Proof.Machine.execRemoteAtomicCas m s
  | .versionedRead m => Sys2Proof.Machine.execVersionedRead m s
  | .versionedWrite m => Sys2Proof.Machine.execVersionedWrite m s
  | .versionRetire m => Sys2Proof.Machine.execVersionRetire m s
  | .tumblerIncrement m => Sys2Proof.Machine.execTumblerIncrement m s
  | .tumblerDecrement m => Sys2Proof.Machine.execTumblerDecrement m s
  | .tumblerArm m => Sys2Proof.Machine.execTumblerArm m s
  | .tumblerRead m => Sys2Proof.Machine.execTumblerRead m s
  | .copy m => Sys2Proof.Machine.execCopy m s
  | .copyBeat m => Sys2Proof.Machine.execCopyBeat m s
  | .refusedOperation m => Sys2Proof.Machine.execRefusedOperation m s
  | .go m => Sys2Proof.Machine.execGo m s
  | .ext m => Sys2Proof.Machine.execExt m s
  | .stop m => Sys2Proof.Machine.execStop m s
  | .resume m => Sys2Proof.Machine.execResume m s
  | .pull m => Sys2Proof.Machine.execPull m s
  | .invalidStreamCommand m => Sys2Proof.Machine.execInvalidStreamCommand m s
  | .streamRequestIssue node => Sys2Proof.Machine.execStreamRequestIssue node s
  | .loaderBeatWrite node slot => Sys2Proof.Machine.execLoaderBeatWrite node slot s
  | .storerWrite node slot => Sys2Proof.Machine.execStorerWrite node slot s
  | .strmGoResend node m => Sys2Proof.Machine.execStrmGoResend node m s
  | .pageWalkRead w => Sys2Proof.Machine.execPageWalkRead w s
  | .tlbiReceive unit t => Sys2Proof.Machine.execTlbiReceive unit t s
  | .tlbiComplete t => Sys2Proof.Machine.execTlbiComplete t s
  | .push m => Sys2Proof.Machine.execPush m s
  | .pop m => Sys2Proof.Machine.execPop m s
  | .len m => Sys2Proof.Machine.execLen m s
  | .create m => Sys2Proof.Machine.execCreate m s
  | .destroy m => Sys2Proof.Machine.execDestroy m s
  | .invalidQueueCommand m => Sys2Proof.Machine.execInvalidQueueCommand m s
  | .leaseRequest m => Sys2Proof.Machine.execLeaseRequest m s
  | .leaseGrant cluster => Sys2Proof.Machine.execLeaseGrant cluster s
  | .leaseIdleTimeout cluster stamp => Sys2Proof.Machine.execLeaseIdleTimeout cluster stamp s
  | .arrayCtx m => Sys2Proof.Machine.execArrayCtx m s
  | .arrayPanel m => Sys2Proof.Machine.execArrayPanel m s
  | .arrayZero m => Sys2Proof.Machine.execArrayZero m s
  | .arrayRun m => Sys2Proof.Machine.execArrayRun m s
  | .arrayDrain m => Sys2Proof.Machine.execArrayDrain m s
  | .arrayRaw m => Sys2Proof.Machine.execArrayRaw m s
  | .arraySort m => Sys2Proof.Machine.execArraySort m s
  | .arrayRel m => Sys2Proof.Machine.execArrayRel m s
  | .customOpcodeResult node => Sys2Proof.Machine.execCustomOpcodeResult node s
  | .latticeInstructionPerform node => Sys2Proof.Machine.execLatticeInstructionPerform node s
  | .latticeClockTick node => Sys2Proof.Machine.execLatticeClockTick node s
  | .budgetExpiry node ctx => Sys2Proof.Machine.execBudgetExpiry node ctx s
  | .yieldIntervalEnd node ctx => Sys2Proof.Machine.execYieldIntervalEnd node ctx s
  | .systemEntryTake node => Sys2Proof.Machine.execSystemEntryTake node s
  | .transientEvent node ctx kind => Sys2Proof.Machine.execTransientEvent node ctx kind s
  | .scrub addr found reread => Sys2Proof.Machine.execScrub addr found reread s
  | .placement module => Sys2Proof.Machine.execPlacement module s
  | .initialMessageRelease module job => Sys2Proof.Machine.execInitialMessageRelease module job s
  | .triggerCount m => Sys2Proof.Machine.execTriggerCount m s
  | .endOfJobSweep module job => Sys2Proof.Machine.execEndOfJobSweep module job s
  | .coreSave node => Sys2Proof.Machine.execCoreSave node s
  | .absentQueueReplay die job => Sys2Proof.Machine.execAbsentQueueReplay die job s
  | .cmdtailWrite module tail => Sys2Proof.Machine.execCmdtailWrite module tail s
  | .injtailWrite module tail => Sys2Proof.Machine.execInjtailWrite module tail s
  | .bar0RegisterWrite module offset value => Sys2Proof.Machine.execBar0RegisterWrite module offset value s
  | .apertureRead module offset size => Sys2Proof.Machine.execApertureRead module offset size s
  | .apertureWrite module offset data => Sys2Proof.Machine.execApertureWrite module offset data s
  | .hostPortReceive m => Sys2Proof.Machine.execHostPortReceive m s
  | .unmarkedManifestSign module => Sys2Proof.Machine.execUnmarkedManifestSign module s
  | .launch module cmd => Sys2Proof.Machine.execLaunch module cmd s
  | .preempt module cmd => Sys2Proof.Machine.execPreempt module cmd s
  | .cancel module cmd => Sys2Proof.Machine.execCancel module cmd s
  | .restore module cmd => Sys2Proof.Machine.execRestore module cmd s
  | .kill module cmd => Sys2Proof.Machine.execKill module cmd s
  | .unknownHostCommand module cmd => Sys2Proof.Machine.execUnknownHostCommand module cmd s
  | .loadfw module cmd => Sys2Proof.Machine.execLoadfw module cmd s
  | .swap module cmd => Sys2Proof.Machine.execSwap module cmd s
  | .attest module cmd => Sys2Proof.Machine.execAttest module cmd s
  | .serviceFence module cmd => Sys2Proof.Machine.execServiceFence module cmd s
  | .unfence module cmd => Sys2Proof.Machine.execUnfence module cmd s
  | .recal module cmd => Sys2Proof.Machine.execRecal module cmd s
  | .recalSchedule module stack => Sys2Proof.Machine.execRecalSchedule module stack s
  | .health module cmd => Sys2Proof.Machine.execHealth module cmd s
  | .traceout module cmd => Sys2Proof.Machine.execTraceout module cmd s
  | .sealOpenPerform m => Sys2Proof.Machine.execSealOpenPerform m s
  | .sealFramePerform m => Sys2Proof.Machine.execSealFramePerform m s
  | .sealClosePerform m => Sys2Proof.Machine.execSealClosePerform m s
  | .collectivePerform m => Sys2Proof.Machine.execCollectivePerform m s
  | .linkRetry module port lane => Sys2Proof.Machine.execLinkRetry module port lane s
  | .skewMeasurement module die => Sys2Proof.Machine.execSkewMeasurement module die s
  | .replayTimeout node stamp => Sys2Proof.Machine.execReplayTimeout node stamp s
  | .powerUp module => Sys2Proof.Machine.execPowerUp module s
  | .functionLevelReset module => Sys2Proof.Machine.execFunctionLevelReset module s
  | .throttle module on => Sys2Proof.Machine.execThrottle module on s
  | .overTemperature module die => Sys2Proof.Machine.execOverTemperature module die s
  | .stackRecalibrationPauseEnd module stack => Sys2Proof.Machine.execStackRecalibrationPauseEnd module stack s
  | .systemContextRelease node abandon => Sys2Proof.Machine.execSystemContextRelease node abandon s
  | .diesBelow95c module => Sys2Proof.Machine.execDiesBelow95c module s

end Sys2Proof.Machine
end

