-- ==== Sys2Proof/Machine/Perform.lean ====
section
/-! DEFINITION. The step of the device that is due, by its meaning (log 3). -/

namespace Sys2Proof.Machine

/-- The meaning of a step that is due: that of the constructor of Instr of the same name. -/
def perform (e : Event) (s : State) : Out :=
  match e with
  | .blockEntry node ctx => execBlockEntry node ctx s
  | .blockCommit node ctx => execBlockCommit node ctx s
  | .parkingFault node ctx cause addr info => execParkingFault node ctx cause addr info s
  | .vstReservation node ctx => execVstReservation node ctx s
  | .invocationCommit node ctx => execInvocationCommit node ctx s
  | .tumblerFire quad index => execTumblerFire quad index s
  | .departure node => execDeparture node s
  | .handlerMessageArrival m => execHandlerMessageArrival m s
  | .matchOverflowMove node => execMatchOverflowMove node s
  | .spillRefill node pri => execSpillRefill node pri s
  | .dispatch node => execDispatch node s
  | .replySlotFill m => execReplySlotFill m s
  | .acknowledgement m => execAcknowledgement m s
  | .keySetReply m => execKeySetReply m s
  | .boltArrival m => execBoltArrival m s
  | .remoteRead m => execRemoteRead m s
  | .remoteWrite m => execRemoteWrite m s
  | .remoteAtomicAdd m => execRemoteAtomicAdd m s
  | .remoteAtomicAnd m => execRemoteAtomicAnd m s
  | .remoteAtomicOr m => execRemoteAtomicOr m s
  | .remoteAtomicXor m => execRemoteAtomicXor m s
  | .remoteAtomicMin m => execRemoteAtomicMin m s
  | .remoteAtomicMax m => execRemoteAtomicMax m s
  | .remoteAtomicMinn m => execRemoteAtomicMinn m s
  | .remoteAtomicMaxn m => execRemoteAtomicMaxn m s
  | .remoteAtomicSwap m => execRemoteAtomicSwap m s
  | .remoteAtomicCas m => execRemoteAtomicCas m s
  | .versionedRead m => execVersionedRead m s
  | .versionedWrite m => execVersionedWrite m s
  | .versionRetire m => execVersionRetire m s
  | .tumblerIncrement m => execTumblerIncrement m s
  | .tumblerDecrement m => execTumblerDecrement m s
  | .tumblerArm m => execTumblerArm m s
  | .tumblerRead m => execTumblerRead m s
  | .copy m => execCopy m s
  | .copyBeat m => execCopyBeat m s
  | .refusedOperation m => execRefusedOperation m s
  | .go m => execGo m s
  | .ext m => execExt m s
  | .stop m => execStop m s
  | .resume m => execResume m s
  | .pull m => execPull m s
  | .invalidStreamCommand m => execInvalidStreamCommand m s
  | .streamRequestIssue node => execStreamRequestIssue node s
  | .loaderBeatWrite node slot => execLoaderBeatWrite node slot s
  | .storerWrite node slot => execStorerWrite node slot s
  | .strmGoResend node m => execStrmGoResend node m s
  | .pageWalkRead w => execPageWalkRead w s
  | .tlbiReceive unit t => execTlbiReceive unit t s
  | .tlbiComplete t => execTlbiComplete t s
  | .push m => execPush m s
  | .pop m => execPop m s
  | .len m => execLen m s
  | .create m => execCreate m s
  | .destroy m => execDestroy m s
  | .invalidQueueCommand m => execInvalidQueueCommand m s
  | .leaseRequest m => execLeaseRequest m s
  | .leaseGrant cluster => execLeaseGrant cluster s
  | .leaseIdleTimeout cluster stamp => execLeaseIdleTimeout cluster stamp s
  | .arrayCtx m => execArrayCtx m s
  | .arrayPanel m => execArrayPanel m s
  | .arrayZero m => execArrayZero m s
  | .arrayRun m => execArrayRun m s
  | .arrayDrain m => execArrayDrain m s
  | .arrayRaw m => execArrayRaw m s
  | .arraySort m => execArraySort m s
  | .arrayRel m => execArrayRel m s
  | .customOpcodeResult node => execCustomOpcodeResult node s
  | .latticeInstructionPerform node => execLatticeInstructionPerform node s
  | .latticeClockTick node => execLatticeClockTick node s
  | .budgetExpiry node ctx => execBudgetExpiry node ctx s
  | .yieldIntervalEnd node ctx => execYieldIntervalEnd node ctx s
  | .systemEntryTake node => execSystemEntryTake node s
  | .transientEvent node ctx kind => execTransientEvent node ctx kind s
  | .scrub addr found reread => execScrub addr found reread s
  | .placement module => execPlacement module s
  | .initialMessageRelease module job => execInitialMessageRelease module job s
  | .triggerCount m => execTriggerCount m s
  | .endOfJobSweep module job => execEndOfJobSweep module job s
  | .coreSave node => execCoreSave node s
  | .absentQueueReplay die job => execAbsentQueueReplay die job s
  | .cmdtailWrite module tail => execCmdtailWrite module tail s
  | .injtailWrite module tail => execInjtailWrite module tail s
  | .bar0RegisterWrite module offset value => execBar0RegisterWrite module offset value s
  | .apertureRead module offset size => execApertureRead module offset size s
  | .apertureWrite module offset data => execApertureWrite module offset data s
  | .hostPortReceive m => execHostPortReceive m s
  | .unmarkedManifestSign module => execUnmarkedManifestSign module s
  | .launch module cmd => execLaunch module cmd s
  | .preempt module cmd => execPreempt module cmd s
  | .cancel module cmd => execCancel module cmd s
  | .restore module cmd => execRestore module cmd s
  | .kill module cmd => execKill module cmd s
  | .unknownHostCommand module cmd => execUnknownHostCommand module cmd s
  | .loadfw module cmd => execLoadfw module cmd s
  | .swap module cmd => execSwap module cmd s
  | .attest module cmd => execAttest module cmd s
  | .serviceFence module cmd => execServiceFence module cmd s
  | .unfence module cmd => execUnfence module cmd s
  | .recal module cmd => execRecal module cmd s
  | .recalSchedule module stack => execRecalSchedule module stack s
  | .health module cmd => execHealth module cmd s
  | .traceout module cmd => execTraceout module cmd s
  | .sealOpenPerform m => execSealOpenPerform m s
  | .sealFramePerform m => execSealFramePerform m s
  | .sealClosePerform m => execSealClosePerform m s
  | .collectivePerform m => execCollectivePerform m s
  | .linkRetry module port lane => execLinkRetry module port lane s
  | .skewMeasurement module die => execSkewMeasurement module die s
  | .replayTimeout node stamp => execReplayTimeout node stamp s
  | .powerUp module => execPowerUp module s
  | .functionLevelReset module => execFunctionLevelReset module s
  | .throttle module on => execThrottle module on s
  | .overTemperature module die => execOverTemperature module die s
  | .stackRecalibrationPauseEnd module stack => execStackRecalibrationPauseEnd module stack s
  | .systemContextRelease node abandon => execSystemContextRelease node abandon s
  | .diesBelow95c module => execDiesBelow95c module s

end Sys2Proof.Machine
end

