-- ==== Sys2Proof/Machine/Step.lean ====
section
/-! DEFINITION. One step of the machine: a step of the device that is due, an instruction of the context whose turn it is, the choice of the clk's contexts, or the beginning of a clk (R175, R374; log 3, log 4). -/

namespace Sys2Proof.Machine

/-- The outcome with a function applied to a next state. -/
def Out.map (f : State → State) : Out → Out
  | .next s => .next (f s)
  | .fault r => .fault r
  | .refused r => .refused r

/-- The turn of a context: it enters or commits a block, tries the commit that waits, which its budget may then end (R376, R389), or issues the word of its block that its slot has selected. -/
def takeTurn (t : Turn) (s : State) : Out :=
  if s.me.status ≠ .live then .next s.passOver
  else if t.kind = .block then
    match s.me.block, s.me.commit with
    | some _, _ => perform (.blockCommit t.node t.ctx) s
    | none, none => perform (.blockEntry t.node t.ctx) s
    | none, some c =>
      Out.map (fun u => if s.me.budgetOn ∧ s.me.budgetLeft = 0 then u.due (.budgetExpiry t.node t.ctx) else u)
        (perform (if c.reserved then .invocationCommit t.node t.ctx else .vstReservation t.node t.ctx) s)
  else
    match s.nextWord with
    | none => .next s.passOver
    | some w =>
      match decode w with
      | .ok i => Out.map (fun u => s.taken u t) (exec i s)
      | .error e => .next (s.taken (s.rejectWord w e) t)

/-- One step. -/
def step (s : State) : Host.Outcome State Fault Refusal :=
  match s.agenda with
  | e :: r => perform e { s with agenda := r }
  | [] =>
    match s.turn with
    | t :: r => takeTurn t (s.select t r)
    | [] => if s.picked then .next s.tick else .next s.pick

/-- The state in which an instruction of nbits bits w is the next that step fetches: the only word of the open block of context 0 of core 0, whose turn it is (log 14). -/
def State.withFetchWord (s : State) (nbits w : Nat) : State :=
  let word : BitVec 32 := .ofNat 32 (w % 2 ^ nbits)
  let x := s.ctx 0 0
  { s.setCtx 0 0 { x with status := .live, commit := none, block := some { header := 0, words := [word], entry := x.regs } } with
    agenda := []
    turn := [{ node := 0, ctx := 0, vector := vectorSlot (wordOpcode word), kind := .issue }] }

end Sys2Proof.Machine
end

