-- ==== Sys2Proof/Safety.lean ====
section
/-! DEFINITION. What a safe run is, and the terms in which the statements about single instructions are made. -/

namespace Sys2Proof.Machine

/-- The state after n steps, where each of them answers a next state. -/
def runs : Nat → State → Option State
  | 0, s => some s
  | n + 1, s =>
    match step s with
    | .next t => runs n t
    | _ => none

/-- The first n steps from a state neither fault nor refuse. -/
def Safe (n : Nat) (s : State) : Prop := (runs n s).isSome

/-- Every source is full and no destination is empty, so that an instruction neither waits nor faults on its registers (R182, R200). -/
abbrev Ready (s : State) (srcs dsts : List Operand) : Prop :=
  (∀ o ∈ srcs, s.regs.stateOf o = .full) ∧ ∀ o ∈ dsts, (s.regs.stateOf o).isEmpty = false

/-- The operands of a predicate-qualified instruction are ready and its qualifier is on (R186). -/
abbrev On (s : State) (p : BitVec 4) (srcs dsts : List Operand) : Prop :=
  s.regs.qualified p = true ∧ Ready s srcs dsts

/-- A lane-masked instruction has an active lane and ready operands (R187). -/
abbrev Lanes (s : State) (p : BitVec 4) (srcs dsts : List Operand) : Prop :=
  s.regs.laneMask p ≠ 0 ∧ Ready s srcs dsts

/-- A g register as an operand. -/
abbrev rg {n : Nat} (x : BitVec n) : Operand := .g x.toNat false

/-- A v register as an operand. -/
abbrev rv {n : Nat} (x : BitVec n) : Operand := .v x.toNat false

/-- The instruction is over with one g register written; a write of g0 is discarded (R181). -/
def State.wroteG {n : Nat} (s : State) (d : BitVec n) (w : Word) : State := (s.setRegs (s.regs.setG d.toNat w)).advance

/-- The instruction is over with one predicate written; a write of p0 is discarded (R181). -/
def State.wroteP {n : Nat} (s : State) (d : BitVec n) (b : Bool) : State := (s.setRegs (s.regs.setPred d.toNat b)).advance

/-- The instruction is over with the open block changed. -/
def State.blockDid (s : State) (f : OpenBlock → OpenBlock) : State := (s.onBlock f).advance

/-- The instruction is over with one effect added to the block's buffered effects (R113). -/
def State.buffered (s : State) (e : Effect) : State := s.blockDid (fun b => { b with effects := b.effects ++ [e] })

/-- The retire buffer has room for n entries more (R116). -/
abbrev Room (s : State) (n : Nat) : Prop := entriesOf s.me.retire + entriesOf s.block.effects + n ≤ 512

/-- No VLD of the context is unanswered (R129). -/
abbrev Unheld (s : State) : Prop := s.me.acquire = []

end Sys2Proof.Machine
end

