-- ==== Sys2Proof/Certificates/Slice0/Obligations.lean ====
section
/-! DEFINITION. The statements about this model, for the provers: what each instruction and each step of the device does, what it leaves alone, and what every step keeps. -/

/-! ## Integer instructions, compares, predicates and block control (opcodes 0x00 to 0x4A) -/

namespace Sys2Proof.Machine

/-- Table 9-3 and R212, R214: two-source instructions with what each writes into g[d], from the values of a and b. -/
def twoSourceTable (p : BitVec 4) (d a b : BitVec 5) (x y : BitVec 1) (k : BitVec 3) (va vb : Word) : List (Instr × Word) :=
  let n := vb.toNat % 64
  let lo := vb.toNat % 64
  let w := min (vb.toNat / 256 % 64 + 1) (64 - lo)
  [(.add p d a b x y, va + vb), (.sub p d a b x y, va - vb), (.mul p d a b x y, va * vb),
   (.mulh p d a b x y, (va.signExtend 128 * vb.signExtend 128).extractLsb' 64 64),
   (.mulhn p d a b x y, (va.setWidth 128 * vb.setWidth 128).extractLsb' 64 64),
   (.and p d a b x y, va &&& vb), (.andn p d a b x y, va &&& ~~~vb), (.or p d a b x y, va ||| vb), (.xor p d a b x y, va ^^^ vb),
   (.shl p d a b x y, va <<< n), (.shr p d a b x y, va >>> n), (.sar p d a b x y, va.sshiftRight n), (.rot p d a b x y, va.rotateRight n),
   (.min p d a b x y, if va.toInt ≤ vb.toInt then va else vb), (.max p d a b x y, if va.toInt ≤ vb.toInt then vb else va),
   (.minn p d a b x y, if va.toNat ≤ vb.toNat then va else vb), (.maxn p d a b x y, if va.toNat ≤ vb.toNat then vb else va),
   (.addx p d a b x y k, va + vb <<< k.toNat),
   (.div p d a b x y, if vb = 0 then 0 else va.sdiv vb), (.rem p d a b x y, if vb = 0 then va else va.srem vb),
   (.divn p d a b x y, if vb = 0 then 0 else va / vb), (.remn p d a b x y, if vb = 0 then va else va % vb),
   (.bfx p d a b x y, .ofNat 64 (va.toNat / 2 ^ lo % 2 ^ w)),
   (.bfxs p d a b x y, .ofInt 64 (if va.toNat / 2 ^ lo % 2 ^ w < 2 ^ (w - 1) then (va.toNat / 2 ^ lo % 2 ^ w : Nat) else (va.toNat / 2 ^ lo % 2 ^ w : Int) - 2 ^ w))]

/-- R211, R213, R216: one-source and immediate instructions with what each writes into g[d], from the value of a; a shift by an immediate has an amount below 64. -/
def oneSourceTable (p : BitVec 4) (d a : BitVec 5) (x : BitVec 1) (i : BitVec 10) (va : Word) : List (Instr × Word) :=
  [(.addi p d a i, va + i.signExtend 64), (.muli p d a i, va * i.signExtend 64),
   (.andi p d a i, va &&& i.setWidth 64), (.ori p d a i, va ||| i.setWidth 64), (.xori p d a i, va ^^^ i.setWidth 64),
   (.abs p d a x, if va.msb then 0 - va else va), (.mov p d a x, va)] ++
  (if i.toNat < 64 then [(.shli p d a i, va <<< i.toNat), (.shri p d a i, va >>> i.toNat), (.sari p d a i, va.sshiftRight i.toNat)] else [])

/-- The value of a g register of the current context. -/
abbrev State.val {n : Nat} (s : State) (x : BitVec n) : Word := s.regs.gval x.toNat

end Sys2Proof.Machine

open Sys2Proof Sys2Proof.Machine in
/-- R210, R212, R214: with full sources and a destination that is not empty, each two-source instruction answers the next state in which g[d] holds the result of its row; a write of g0 is discarded. R211, R213: the immediate forms and ABS and MOV. R213: CLZ writes the n for which bit 63 - n is the highest one bit, CTZ the n for which bit n is the lowest one bit, each 64 for 0, and POPC the count of the one bits. -/
def Obligations.IntegerResults : Prop :=
  (
  ∀ (s : State) (p : BitVec 4) (d a b : BitVec 5) (x y : BitVec 1) (k : BitVec 3), On s p [rg a, rg b] [rg d] →
    ∀ r ∈ twoSourceTable p d a b x y k (s.val a) (s.val b), exec r.1 s = .next (s.wroteG d r.2)
  ) ∧
  (
  ∀ (s : State) (p : BitVec 4) (d a : BitVec 5) (x : BitVec 1) (i : BitVec 10), On s p [rg a] [rg d] →
    ∀ r ∈ oneSourceTable p d a x i (s.val a), exec r.1 s = .next (s.wroteG d r.2)
  ) ∧
  (
  ∀ (s : State) (p : BitVec 4) (d a : BitVec 5) (x : BitVec 1), On s p [rg a] [rg d] →
    (∃ n : Nat, exec (.clz p d a x) s = .next (s.wroteG d (.ofNat 64 n)) ∧ n ≤ 64 ∧
      (∀ k, 64 - n ≤ k → (s.val a).getLsbD k = false) ∧ (n < 64 → (s.val a).getLsbD (63 - n) = true)) ∧
    (∃ n : Nat, exec (.ctz p d a x) s = .next (s.wroteG d (.ofNat 64 n)) ∧ n ≤ 64 ∧
      (∀ k, k < n → (s.val a).getLsbD k = false) ∧ (n < 64 → (s.val a).getLsbD n = true)) ∧
    exec (.popc p d a x) s = .next (s.wroteG d (.ofNat 64 (((List.range 64).filter (s.val a).getLsbD).length)))
  )

open Sys2Proof Sys2Proof.Machine in
/-- R214 to R217: BFI, MOVL, MOVH, SEL, SATI, WKF, WKF.pre and WKS. The work-key layout of WKF and WKS is the core's WKDESC. -/
def Obligations.FieldAndConstantResults : Prop :=
  ∀ (s : State) (p : BitVec 4) (d a b : BitVec 5) (x y : BitVec 1),
    (On s p [rg a, rg b, rg d] [rg d] →
      ∃ r : Word, exec (.bfi p d a b x y) s = .next (s.wroteG d r) ∧
        ∀ k, k < 64 → r.getLsbD k =
          (if (s.val b).toNat % 64 ≤ k ∧ k ≤ (s.val b).toNat % 64 + (s.val b).toNat / 256 % 64
            then (s.val a).getLsbD (k - (s.val b).toNat % 64) else (s.val d).getLsbD k)) ∧
    (∀ i : BitVec 15, On s p [] [rg d] → exec (.movl p d i) s = .next (s.wroteG d (i.signExtend 64))) ∧
    (∀ i : BitVec 15, On s p [rg d] [rg d] → exec (.movh p d i) s = .next (s.wroteG d (s.val d <<< 15 ||| i.setWidth 64))) ∧
    (∀ n : BitVec 3, On s p [rg a, rg b] [rg d] →
      exec (.sel p d a b (0#1 ++ n)) s = .next (s.wroteG d (if s.regs.pred n.toNat then s.val a else s.val b)) ∧
      exec (.sel p d a b (1#1 ++ n)) s = .next (s.wroteG d (if s.regs.pred n.toNat then s.val b else s.val a))) ∧
    (∀ i : BitVec 6, On s p [rg a] [rg d] →
      exec (.sati p d a (0#1 ++ i)) s = .next (s.wroteG d (.ofInt 64 (max (-(2 ^ i.toNat)) (min (s.val a).toInt (2 ^ i.toNat - 1))))) ∧
      exec (.sati p d a (1#1 ++ i)) s = .next (s.wroteG d (.ofInt 64 (max 0 (min (s.val a).toInt (2 ^ (i.toNat + 1) - 1)))))) ∧
    (∀ l : BitVec 3, On s p [rg a, rg b] [rg d] →
      let wk := s.myCore.wkdesc
      let cut (v : Word) (n : Nat) := v.toNat % 2 ^ n
      exec (.wkf p d a (0#1 ++ l)) s = .next (s.wroteG d (.ofNat 64 (if wkLevels wk < l.toNat then 0 else (s.val a).toNat / 2 ^ wkLow wk l.toNat % 2 ^ wkWidth wk l.toNat))) ∧
      exec (.wkf p d a (1#1 ++ l)) s = .next (s.wroteG d (.ofNat 64 (if wkLevels wk < l.toNat then 0 else
        (s.val a).toNat / 2 ^ wkLow wk l.toNat % 2 ^ (wkLow wk 0 + wkWidth wk 0 - wkLow wk l.toNat) * 2 ^ wkLow wk l.toNat))) ∧
      exec (.wks p d a b l) s = .next (s.wroteG d (if wkLevels wk < l.toNat then s.val a else .ofNat 64
        ((s.val a).toNat - (s.val a).toNat / 2 ^ wkLow wk l.toNat % 2 ^ wkWidth wk l.toNat * 2 ^ wkLow wk l.toNat
          + cut (s.val b) (wkWidth wk l.toNat) * 2 ^ wkLow wk l.toNat))))

open Sys2Proof Sys2Proof.Machine in
/-- R13, R16, R18, R19, R218: NODE writes the node address of a core or of an endpoint, from the fields of c and the coordinates in a and b: in a handler context the place is relocated by PLBASE and the job's module map, in the system context it is absolute. A bit outside the fields of c, a field out of its range, coordinates that fail relocation and an address that fails R16 raise the bad-destination fault. R219: MOVM reads a payload word, the key or the header of an input that the handler may read, and zero of any other; a poisoned beat poisons g[d], which keeps its value (R184). R185: no input above ARITY can be read, and of an orphan invocation input 0 alone; the key carries the first tag of the matched run, the header of a vector message the matched run length less one, and both are zero for an entry of the system queue that is no message. -/
def Obligations.NodeAndPayloadReads : Prop :=
  ∀ (s : State) (p : BitVec 4) (d a b c : BitVec 5),
    (On s p [rg a, rg b, rg c] [rg d] →
      (∀ n, s.formNode (s.val a).toNat (s.val b).toNat (s.val c).toNat = .ok n →
        exec (.node p d a b c) s = .next (s.wroteG d (.ofNat 64 n)) ∧ goodNode s.present n = true) ∧
      (∀ n, s.formNode (s.val a).toNat (s.val b).toNat (s.val c).toNat = .error n →
        exec (.node p d a b c) s = .next (s.settle (.error (.trap 0x10 none (some (.ofNat 64 (n % 2 ^ 22))))))) ∧
      (let u := (s.val a).toNat
       let v := (s.val b).toNat
       let w := (s.val c).toNat
       let core := w % 4
       let jm := w / 256 % 64
       let die := w / 65536 % 8
       let pl := s.myCore.plbase
       let r := s.myRecord
       let layout : Prop := w < 2 ^ 19 ∧ w / 4 % 64 = 0 ∧ w / 2 ^ 14 % 2 = 0
       let module : Option Nat := if s.isSystem then some jm else if plGood pl r.mx = true ∧ jm ≤ r.nmod then some (r.modmap.getD jm 0) else none
       let place : Option (Nat × Nat) := if s.isSystem then some (u, v) else if u < plWX pl ∧ v < plWY pl then some (plBX pl + u, plBY pl + v) else none
       let faults (n : Nat) : Prop := exec (.node p d a b c) s = .next (s.settle (.error (.trap 0x10 none (some (.ofNat 64 (n % 2 ^ 22))))))
       (layout → w / 32768 % 2 = 0 → die = 0 → ∀ m x y, module = some m → place = some (x, y) →
         let n := m * 65536 + x * 256 + y * 4 + core
         (s.present.getLsbD m = true → x ≤ 79 → y ≤ 59 → exec (.node p d a b c) s = .next (s.wroteG d (.ofNat 64 n))) ∧
         (m < 64 → x < 128 → y < 64 → s.present.getLsbD m = false ∨ 79 < x ∨ 59 < y → faults n)) ∧
       (layout → w / 32768 % 2 = 1 → core = 0 → u ≤ 15 → v ≤ 255 → ∀ m, module = some m →
         let n := m * 65536 + 32768 + die * 4096 + u * 256 + v
         (goodNode s.present n = true → exec (.node p d a b c) s = .next (s.wroteG d (.ofNat 64 n))) ∧
         (goodNode s.present n = false → faults n)) ∧
       (¬ layout ∨ module = none ∨ (w / 32768 % 2 = 0 ∧ (die ≠ 0 ∨ place = none)) ∨ (w / 32768 % 2 = 1 ∧ (core ≠ 0 ∨ 15 < u ∨ 255 < v)) →
         ∃ n, faults n))) ∧
    (∀ (i : BitVec 10) (m : Packet), On s p [] [rg d] → s.input a.toNat = some m →
      (i.toNat < 32 → payloadPoison m i.toNat = false → exec (.movm p d a i) s = .next (s.wroteG d (payloadWord m i.toNat))) ∧
      (i.toNat < 32 → payloadPoison m i.toNat = true →
        exec (.movm p d a i) s = .next ((s.setRegs (s.regs.markG d.toNat .poisoned)).advance)) ∧
      (i.toNat = 32 → exec (.movm p d a i) s = .next (s.wroteG d (s.inputKey m))) ∧
      (i.toNat = 33 → exec (.movm p d a i) s = .next (s.wroteG d (s.inputHeader m)))) ∧
    (∀ i : BitVec 10, On s p [] [rg d] → s.input a.toNat = none → exec (.movm p d a i) s = .next (s.wroteG d 0)) ∧
    (∀ v, s.me.invocation = some v →
      (∀ i, s.input i = if v.arity < i ∨ (v.entry.orphan = true ∧ i ≠ 0) then none else v.entry.inputs[i]?) ∧
      (∀ m, v.keyless = true → s.inputKey m = 0 ∧ s.inputHeader m = 0) ∧
      (∀ m, v.keyless = false → s.isSystem = false →
        s.inputKey m = wkPutTag s.myCore.wkdesc m.w1 v.entry.tag ∧
        s.inputHeader m = (if vecOf m then putField m.w0 13 9 (v.entry.run - 1) else m.w0)) ∧
      (∀ m, v.keyless = false → s.isSystem = true → s.inputKey m = m.w1 ∧ s.inputHeader m = m.w0))

open Sys2Proof Sys2Proof.Machine in
/-- R220 to R222, R208: CMP and the three CMPI opcodes with the conditions of Table 8-6, the predicate instructions, GPRED and EMPTY. -/
def Obligations.PredicateResults : Prop :=
  ∀ (s : State) (p : BitVec 4) (d : BitVec 3) (a b g : BitVec 5) (i : BitVec 10) (x : BitVec 1) (pa pb : BitVec 3) (na nb : Bool),
    let cond (v w : Word) : List Bool := [v == w, v != w, v.slt w, v.sle w, w.slt v, w.sle v, v.ult w, v.ule w, w.ult v, w.ule v]
    let qa := s.regs.pred pa.toNat != na
    let qb := s.regs.pred pb.toNat != nb
    let sub : BitVec 2 := BitVec.ofBool nb ++ BitVec.ofBool na
    (On s p [rg a, rg b] [] → ∀ c : BitVec 5, ∀ r, (cond (s.val a) (s.val b))[c.toNat]? = some r →
      exec (.cmp p d a b c) s = .next (s.wroteP d r)) ∧
    (On s p [rg a] [] →
      (∀ c : BitVec 2, ∀ r, (cond (s.val a) (i.signExtend 64))[c.toNat]? = some r → exec (.cmpi41 p c d a i) s = .next (s.wroteP d r)) ∧
      (∀ c : BitVec 2, ∀ r, (cond (s.val a) (i.signExtend 64))[4 + c.toNat]? = some r → exec (.cmpi42 p c d a i) s = .next (s.wroteP d r)) ∧
      (∀ c : BitVec 1, ∀ r, (cond (s.val a) (i.signExtend 64))[8 + c.toNat]? = some r → exec (.cmpi43 p c d a i) s = .next (s.wroteP d r)) ∧
      exec (.gpredNz p d a x) s = .next (s.wroteP d (s.val a != 0)) ∧
      (∃ r : Regs, exec (.gpredUnpack p a x) s = .next ((s.setRegs r).advance) ∧ (∀ k, k < 8 → r.pred k = (k == 0 || (s.val a).getLsbD k)) ∧
        r.g = s.regs.g ∧ r.v = s.regs.v ∧ r.q = s.regs.q ∧ r.flags = s.regs.flags)) ∧
    (On s p [] [] →
      exec (.pand p d pa pb sub) s = .next (s.wroteP d (qa && qb)) ∧
      exec (.por p d pa pb sub) s = .next (s.wroteP d (qa || qb)) ∧
      exec (.pxor p d pa pb sub) s = .next (s.wroteP d (qa != qb)) ∧
      exec (.pnot p d pa) s = .next (s.wroteP d (!s.regs.pred pa.toNat)) ∧
      exec (.pmov p d pa) s = .next (s.wroteP d (s.regs.pred pa.toNat)) ∧
      exec (.empty p d a 0) s = .next (s.wroteP d (s.regs.stateOf (rg a)).isEmpty) ∧
      exec (.empty p d a 1) s = .next (s.wroteP d (s.regs.stateOf (rv a)).isEmpty) ∧
      exec (.empty p d a 2) s = .next (s.wroteP d (s.regs.stateOf (rg a) != .full)) ∧
      exec (.empty p d a 3) s = .next (s.wroteP d (s.regs.stateOf (rv a) != .full))) ∧
    (On s p [] [rg g] → ∃ r : Word, exec (.gpredPack p g) s = .next (s.wroteG g r) ∧ ∀ k, r.getLsbD k = (decide (k < 8) && s.regs.pred k))

namespace Sys2Proof.Machine

/-- The open block takes an exit (R176). -/
def State.exits (s : State) (e : Exit) (n : Nat) : State := s.blockDid (fun b => { b with taken := some e, exit := n })

/-- A target that an exit may have: canonical and 4-byte aligned (R24, R176). -/
abbrev goodTarget (t : Word) : Prop := t.toNat < 2 ^ 48 ∧ t.toNat % 4 = 0

/-- H + 4 × SignExt(off17, 17) (R202). -/
def State.relTarget (s : State) (o : BitVec 17) : Word := BitVec.ofNat 64 s.block.header + 4 * o.signExtend 64

end Sys2Proof.Machine

namespace Sys2Proof.Machine

/-- The six instructions that select a target, each with the registers that it reads and the target that it would take (R202). -/
def targetTable (s : State) (p : BitVec 4) (e : BitVec 3) (o : BitVec 17) (a : BitVec 5) : List (Instr × List Operand × Word) :=
  [(.exit p e o, [], s.relTarget o), (.call p e o, [], s.relTarget o), (.ret p e, [.g 30 false], s.regs.gval 30),
   (.loop p e o, [.g 31 false], s.relTarget o), (.exitr p e a, [rg a], s.val a), (.callr p e a, [rg a], s.val a)]

end Sys2Proof.Machine

open Sys2Proof Sys2Proof.Machine in
/-- R202: the exit-selecting instructions while no exit of the block is taken and their target is good: each fires with its number and target; LOOP counts g31 down and fires while it is not 0. R176, R202, R204: once an exit of the block is taken, a later exit, DONE included, changes nothing, but LOOP still counts g31 down; while none is taken, an instruction that would take a target that is not canonical raises fault 0x05, and one that would take a target that is canonical and not 4-byte aligned raises fault 0x03: EXIT, CALL, RET, EXITR and CALLR, and LOOP where g31 is above 1. R204 to R209: NOP, DONE, COMMIT, YIELD (the largest n stands), TRAP and BKPT (the first of the block acts; BKPT only under the breakpoint enable that the block took on at its opening) and WAITF (complete on any register that is not empty). -/
def Obligations.ExitsAndMarks : Prop :=
  (
  ∀ (s : State) (p : BitVec 4) (e : BitVec 3) (o : BitVec 17) (a : BitVec 5), s.block.taken = none →
    (On s p [] [] → goodTarget (s.relTarget o) →
      exec (.exit p e o) s = .next (s.exits (.target (s.relTarget o) false) e.toNat) ∧
      exec (.call p e o) s = .next (s.exits (.target (s.relTarget o) true) e.toNat)) ∧
    (On s p [.g 30 false] [] → goodTarget (s.regs.gval 30) → exec (.ret p e) s = .next (s.exits (.target (s.regs.gval 30) false) e.toNat)) ∧
    (On s p [rg a] [] → goodTarget (s.val a) →
      exec (.exitr p e a) s = .next (s.exits (.target (s.val a) false) e.toNat) ∧
      exec (.callr p e a) s = .next (s.exits (.target (s.val a) true) e.toNat)) ∧
    (On s p [.g 31 false] [] →
      let n := s.regs.gval 31
      let t := s.setRegs (s.regs.setG 31 (n - 1))
      (n = 0 → exec (.loop p e o) s = .next s.advance) ∧
      (n = 1 → exec (.loop p e o) s = .next t.advance) ∧
      (1 < n.toNat → goodTarget (s.relTarget o) → exec (.loop p e o) s = .next (t.exits (.target (s.relTarget o) false) e.toNat)))
  ) ∧
  (
  ∀ (s : State) (p : BitVec 4) (e : BitVec 3) (o : BitVec 17) (a : BitVec 5),
    (s.block.taken.isSome →
      (On s p [] [] → exec (.exit p e o) s = .next s.advance ∧ exec (.call p e o) s = .next s.advance ∧
        exec (.done p) s = .next s.advance) ∧
      (On s p [.g 30 false] [] → exec (.ret p e) s = .next s.advance) ∧
      (On s p [rg a] [] → exec (.exitr p e a) s = .next s.advance ∧ exec (.callr p e a) s = .next s.advance) ∧
      (On s p [.g 31 false] [] →
        (s.regs.gval 31 = 0 → exec (.loop p e o) s = .next s.advance) ∧
        (s.regs.gval 31 ≠ 0 → exec (.loop p e o) s = .next (s.setRegs (s.regs.setG 31 (s.regs.gval 31 - 1))).advance))) ∧
    (s.block.taken = none → ∀ r ∈ targetTable s p e o a, On s p r.2.1 [] → (r.1 = .loop p e o → 1 < (s.regs.gval 31).toNat) →
      (2 ^ 48 ≤ r.2.2.toNat → exec r.1 s = .next (s.settle (.error (.trap 0x05 none none)))) ∧
      (r.2.2.toNat < 2 ^ 48 → r.2.2.toNat % 4 ≠ 0 → exec r.1 s = .next (s.settle (.error (.trap 0x03 none none)))))
  ) ∧
  (
  ∀ (s : State) (p : BitVec 4), s.regs.qualified p = true →
    exec (.nop p) s = .next s.advance ∧
    (s.block.taken = none → exec (.done p) s = .next (s.exits .done 0)) ∧
    exec (.commit p) s = .next (s.blockDid (fun b => { b with commit := true })) ∧
    (∀ i : BitVec 15, exec (.yield p i) s = .next (s.blockDid (fun b => { b with yield := some (max (b.yield.getD 0) i.toNat) }))) ∧
    (∀ (d : BitVec 5) (i : BitVec 15), s.regs.stateOf (rg d) = .full → s.block.trap = none →
      exec (.trap p d i) s = .next (s.blockDid (fun b => { b with trap := some ⟨0x70, s.val d, i.setWidth 64⟩ }))) ∧
    (∀ i : BitVec 15, s.block.trap = none → s.block.traceCtl.getLsbD 1 = true →
      exec (.bkpt p i) s = .next (s.blockDid (fun b => { b with trap := some ⟨0x71, 0, (1#1 ++ i).setWidth 64⟩ }))) ∧
    (∀ i : BitVec 15, s.block.traceCtl.getLsbD 1 = false → exec (.bkpt p i) s = .next s.advance) ∧
    (s.block.trap.isSome → (∀ (d : BitVec 5) (i : BitVec 15), s.regs.stateOf (rg d) = .full → exec (.trap p d i) s = .next s.advance) ∧
      ∀ i : BitVec 15, exec (.bkpt p i) s = .next s.advance) ∧
    (∀ a : BitVec 5, (s.regs.stateOf (rg a)).isEmpty = false → exec (.waitf p a 0) s = .next s.advance) ∧
    (∀ a : BitVec 5, (s.regs.stateOf (rv a)).isEmpty = false → exec (.waitf p a 1) s = .next s.advance)
  )

/-! ## Local loads, stores and atomics (opcodes 0x50 to 0x5F) -/

namespace Sys2Proof.Machine

/-- The checks of R223 and R36 on a run of local bytes, for an engine of Table 2-3: range, rights, alignment, region. -/
abbrev goodLocal (s : State) (e : Engine) (la size : Nat) (write : Bool) (align : Nat) : Prop :=
  la < 2 ^ 22 ∧ laOff la + size ≤ storeSize (laSel la) ∧ allowed e (laSel la) write = true ∧ la % align = 0 ∧
  (laSel la = 0 → s.isSystem = false →
    regionFault s.cur s.curCtx (laOff la) write = none ∧ regionFault s.cur s.curCtx (laOff la + size - 1) write = none)

/-- The byte that a local read returns (R115): the latest buffered local write to it, else the store's. -/
def State.seenByte (s : State) (la : Nat) : Byte :=
  (bufferedByte (s.me.retire ++ s.block.effects) la).getD (Memory.read s.mem (localPhys s.cur la))

/-- n bytes as a local read returns them, as a little-endian number (R8, R115). -/
def State.seen (s : State) (la n : Nat) : Nat := natOfBytes ((List.range n).map (fun k => s.seenByte (la + k)))

/-- The words of n beats of 32 bytes, as a local read sees them (R115). -/
def State.seenWords (s : State) (la n : Nat) : List Word := (List.range (4 * n)).map (fun j => BitVec.ofNat 64 (s.seen (la + 8 * j) 8))

/-- Which of n beats hold a byte that comes from the store and is poisoned there (R43, R115). -/
def State.seenPoison (s : State) (la n : Nat) : List Bool :=
  (List.range n).map (fun k => (List.range 32).any (fun j => (bufferedByte (s.me.retire ++ s.block.effects) (la + 32 * k + j)).isNone &&
    isPoisoned s (localPhys s.cur (la + 32 * k) + j)))

/-- None of n beats is in the reach of a buffered AMO (R115). -/
abbrev Settled (s : State) (la n : Nat) : Prop := ∀ k < n, amoTouches (s.me.retire ++ s.block.effects) (la + 32 * k) 32 = false

/-- No byte of the run is in the reach of a buffered AMO, and none that comes from the store is poisoned (R42, R115). -/
abbrev cleanRead (s : State) (la n : Nat) : Prop :=
  amoTouches (s.me.retire ++ s.block.effects) la n = false ∧
  ∀ k < n, bufferedByte (s.me.retire ++ s.block.effects) (la + k) = none → isPoisoned s (localPhys s.cur la + k) = false

/-- A byte of the run that comes from the store is poisoned, and none is in the reach of a buffered AMO (R43, R115). -/
abbrev poisonedRead (s : State) (la n : Nat) : Prop :=
  amoTouches (s.me.retire ++ s.block.effects) la n = false ∧
  ∃ k < n, bufferedByte (s.me.retire ++ s.block.effects) (la + k) = none ∧ isPoisoned s (localPhys s.cur la + k) = true

/-- No effect of the departure queue goes to a node, so that an immediate read may leave for it (R121). -/
abbrev Clear (s : State) (node : Nat) : Prop := s.myCore.departs node = false

/-- A local read need not wait: every VLD of the context is answered, and no effect of the core on the own quad waits, to depart or at the quad's network interface (R121, R129). -/
abbrev ReadsLocal (s : State) : Prop := Unheld s ∧ Clear s (quadOf s.cur) ∧ ∀ m ∈ s.netWait s.cur, m.src ≠ s.cur

/-- g[base] + SignExt(off10, 10) × size (R189, R224). -/
def State.formM (s : State) (b : BitVec 5) (o : BitVec 10) (size : Nat) : Nat :=
  (s.val b + o.signExtend 64 * BitVec.ofNat 64 size).toNat

/-- A local address has the physical address of its byte in the own quad's window (R22, R27). -/
abbrev sameStore (la n : Nat) : Prop := laOff la + n ≤ 0x100000

end Sys2Proof.Machine

open Sys2Proof Sys2Proof.Machine in
/-- R224, R115: each scalar load writes the bytes at g[base] + SignExt(off10) × size, zero- or sign-extended, as R115 reads them; R43, R184: a poisoned byte marks the register, which keeps its value; the access is shown to the watchpoints. R121, R129: while a VLD of the context is unanswered, or an effect of the core on the own quad waits to depart or to be performed, the load waits. R224: each scalar store buffers one write of the low bytes of g[d] at g[base] + SignExt(off10) × size, as one retire-buffer entry; memory is written by the commit alone. -/
def Obligations.ScalarLocalAccess : Prop :=
  (
  ∀ (s : State) (p : BitVec 4) (d b : BitVec 5) (o : BitVec 10), On s p [rg b] [rg d] →
    ∀ r ∈ [(Instr.ldN8 p d b o, 0x50, 1, false), (.ldN16 p d b o, 0x51, 2, false), (.ldN32 p d b o, 0x52, 4, false), (.ldN64 p d b o, 0x53, 8, false),
           (.ldsI8 p d b o, 0x54, 1, true), (.ldsI16 p d b o, 0x55, 2, true), (.ldsI32 p d b o, 0x56, 4, true)],
      let la := s.formM b o r.2.2.1
      let n := s.seen la r.2.2.1
      let w : Word := if r.2.2.2 && decide (2 ^ (8 * r.2.2.1 - 1) ≤ n) then .ofInt 64 ((n : Int) - 2 ^ (8 * r.2.2.1)) else .ofNat 64 n
      (¬ ReadsLocal s → exec r.1 s = .next s.passOver) ∧
      (ReadsLocal s → goodLocal s .scalar la r.2.2.1 false r.2.2.1 →
        (cleanRead s la r.2.2.1 →
          exec r.1 s = .next ((s.setRegs (s.regs.setG d.toNat w)).noteAccess r.2.1 false false la r.2.2.1).advance) ∧
        (poisonedRead s la r.2.2.1 →
          exec r.1 s = .next ((s.setRegs (s.regs.markG d.toNat .poisoned)).noteAccess r.2.1 false false la r.2.2.1).advance))
  ) ∧
  (
  ∀ (s : State) (p : BitVec 4) (d b : BitVec 5) (o : BitVec 10), On s p [rg d, rg b] [] → Room s 1 →
    ∀ r ∈ [(Instr.stN8 p d b o, 0x57, 1), (.stN16 p d b o, 0x58, 2), (.stN32 p d b o, 0x59, 4), (.stN64 p d b o, 0x5A, 8)],
      let la := s.formM b o r.2.2
      goodLocal s .scalar la r.2.2 true r.2.2 →
        exec r.1 s = .next (((s.onBlock (fun t => { t with effects := t.effects ++
          [.store [(la, (List.range r.2.2).map (fun k => .ofNat 8 ((s.val d).toNat / 256 ^ k)))] 1] })).noteAccess r.2.1 true false la r.2.2).advance)
  )

open Sys2Proof Sys2Proof.Machine in
/-- R225, R227: LDV and LDX write the active lanes of v[d], each with the 4 bytes at its own address, and keep the others. R225 to R227: STV and STX buffer one store effect that holds their active lanes, each at its own address (5 and 9 entries); STP buffers both registers as one effect, and LDP writes both. -/
def Obligations.VectorAndWideLocalAccess : Prop :=
  (
  ∀ (s : State) (p d : BitVec 4), ReadsLocal s →
    (∀ (b : BitVec 5) (o : BitVec 10), Lanes s p [rg b] [rv d] →
      let la := s.formM b o 128
      goodLocal s .vector la 128 false 128 → (∀ k ∈ activeLanes (s.regs.laneMask p), cleanRead s (la + 4 * k) 4) →
      exec (.ldv p d b o) s = .next (((s.setRegs (s.regs.setV d.toNat
        (mergeLanes (s.regs.laneMask p) (s.regs.vreg d.toNat).lanes (fun k => .ofNat 32 (s.seen (la + 4 * k) 4))))).noteLanes 0x5B false
          (s.regs.laneMask p) (fun k => la + 4 * k)).advance)) ∧
    (∀ (a : BitVec 5) (b : BitVec 4) (x y : BitVec 1), Lanes s p [rg a, rv b] [rv d] →
      let la (k : Nat) : Nat := (s.val a + (s.regs.lane b.toNat k).setWidth 64).toNat
      (∀ k ∈ activeLanes (s.regs.laneMask p), goodLocal s .vector (la k) 4 false 4 ∧ cleanRead s (la k) 4) →
      exec (.ldx p d a b x y) s = .next (((s.setRegs (s.regs.setV d.toNat
        (mergeLanes (s.regs.laneMask p) (s.regs.vreg d.toNat).lanes (fun k => .ofNat 32 (s.seen (la k) 4))))).noteLanes 0x5E false
          (s.regs.laneMask p) la).advance))
  ) ∧
  (
  ∀ (s : State) (p : BitVec 4),
    (∀ (d : BitVec 4) (b : BitVec 5) (o : BitVec 10), Lanes s p [rv d, rg b] [] → Room s 5 →
      let la := s.formM b o 128
      goodLocal s .vector la 128 true 128 →
      ∃ cs, exec (.stv p d b o) s = .next (((s.onBlock (fun t => { t with effects := t.effects ++ [.store cs 5] })).noteLanes 0x5C true
          (s.regs.laneMask p) (fun k => la + 4 * k)).advance) ∧
        ∀ a, chunkByte cs a =
          (if la ≤ a ∧ a < la + 128 ∧ laneOn (s.regs.laneMask p) ((a - la) / 4)
            then some (.ofNat 8 ((s.regs.lane d.toNat ((a - la) / 4)).toNat / 256 ^ ((a - la) % 4))) else none)) ∧
    (∀ (d : BitVec 4) (a : BitVec 5) (b : BitVec 4) (x y : BitVec 1), Lanes s p [rg a, rv b, rv d] [] → Room s 9 →
      let la (k : Nat) : Nat := (s.val a + (s.regs.lane b.toNat k).setWidth 64).toNat
      (∀ k ∈ activeLanes (s.regs.laneMask p), goodLocal s .vector (la k) 4 true 4) →
      exec (.stx p d a b x y) s = .next (((s.onBlock (fun t => { t with effects := t.effects ++
          [.store ((activeLanes (s.regs.laneMask p)).map (fun k => (la k, (List.range 4).map (fun j => .ofNat 8 ((s.regs.lane d.toNat k).toNat / 256 ^ j))))) 9] })).noteLanes
          0x5E true (s.regs.laneMask p) la).advance)) ∧
    (∀ (d a b : BitVec 5) (x y : BitVec 1), d.toNat % 2 = 0 → On s p [rg a, rg b] [rg d, .g (d.toNat + 1) false] → ReadsLocal s →
      let la := (s.val a + s.val b).toNat
      goodLocal s .scalar la 16 false 16 → cleanRead s la 8 → cleanRead s (la + 8) 8 →
      exec (.ldp p d a b x y) s = .next (((s.setRegs ((s.regs.setG d.toNat (.ofNat 64 (s.seen la 8))).setG (d.toNat + 1) (.ofNat 64 (s.seen (la + 8) 8)))).noteAccess
          0x5D false false la 16).advance)) ∧
    (∀ (d a b : BitVec 5) (x y : BitVec 1), d.toNat % 2 = 0 → On s p [rg a, rg b, rg d, .g (d.toNat + 1) false] [] → Room s 1 →
      let la := (s.val a + s.val b).toNat
      goodLocal s .scalar la 16 true 16 →
      exec (.stp p d a b x y) s = .next (((s.onBlock (fun t => { t with effects := t.effects ++
          [.store [(la, bytesOfWord (s.val d)), (la + 8, bytesOfWord (s.regs.gval (d.toNat + 1)))] 1] })).noteAccess 0x5D true false la 16).advance))
  )

open Sys2Proof Sys2Proof.Machine in
/-- R120, R228: AMO buffers its operation with operand and expected value, and leaves g[d] empty until the commit; the expected value is g[d] as .cas reads it. R35, R223, R36: the first check of a local access that fails names the fault: range 0x06, forbidden store 0x07 with address, select and opcode, alignment 0x08, then privilege 0x02 for the handler table and 0x09 for another private window. -/
def Obligations.LocalAtomicsAndFaults : Prop :=
  (
  ∀ (s : State) (p : BitVec 4) (d a b : BitVec 5) (t : BitVec 5), t.toNat % 16 < 10 →
    On s p ([rg a, rg b] ++ (if t.toNat % 16 = 9 then [rg d] else [])) [rg d] → Room s 1 →
    let n := if t.toNat / 16 = 1 then 8 else 4
    let la := (s.val a).toNat
    goodLocal s .rmw la n true n →
    let u := s.onBlock (fun t' => { t' with effects := t'.effects ++ [.amo la (t.toNat % 16) (if t.toNat / 16 = 1 then 3 else 2) (s.val b) (s.val d) d.toNat] })
    exec (.amo p d a b t) s = .next (((((u.setRegs (u.regs.markG d.toNat .awaitCommit)).noteAccess 0x5F false false la n)).noteAccess 0x5F true false la n).advance)
  ) ∧
  (
  ∀ (s : State) (op : Nat) (e : Engine) (la size : Nat) (write : Bool) (align : Nat),
    (s.checkLocal op e la size write align = .ok () ↔ goodLocal s e la size write align) ∧
    (2 ^ 22 ≤ la ∨ storeSize (laSel la) < laOff la + size → s.checkLocal op e la size write align = .error (.trap 0x06 none none)) ∧
    (la < 2 ^ 22 → laOff la + size ≤ storeSize (laSel la) →
      (allowed e (laSel la) write = false →
        s.checkLocal op e la size write align = .error (.trap 0x07 (some (.ofNat 64 la)) (some (.ofNat 64 (laSel la + op * 256))))) ∧
      (allowed e (laSel la) write = true →
        (la % align ≠ 0 → s.checkLocal op e la size write align = .error (.trap 0x08 none none)) ∧
        (la % align = 0 → laSel la = 0 → s.isSystem = false →
          (write = true → 0x28000 ≤ laOff la → laOff la < 0x2A000 → s.checkLocal op e la size write align = .error (.trap 0x02 none none)) ∧
          (0x2A000 ≤ laOff la → (laOff la < stackBase s.cur s.curCtx ∨ stackBase s.cur s.curCtx + 0x800 ≤ laOff la) →
            s.checkLocal op e la size write align = .error (.trap 0x09 none none)))))
  )

/-! ## Remote accesses, messages, task queues, tumblers, keys and engine commands (opcodes 0x60 to 0x8E) -/

namespace Sys2Proof.Machine

/-- An instruction is being executed: in one of the eleven contexts, within an open block (R154, R175). -/
abbrev Running (s : State) : Prop := s.curCtx < 11 ∧ s.me.block.isSome = true

/-- Virtual addresses that R24 and R28 let pass. -/
abbrev goodVirtual (va align : Nat) : Prop := va < 2 ^ 48 ∧ va % align = 0

/-- From s to t an immediate request has departed (R113, R121, R162, R182): the message is under way, the lowest free reply slot z is reserved, and g[d] is empty. -/
def Departed (s t : State) (m : Nat → Nat → Packet) (d : Nat) (ans : Answer) : Prop :=
  ∃ z, s.me.freeSlot = some z ∧
    t.agenda = s.agenda ++ [route (m z s.myCore.nextTag)] ∧
    t.regs = s.regs.markG d .empty ∧
    aget t.me.slots z = some { reg := d, answer := ans, tag := s.myCore.nextTag, sent := true } ∧
    (∃ q : Pending, t.myCore.pending = s.myCore.pending ++ [q] ∧ q.tag = s.myCore.nextTag ∧ q.ctx = s.curCtx ∧ q.read = true) ∧
    t.mem = s.mem ∧ t.block.effects = s.block.effects

/-- From s to t a request with a result was buffered (R113, R120, R162): the effect e z joins the block's effects, slot z is reserved but nothing is sent, and g[d] waits for the commit. -/
def BufferedResult (s t : State) (e : Nat → Effect) (d : Nat) (ans : Answer) : Prop :=
  ∃ z, s.me.freeSlot = some z ∧
    t.block.effects = s.block.effects ++ [e z] ∧
    t.regs = s.regs.markG d .awaitCommit ∧
    aget t.me.slots z = some { reg := d, answer := ans, tag := s.myCore.nextTag, sent := false } ∧
    t.agenda = s.agenda ∧ t.mem = s.mem

/-- From s to t one effect was buffered and no register changed. -/
def BufferedOnly (s t : State) (e : Effect) : Prop :=
  t.block.effects = s.block.effects ++ [e] ∧ t.regs = s.regs ∧ t.me.slots = s.me.slots ∧ t.agenda = s.agenda ∧ t.mem = s.mem

end Sys2Proof.Machine

open Sys2Proof Sys2Proof.Machine in
/-- R113, R120, R229 to R237: RST, RAMO, RCPY, VST, VRECL, FENCE and QFENCE buffer their effect with the address as translated at issue, and FPFLAGS for its XF (R149); RAMO with a result leaves g[d] empty until the commit; none sends anything before it. Where the spec leaves a point of it open, it rests on the choices of log 92. -/
def Obligations.RemoteEffectsBuffered : Prop :=
  ∀ (s s1 : State) (p : BitVec 4) (d a b c : BitVec 5) (x y : BitVec 1) (pa : Nat), Running s → Running s1 → Room s1 1 →
    (∀ t : BitVec 2, On s p [rg a, rg b, rg d] [] →
      let va := (s.val a + s.val b).toNat
      goodVirtual va (2 ^ t.toNat) → s.reach .write 0x61 va = .ok (pa, s1) →
      ∃ u, exec (.rst p d a b x y t) s = .next u ∧
        BufferedOnly s1 u (.mem { op := 0x01, addr := .ofNat 64 va, virt := true, pa := pa, size := t.toNat,
                                  payload := [.ofNat 64 ((s.val d).toNat % 2 ^ (8 * 2 ^ t.toNat))], opcode := 0x61, job := s.me.jobid, xf := s.regs.flags })) ∧
    (∀ t : BitVec 5, t.toNat % 16 < 10 → On s p ([rg a, rg b] ++ (if t.toNat % 16 = 9 then [rg d] else [])) [rg d] →
      let z := if t.getLsbD 4 then 3 else 2
      let va := (s.val a).toNat
      let w := 2 ^ (8 * 2 ^ z)
      let e (slot : Option Nat) : Effect := .mem { op := 2 + t.toNat % 16, addr := s.val a, virt := true, pa := pa, size := z,
                                                    payload := [.ofNat 64 ((s.val b).toNat % w), .ofNat 64 (if t.toNat % 16 = 9 then (s.val d).toNat % w else 0)], opcode := 0x62, slot := slot, job := s.me.jobid, xf := s.regs.flags }
      goodVirtual va (2 ^ z) → s.reach .atomic 0x62 va = .ok (pa, s1) →
      (d = 0 → ∃ u, exec (.ramo p d a b t) s = .next u ∧ BufferedOnly s1 u (e none)) ∧
      (d ≠ 0 → s1.me.freeSlot.isSome = true → ∃ u, exec (.ramo p d a b t) s = .next u ∧ BufferedResult s1 u (fun k => e (some k)) d.toNat (.atomic z))) ∧
    (On s p [rg a, rg b, rg c] [] →
      let dst := (s.val a).toNat
      let src := (s.val b).toNat
      let len := (s.val c).toNat
      goodVirtual dst 32 → goodVirtual src 32 → len % 32 = 0 → 32 ≤ len → len ≤ 65536 → dst + len ≤ 2 ^ 48 → src + len ≤ 2 ^ 48 →
      ∀ ps, s.splitCopy dst src len = .ok (ps, s1) →
        (∃ u, exec (.rcpy p a b c) s = .next u ∧ BufferedOnly s1 u (.copy (s.val a) (s.val b) len ps false s.me.jobid s.regs.flags)) ∧
        (ps.map (fun q => q.len)).sum = len) ∧
    (On s p [rg a, rg b] [] →
      let va := (s.val a).toNat
      let e (op opcode : Nat) (virt : Bool) (cell : Nat) (v : Word) (sc : Option Nat) : Effect :=
        .mem { op := op, addr := s.val a, virt := virt, pa := cell, size := 3, payload := [v], opcode := opcode, job := s.me.jobid, scope := sc, xf := s.regs.flags }
      (goodLocal s .versioned va 64 true 64 → laSel va = 0 → s1 = s →
        (∀ sc : BitVec 2, ∃ u, exec (.vst p a b x y (sc ++ 0#1)) s = .next u ∧ BufferedOnly s u (e 0x11 0x65 false (localPhys s.cur va) (s.val b) (some sc.toNat))) ∧
        (∃ u, exec (.vrecl p a b x y 0) s = .next u ∧ BufferedOnly s u (e 0x12 0x66 false (localPhys s.cur va) (s.val b &&& 0xFFFF) none))) ∧
      (goodVirtual va 64 → inG pa = true →
        (s.reach .write 0x65 va = .ok (pa, s1) → ∀ sc : BitVec 2, ∃ u, exec (.vst p a b x y (sc ++ 1#1)) s = .next u ∧
          BufferedOnly s1 u (e 0x11 0x65 true pa (s.val b) (some sc.toNat))) ∧
        (s.reach .write 0x66 va = .ok (pa, s1) → ∃ u, exec (.vrecl p a b x y 1) s = .next u ∧
          BufferedOnly s1 u (e 0x12 0x66 true pa (s.val b &&& 0xFFFF) none)))) ∧
    (On s p [] [] → s1 = s →
      (∀ i : BitVec 2, exec (.fence p i) s = .next (s.buffered (.fence i.toNat))) ∧
      (∀ i : BitVec 8, exec (.qfence p i) s = .next (s.buffered (.qfence i.toNat))))

open Sys2Proof Sys2Proof.Machine in
/-- R113, R129, R162, R230, R234, R250: RLD, VLD on a local and on a virtual cell, and TRD of another quad depart at once as reads of the translated place, with FPFLAGS in XF (R149), and leave g[d] empty; TRD of the own quad writes COUNT, TARGET, ARM and OVS. R121: while an effect of the core on the place waits to depart, or one on the own quad waits there, the read waits. R103, R97, R23, R16, R100: a translation that the core's data TLB holds gives the leaf's physical address where the leaf permits the access, the permission fault 0x21 where it does not, and the bad-physical-address fault 0x23 where it is permitted and lies outside the physical map; that permission is looked at before the physical map is the model's reading (log 19, DEDUCED). A place whose owner is in an absent module raises the bad-destination fault 0x10. A lookup that hits more than one entry is counted even where it then faults. A miss of every TLB asks for a walk from PTROOT. -/
def Obligations.ImmediateReadsAndTranslation : Prop :=
  (
  ∀ (s s1 : State) (p : BitVec 4) (d a b : BitVec 5) (x y : BitVec 1) (pa : Nat), Running s → Unheld s → s1.me.freeSlot.isSome = true →
    (∀ t : BitVec 3, On s p [rg a, rg b] [rg d] →
      let z := t.toNat % 4
      let va := (s.val a + s.val b).toNat
      goodVirtual va (2 ^ z) → s.reach .read 0x60 va = .ok (pa, s1) → Clear s1 (remoteAddr pa).1 →
      ∃ u, exec (.rld p d a b x y t) s = .next u ∧
        Departed s1 u (fun k tag => withFlags s.regs.flags (remoteOp s.cur 0x00 z pa (s.curCtx * 16 + k) s.me.jobid tag [])) d.toNat (.load z (t.getLsbD 2))) ∧
    (∀ t : BitVec 3, On s p [rg a, rg b] [rg d] →
      let va := (s.val a + s.val b).toNat
      goodVirtual va (2 ^ (t.toNat % 4)) → s.reach .read 0x60 va = .ok (pa, s1) → s1 = s → ¬ Clear s (remoteAddr pa).1 →
      exec (.rld p d a b x y t) s = .next s.passOver) ∧
    (On s p [rg a, rg b] [rg d] →
      let va := (s.val a).toNat
      let v : List Word := [(s.val b) &&& 0xFFFF]
      (goodLocal s .versioned va 64 false 64 → laSel va = 0 → s1 = s → Clear s (remoteAddr (localPhys s.cur va)).1 →
        ∃ u, exec (.vld p d a b x y 0) s = .next u ∧
          Departed s u (fun k tag => withFlags s.regs.flags (remoteOp s.cur 0x10 3 (localPhys s.cur va) (s.curCtx * 16 + k) s.me.jobid tag v)) d.toNat .version ∧
          u.me.acquire ≠ []) ∧
      (goodVirtual va 64 → s.reach .read 0x64 va = .ok (pa, s1) → inG pa = true → Clear s1 (remoteAddr pa).1 →
        ∃ u, exec (.vld p d a b x y 1) s = .next u ∧
          Departed s1 u (fun k tag => withFlags s.regs.flags (remoteOp s.cur 0x10 3 pa (s.curCtx * 16 + k) s.me.jobid tag v)) d.toNat .version ∧
          u.me.acquire ≠ [])) ∧
    (On s p [rg a] [rg d] →
      ((s.val a).toNat < 512 → ¬ ReadsLocal s → exec (.trd p d a) s = .next s.passOver) ∧
      ((s.val a).toNat < 512 → ReadsLocal s →
        exec (.trd p d a) s = .next (s.wroteG d (.ofNat 64
          (let q := (s.quad s.cur).tumbler (s.val a).toNat
           q.count % 2 ^ 24 + q.target % 2 ^ 24 * 2 ^ 24 + bitNat q.arm * 2 ^ 48 + bitNat q.ovs * 2 ^ 49)))) ∧
      (∀ i n : Nat, i < 512 → n < 2 ^ 22 → (s.val a).toNat = i + 512 + 1024 * n → goodNode s.present n = true → nodeIsEnd n = false → quadOf n ≠ quadOf s.cur →
        s1 = s → Clear s (quadOf n) →
        ∃ u, exec (.trd p d a) s = .next u ∧
          Departed s u (fun k tag => withFlags s.regs.flags (tumblerOp s.cur 0x1B n i 0 (s.curCtx * 16 + k) s.me.jobid tag [])) d.toNat .tumbler))
  ) ∧
  (
  ∀ (s : State) (k : AccessKind) (op va : Nat) (e : TlbEntry), k ≠ .fetch →
    let pa := pteAddr e.pte + va % pageSize e.level
    (tlbPick s.myCore.dtlb s.me.jobid va = some e →
      (permitted e.pte k = true → placeOf pa ≠ .reserved →
        ∃ t, s.translate k op va = .ok (pa, t) ∧ t.regs = s.regs ∧ t.mem = s.mem ∧ t.agenda = s.agenda) ∧
      (tlbMulti s.myCore.dtlb s.me.jobid va = false →
        (permitted e.pte k = false → ∃ i, s.translate k op va = .error (.trap 0x21 (some (.ofNat 64 va)) (some i))) ∧
        (permitted e.pte k = true → placeOf pa = .reserved → ∃ i, s.translate k op va = .error (.trap 0x23 (some (.ofNat 64 va)) (some i))) ∧
        (permitted e.pte k = true → placeOf pa ≠ .reserved →
          s.reach k op va = (match ownerOf pa with
            | some n => if goodNode s.present n then .ok (pa, s) else .error (.trap 0x10 none (some (.ofNat 64 (n % 2 ^ 22))))
            | none => .ok (pa, s)))) ∧
      (tlbMulti s.myCore.dtlb s.me.jobid va = true → (s.cluster (clusterOf s.cur)).multi < 2 ^ 64 → permitted e.pte k = false →
        ∃ i x, s.translate k op va = .error x ∧ s.stop x = (s.countMulti s.cur 1).stop (.trap 0x21 (some (.ofNat 64 va)) (some i)))) ∧
    (tlbPick s.myCore.dtlb s.me.jobid va = none → tlbPick (s.cluster (clusterOf s.cur)).tlb s.me.jobid va = none → s.me.miss = none →
      inHbm (s.ptroot s.me.jobid) = true →
      s.translate k op va = .error (.walk ⟨.coreData s.cur s.curCtx, s.me.jobid, .ofNat 64 va, 0, s.ptroot s.me.jobid, false⟩))
  )

namespace Sys2Proof.Machine

/-- A send descriptor and key of which R149 and R238 form a message of a kind: the node is good, DP = 0 for an endpoint, the payload passes the checks of a payload source, the header is well formed, no byte of the payload is in the reach of a buffered AMO (R115), and only the system context names a handler of 0xE0 and above. -/
structure GoodMessage (s : State) (kind : Nat) (vec eos : Bool) (desc key : Word) : Prop where
  fields : desc.toNat < 2 ^ 60
  node : goodNode s.present (desc.toNat % 2 ^ 22) = true
  endpoint : desc.getLsbD 32 = true → nodeIsEnd (desc.toNat % 2 ^ 22) = false
  beats : desc.toNat / 2 ^ 33 % 16 ≤ 8
  payload : desc.toNat / 2 ^ 33 % 16 ≠ 0 → goodLocal s .payload (desc.toNat / 2 ^ 43 % 2 ^ 17 * 32) (32 * (desc.toNat / 2 ^ 33 % 16)) false 32
  settled : Settled s (desc.toNat / 2 ^ 43 % 2 ^ 17 * 32) (desc.toNat / 2 ^ 33 % 16)
  vector : vec = true → kind = 0 ∧ desc.toNat / 2 ^ 33 % 16 ∈ [0, 4, 8] ∧
    wkTag s.myCore.wkdesc key + (if eos then 31 else desc.toNat / 2 ^ 38 % 32) < 2 ^ wkTagWidth s.myCore.wkdesc
  scalar : vec = false → (if eos then 31 else desc.toNat / 2 ^ 38 % 32) ∈ [0, 31] ∧
    ((if eos then 31 else desc.toNat / 2 ^ 38 % 32) = 31 → desc.toNat / 2 ^ 33 % 16 = 0)
  handler : kind = 0 → desc.toNat / 2 ^ 22 % 256 < 0xE0 ∨ s.isSystem = true

end Sys2Proof.Machine

open Sys2Proof Sys2Proof.Machine in
/-- R115, R146, R149, R238: a good descriptor and key give a message with every field of Table 7-3 as Table 10-4 says: destination, PRI (the descriptor's, or with DP the default of the issuing quad's handler entry), HIDX, JOB, BEATS, VEC, RUN, SC, XF and kind, the key, and the payload words and poison of the beats as a local read at issue sees them. A bad node is the bad-destination fault 0x10 (the faults of R238 keep the order of log 10); a non-zero bit of [63:60], DP = 1 for an endpoint, a payload that fails its checks and a malformed header are the message-format fault 0x11; a handler context that names a handler of 0xE0 and above takes the privilege fault 0x02. R239 to R242, R255: SEND, SENDV, the three REPLY forms and TRIGGER buffer one message; the .r forms reserve a reply slot and put the return word over payload word 0 of a handler message, which then has a beat, and the reply selector into HIDX of an engine command. A REPLY checks its node after the fields of its return word. Where the spec leaves a point of it open, it rests on the choices of log 10. -/
def Obligations.MessagesFormedAndBuffered : Prop :=
  (
  ∀ (s : State) (op kind : Nat) (vec eos : Bool) (desc key : Word), kind < 4 →
    let n := desc.toNat % 2 ^ 22
    let beats := desc.toNat / 2 ^ 33 % 16
    let run := if eos then 31 else desc.toNat / 2 ^ 38 % 32
    let hidx := desc.toNat / 2 ^ 22 % 256
    let pay := desc.toNat / 2 ^ 43 % 2 ^ 17 * 32
    let got := s.formMessage op kind vec eos desc key
    let bad (c : Nat) : Res Packet := .error (.trap c none none)
    (GoodMessage s kind vec eos desc key → ∃ m, got = .ok m ∧
      destOf m = n ∧ beatsOf m = beats ∧ jobOf m = s.me.jobid % 4096 ∧ kindOf m = kind ∧ vecOf m = vec ∧ runOf m = run ∧
      hidxOf m = (if kind = 0 then hidx else 0xE0) ∧ m.w1 = (if kind = 0 then key else 0) ∧ m.src = s.cur ∧ m.ctx = s.curCtx ∧
      m.w0.getLsbD 8 = desc.getLsbD 37 ∧ m.w0.toNat / 8 % 32 = s.regs.flags.toNat ∧ m.w0.getLsbD 2 = false ∧ m.w0.getLsbD 41 = (kind == 1) ∧
      (desc.getLsbD 32 = false → priOf m = desc.toNat / 2 ^ 30 % 4) ∧
      (desc.getLsbD 32 = true → isPoisoned s (localPhys s.cur (0x28000 + 32 * hidx)) = false →
        priOf m = (Memory.word s.mem (localPhys s.cur (0x28000 + 32 * hidx))).toNat / 2 ^ 48 % 4) ∧
      m.payload = s.seenWords pay beats ∧ m.poison = s.seenPoison pay beats) ∧
    (2 ^ 60 ≤ desc.toNat → got = bad 0x11) ∧
    (desc.toNat < 2 ^ 60 → goodNode s.present n = false → got = .error (.trap 0x10 none (some (.ofNat 64 n)))) ∧
    (desc.toNat < 2 ^ 60 → goodNode s.present n = true →
      (desc.getLsbD 32 = true → nodeIsEnd n = true → got = bad 0x11) ∧
      (8 < beats → got = bad 0x11) ∧
      (beats ≠ 0 → ¬ goodLocal s .payload pay (32 * beats) false 32 → got = bad 0x11) ∧
      (vec = true → kind ≠ 0 ∨ beats ∉ [0, 4, 8] ∨ 2 ^ wkTagWidth s.myCore.wkdesc ≤ wkTag s.myCore.wkdesc key + run → got = bad 0x11) ∧
      (vec = false → run ∉ [0, 31] ∨ run = 31 ∧ beats ≠ 0 → got = bad 0x11) ∧
      ((desc.getLsbD 32 = true → nodeIsEnd n = false) → beats ≤ 8 → (beats ≠ 0 → goodLocal s .payload pay (32 * beats) false 32) →
        (vec = true → beats ∈ [0, 4, 8] ∧ wkTag s.myCore.wkdesc key + run < 2 ^ wkTagWidth s.myCore.wkdesc) →
        (vec = false → run ∈ [0, 31] ∧ (run = 31 → beats = 0)) → kind = 0 → 0xE0 ≤ hidx → s.isSystem = false → got = bad 0x02))
  ) ∧
  (
  ∀ (s : State) (p : BitVec 4) (d a b : BitVec 5), Running s →
    (On s p [rg a, rg b] [] →
      (∀ (k : BitVec 2) (eos : Bool), GoodMessage s k.toNat false eos (s.val a) (s.val b) → Room s (1 + (s.val a).toNat / 2 ^ 33 % 16) →
        ∃ u m, exec (.send p d a b (0#1 ++ BitVec.ofBool eos ++ k)) s = .next u ∧
          s.formMessage 0x70 k.toNat false eos (s.val a) (s.val b) = .ok m ∧ BufferedOnly s u (.msg m none plainAnswer none)) ∧
      (GoodMessage s 0 true false (s.val a) (s.val b) → Room s (1 + (s.val a).toNat / 2 ^ 33 % 16) →
        ∃ u m, exec (.sendv p d a b 0) s = .next u ∧ s.formMessage 0x71 0 true false (s.val a) (s.val b) = .ok m ∧
          BufferedOnly s u (.msg m none plainAnswer none))) ∧
    (On s p [rg a, rg b] [rg d] → s.me.freeSlot.isSome = true → Room s (1 + (s.val a).toNat / 2 ^ 33 % 16) →
      (∀ eos : Bool, GoodMessage s 0 false eos (s.val a) (s.val b) → (s.val a).toNat / 2 ^ 33 % 16 ≠ 0 →
        ∃ u m, exec (.send p d a b (1#1 ++ BitVec.ofBool eos ++ 0#2)) s = .next u ∧ s.formMessage 0x70 0 false eos (s.val a) (s.val b) = .ok m ∧
          BufferedResult s u (fun z => .msg { m with payload := m.payload.set 0 (.ofNat 64 (s.cur + (s.curCtx * 16 + z) * 2 ^ 22)) } (some z) .message none) d.toNat .message) ∧
      (GoodMessage s 0 true false (s.val a) (s.val b) → (s.val a).toNat / 2 ^ 33 % 16 ≠ 0 →
        ∃ u m, exec (.sendv p d a b 1) s = .next u ∧ s.formMessage 0x71 0 true false (s.val a) (s.val b) = .ok m ∧
          BufferedResult s u (fun z => .msg { m with payload := m.payload.set 0 (.ofNat 64 (s.cur + (s.curCtx * 16 + z) * 2 ^ 22)) } (some z) .message none) d.toNat .message) ∧
      (GoodMessage s 3 false false (s.val a) (s.val b) →
        ∃ u m, exec (.send p d a b (1#1 ++ 0#1 ++ 3#2)) s = .next u ∧ s.formMessage 0x70 3 false false (s.val a) (s.val b) = .ok m ∧
          BufferedResult s u (fun z => .msg { m with w0 := putField m.w0 38 31 (s.curCtx * 16 + z) } (some z) .message none) d.toNat .message) ∧
      (GoodMessage s 0 false false (s.val a) (s.val b) → (s.val a).toNat / 2 ^ 33 % 16 = 0 →
        exec (.send p d a b (1#1 ++ 0#1 ++ 0#2)) s = .next (s.settle (.error (.trap 0x11 none none))))) ∧
    (On s p [rg a, rg b] [] → Room s 2 → (s.val a).toNat < 2 ^ 30 → goodNode s.present ((s.val a).toNat % 2 ^ 22) = true →
      let n := (s.val a).toNat % 2 ^ 22
      let sel := (s.val a).toNat / 2 ^ 22
      let reply (sel beats : Nat) (w1 : Word) (pay : List Word) (poison : List Bool) : Effect := .msg
        { w0 := msgHeader n 0 sel s.me.jobid beats false 0 false s.regs.flags.toNat 1, w1 := w1, payload := pay, poison := poison,
          src := s.cur, aclass := aclassOf s.cur n, wantAck := true, ctx := s.curCtx } none plainAnswer none
      (∃ u, exec (.reply p a b) s = .next u ∧ BufferedOnly s u (reply sel 1 0 [s.val b, 0, 0, 0] [false])) ∧
      (∃ u, exec (.replySt p a b) s = .next u ∧ BufferedOnly s u (reply sel 0 (s.val b &&& 0xFF) [] [])) ∧
      (∃ u, exec (.replyKey p a b) s = .next u ∧ BufferedOnly s u (reply 0xF0 0 ((s.val b &&& 0x3F) <<< 8) [] []))) ∧
    (On s p [rg a, rg b] [] →
      let n := (s.val a).toNat % 2 ^ 22
      ∀ i ∈ [Instr.reply p a b, .replySt p a b, .replyKey p a b],
        (2 ^ 30 ≤ (s.val a).toNat → exec i s = .next (s.settle (.error (.trap 0x11 none none)))) ∧
        ((s.val a).toNat < 2 ^ 30 → goodNode s.present n = false → exec i s = .next (s.settle (.error (.trap 0x10 none (some (.ofNat 64 n))))))) ∧
    (On s p [] [] →
      let n := endNode (s.myRecord.modmap.headD 0) 0 5 0
      (goodNode s.present n = false → exec (.trigger p) s = .next (s.settle (.error (.trap 0x10 none (some (.ofNat 64 (n % 2 ^ 22))))))) ∧
      (goodNode s.present n = true → Room s 1 →
        ∃ u m, exec (.trigger p) s = .next u ∧ BufferedOnly s u (.msg m none plainAnswer (some 2)) ∧
          m.payload = [] ∧ kindOf m = 3 ∧ m.w0.toNat / 8 % 32 = s.regs.flags.toNat ∧ jobOf m = s.me.jobid % 4096 ∧ (s.myRecord.modmap.headD 0 < 64 → destOf m = n)))
  )

open Sys2Proof Sys2Proof.Machine in
/-- R243 to R246: SPAWN, QPUSH and the three QPOP forms buffer a command to the queue logic that the handle names, with its code, flags and queue number in beat 0; the entry of a SPAWN is the message that SEND would form, that of a QPUSH has header word 0 and key zero and the payload as a local read at issue sees it; with a result register a slot is reserved and g[d] waits for the commit; QPUSH with d = 0 asks for no result. A handle that breaks its layout or names no queue logic raises the message-format fault 0x11, one in an absent module the bad-destination fault 0x10. R186, R248, R249: TINC, TDEC and TARM buffer their operation, on a tumbler of the own quad as a local effect and on another quad's as an atomic message with FPFLAGS in XF (R149); an amount of 0 has no effect, whatever g[a] holds. A name that breaks its layout raises the bad-destination fault 0x10, a TARM word with a bit of [63:49] the message-format fault 0x11. R251 to R254: KEYA takes the lowest Free key as Held with its KEYRING bit clear, and KEYA.nb says by its predicate whether there is one; KEYF is buffered; WAITANY, WAITALL and FFR read KEYRING AND a, and a wait whose keys are not set passes over. -/
def Obligations.QueueTumblerAndKeyInstructions : Prop :=
  (
  ∀ (s : State) (p : BitVec 4) (d a b : BitVec 5) (n : Nat), Running s →
    let h := s.val a
    let handle (h : Word) : Prop := h.toNat < 2 ^ 38 ∧ n = h.toNat / 2 ^ 16 ∧ nodeIsEnd n = true ∧ nodeClass n = 4 ∧ goodNode s.present n = true
    let beat0 (code flags : Nat) (h w0 w1 : Word) : List Word := [.ofNat 64 (code + flags * 256 + h.toNat % 65536 * 65536), 0, w0, w1]
    let cmd (sel : Nat) (pay : List Word) (poison : List Bool) : Packet :=
      { w0 := msgHeader n 0 sel s.me.jobid (pay.length / 4) false 0 false s.regs.flags.toNat 3, w1 := 0, payload := pay, poison := poison,
        src := s.cur, aclass := aclassOf s.cur n, ctx := s.curCtx }
    let sel (z : Nat) : Nat := s.curCtx * 16 + z
    (On s p [rg d, rg a, rg b] [rg d] → handle (s.val d) → s.me.freeSlot.isSome = true →
      GoodMessage s 0 false false (s.val a) (s.val b) → Room s (2 + (s.val a).toNat / 2 ^ 33 % 16) →
        ∀ nb : Bool, ∃ u m, exec (.spawn p d a b (BitVec.ofBool nb)) s = .next u ∧ s.formMessage 0x73 0 false false (s.val a) (s.val b) = .ok m ∧
          BufferedResult s u (fun z => .msg (cmd (sel z) (beat0 1 (if nb then 2 else 3) (s.val d) m.w0 m.w1 ++ m.payload) (false :: m.poison)) (some z) .spawn none) d.toNat .spawn) ∧
    (On s p [rg a, rg b] [rg d] → handle h →
      (∀ t : BitVec 4, goodLocal s .payload (s.val b).toNat (32 * t.toNat) false 32 → Settled s (s.val b).toNat t.toNat →
        t.toNat < 15 → Room s (2 + t.toNat) →
        let pay := beat0 1 0 h 0 0 ++ s.seenWords (s.val b).toNat t.toNat
        let ps := s.seenPoison (s.val b).toNat t.toNat
        (d = 0 → ∃ u, exec (.qpush p d a b t) s = .next u ∧ BufferedOnly s u (.msg (cmd 0xE0 pay (false :: ps)) none (.push h) none)) ∧
        (d ≠ 0 → s.me.freeSlot.isSome = true → ∃ u, exec (.qpush p d a b t) s = .next u ∧
          BufferedResult s u (fun z => .msg (cmd (sel z) pay (false :: ps)) (some z) (.push h) none) d.toNat (.push h))) ∧
      (s.me.freeSlot.isSome = true → Room s 1 → goodLocal s .scalar (s.val b).toNat 288 true 32 →
        ∃ u, exec (.qpop p d a b) s = .next u ∧
          BufferedResult s u (fun z => .msg (cmd (sel z) (beat0 2 0 h 0 0) [false]) (some z) (.pop (s.val b).toNat) none) d.toNat (.pop (s.val b).toNat))) ∧
    (On s p [rg a] [rg d] → handle h → s.me.freeSlot.isSome = true → Room s 1 →
      (∃ u, exec (.qpopFwd p d a) s = .next u ∧
        BufferedResult s u (fun z => .msg (cmd (sel z) (beat0 2 4 h 0 0) [false]) (some z) .popFwd none) d.toNat .popFwd) ∧
      (∃ u, exec (.qpopLen p d a) s = .next u ∧
        BufferedResult s u (fun z => .msg (cmd (sel z) (beat0 3 0 h 0 0) [false]) (some z) .popLen none) d.toNat .popLen)) ∧
    ((2 ^ 38 ≤ h.toNat ∨ nodeIsEnd (h.toNat / 2 ^ 16 % 2 ^ 22) = false ∨ nodeClass (h.toNat / 2 ^ 16 % 2 ^ 22) ≠ 4) →
      (On s p [rg a, rg b] [rg d] → (∀ t : BitVec 4, exec (.qpush p d a b t) s = .next (s.settle (.error (.trap 0x11 none none)))) ∧
        exec (.qpop p d a b) s = .next (s.settle (.error (.trap 0x11 none none)))) ∧
      (On s p [rg a] [rg d] → exec (.qpopFwd p d a) s = .next (s.settle (.error (.trap 0x11 none none))) ∧
        exec (.qpopLen p d a) s = .next (s.settle (.error (.trap 0x11 none none)))) ∧
      (On s p [rg a, rg d, rg b] [rg a] → ∀ t : BitVec 1, exec (.spawn p a d b t) s = .next (s.settle (.error (.trap 0x11 none none))))) ∧
    (h.toNat < 2 ^ 38 → nodeIsEnd (h.toNat / 2 ^ 16) = true → nodeClass (h.toNat / 2 ^ 16) = 4 → goodNode s.present (h.toNat / 2 ^ 16) = false →
      On s p [rg a] [rg d] → exec (.qpopLen p d a) s = .next (s.settle (.error (.trap 0x10 none (some (.ofNat 64 (h.toNat / 2 ^ 16)))))))
  ) ∧
  (
  ∀ (s : State) (p : BitVec 4) (a b : BitVec 5),
    let amount := (s.val b).toNat % 2 ^ 24
    (On s p [rg b] [] → amount = 0 → exec (.tinc p a b) s = .next s.advance ∧ exec (.tdec p a b) s = .next s.advance) ∧
    (On s p [rg a, rg b] [] → Room s 2 →
      (∀ i, i < 512 → ((s.val a).toNat = i ∨ ∃ n, n < 2 ^ 22 ∧ (s.val a).toNat = i + 512 + 1024 * n ∧ goodNode s.present n = true ∧ nodeIsEnd n = false ∧ quadOf n = quadOf s.cur) →
        (amount ≠ 0 → exec (.tinc p a b) s = .next (s.buffered (.tumbler 0x18 i (.ofNat 64 amount))) ∧
          exec (.tdec p a b) s = .next (s.buffered (.tumbler 0x19 i (.ofNat 64 amount)))) ∧
        ((s.val b).toNat < 2 ^ 49 → exec (.tarm p a b) s = .next (s.buffered (.tumbler 0x1A i (s.val b)))) ∧
        (2 ^ 49 ≤ (s.val b).toNat → exec (.tarm p a b) s = .next (s.settle (.error (.trap 0x11 none none))))) ∧
      (∀ i n : Nat, i < 512 → n < 2 ^ 22 → (s.val a).toNat = i + 512 + 1024 * n → goodNode s.present n = true → nodeIsEnd n = false → quadOf n ≠ quadOf s.cur →
        let e (op k : Nat) (pay : List Word) : Effect := .msg (withFlags s.regs.flags (tumblerOp s.cur op n i k 0xE0 s.me.jobid 0 pay)) none (.effect op 0) none
        (amount ≠ 0 → exec (.tinc p a b) s = .next (s.buffered (e 0x18 amount [])) ∧ exec (.tdec p a b) s = .next (s.buffered (e 0x19 amount []))) ∧
        ((s.val b).toNat < 2 ^ 49 → exec (.tarm p a b) s = .next (s.buffered (e 0x1A 0 [s.val b])))) ∧
      ((2 ^ 32 ≤ (s.val a).toNat ∨ (s.val a).getLsbD 9 = false ∧ (s.val a).toNat / 2 ^ 10 % 2 ^ 22 ≠ 0 ∨
          (s.val a).getLsbD 9 = true ∧ goodNode s.present ((s.val a).toNat / 2 ^ 10 % 2 ^ 22) = false) →
        let t := s.settle (.error (.trap 0x10 none (some (.ofNat 64 ((s.val a).toNat / 2 ^ 10 % 2 ^ 22)))))
        (amount ≠ 0 → exec (.tinc p a b) s = .next t ∧ exec (.tdec p a b) s = .next t) ∧ exec (.tarm p a b) s = .next t))
  ) ∧
  (
  ∀ (s : State) (p : BitVec 4) (d a : BitVec 5) (x : BitVec 1) (n : BitVec 3), Running s →
    let took (t : State) (k : Nat) : Prop := t.myCore.key k = { bit := false, alloc := .held, owner := .ofNat 4 s.curCtx } ∧
      (∀ j, j ≠ k → t.myCore.key j = s.myCore.key j) ∧ t.me.held = s.me.held ++ [k]
    (On s p [] [rg d] → ∀ k, k < 64 → (s.myCore.key k).alloc = .free → (∀ j, j < k → (s.myCore.key j).alloc ≠ .free) →
      (∃ t, exec (.keya p d) s = .next t ∧ t.regs = s.regs.setG d.toNat (.ofNat 64 k) ∧ took t k) ∧
      (∃ t, exec (.keyaNb p d n) s = .next t ∧ t.regs = (s.regs.setG d.toNat (.ofNat 64 k)).setPred n.toNat false ∧ took t k)) ∧
    (On s p [] [rg d] → (∀ j, j < 64 → (s.myCore.key j).alloc ≠ .free) →
      exec (.keyaNb p d n) s = .next ((s.setRegs ((s.regs.setG d.toNat 64).setPred n.toNat true)).advance) ∧
      exec (.keya p d) s = .next (if s.keysExhausted then s.settle (.error (.trap 0x63 none none)) else s.passOver)) ∧
    (On s p [rg a] [] → Room s 1 → exec (.keyf p a x) s = .next (s.buffered (.keyf (s.val a)))) ∧
    (On s p [rg a] [rg d] → Unheld s →
      let r := s.myCore.keyring &&& s.val a
      (∀ k, k < 64 → s.myCore.keyring.getLsbD k = (s.myCore.key k).bit) ∧
      exec (.waitany p d a x) s = .next (if r ≠ 0 ∨ s.val a = 0 then s.wroteG d r else s.passOver) ∧
      exec (.waitall p d a x) s = .next (if r = s.val a then s.wroteG d (s.val a) else s.passOver) ∧
      (r = 0 → exec (.ffr p d a x) s = .next (s.wroteG d 64)) ∧
      (∀ k, k < 64 → r.getLsbD k = true → (∀ j, j < k → r.getLsbD j = false) → exec (.ffr p d a x) s = .next (s.wroteG d (.ofNat 64 k))))
  )

/-! ## Matrix, stream, collective and seal commands (opcodes 0x80 to 0x8E, 0xD7 to 0xD9) -/

namespace Sys2Proof.Machine

/-- What every MX instruction asks first (R287, R294): its qualifier, no pending matrix report, and a job that uses the arrays. -/
abbrev MxOn (s : State) (p : BitVec 4) (srcs dsts : List Operand) : Prop :=
  On s p srcs dsts ∧ s.me.report = none ∧ s.myRecord.mx = true

/-- The context holds the hasp, has counted fewer than 64 commands, and has no LEASE that is not committed (R287). -/
abbrev HoldsHasp (s : State) : Prop := s.leaseHeld = false ∧ s.me.hasp = .held ∧ s.me.haspCnt < 64

/-- A matrix command of the current context, with the words of its record and FPFLAGS in XF (R149, R289, R299). -/
def State.mxMessage (s : State) (code sub : Nat) (sel : Option Nat) (a b c : Word) : Packet :=
  { w0 := msgHeader (clusterOf s.cur) 0 0xE0 s.me.jobid 1 false 0 false s.regs.flags.toNat 3, w1 := 0
    payload := [.ofNat 64 (code + sub * 2 ^ 8 + bitNat sel.isSome * 2 ^ 13 + sel.getD 0 % 256 * 2 ^ 14), a, b, c], poison := [false]
    src := s.cur, aclass := aclassOf s.cur (clusterOf s.cur), ctx := s.curCtx, inv := s.me.invser }

/-- A command to an engine of an endpoint: kind 3, with the invocation's job and flags (R352). -/
def State.toEngine (s : State) (n sel : Nat) (pay : List Word) (poison : List Bool) : Packet :=
  { w0 := msgHeader n 0 sel s.me.jobid (pay.length / 4) false 0 false s.regs.flags.toNat 3, w1 := 0, payload := pay, poison := poison
    src := s.cur, aclass := aclassOf s.cur n, ctx := s.curCtx }

/-- From s to t an engine command was buffered: with its result register's slot, or without a result when d is 0. -/
def EngineBuffered (s t : State) (d : BitVec 5) (n : Nat) (pay : List Word) (poison : List Bool) : Prop :=
  (d = 0 → BufferedOnly s t (.msg (s.toEngine n 0xE0 pay poison) none plainAnswer none)) ∧
  (d ≠ 0 → BufferedResult s t (fun z => .msg (s.toEngine n (s.curCtx * 16 + z) pay poison) (some z) .engine none) d.toNat .engine)

/-- The key of a descriptor can take a stream or collective: allocated and not in flight (R52, R353, R355). -/
abbrev keyReady (s : State) (k : Nat) : Prop := (s.myCore.key k).alloc ≠ .free ∧ (s.myCore.key k).flight = 0

end Sys2Proof.Machine

open Sys2Proof Sys2Proof.Machine in
/-- R287, R299, R303 to R307: under a held hasp each counted MX command whose operands meet its limits is buffered with its record, and counts; with d ≠ 0 it asks for a completion reply in g[d]. The key of the message forms is g[d]. R300 to R302: MX.LEASE is buffered while the context has no hasp, and raises the matrix-command fault while it requests or holds one; MX.REL is buffered while it requests or holds one and is nothing without one; MX.CTX is buffered with its format word. R287: a counted MX command waits while the hasp is requested, and raises the no-hasp fault with reason 1 without one, 2 after 64 commands and 3 after the hasp was lost; at every MX instruction a pending report comes before all of them, and a job without matrix arrays is reason 4. Where the spec leaves a point of it open, it rests on the choices of logs 52 and 53. -/
def Obligations.MatrixInstructions : Prop :=
  (
  ∀ (s : State) (p : BitVec 4) (d a b : BitVec 5) (n : BitVec 1) (t : BitVec 3), Running s → HoldsHasp s → Room s 2 →
    let counted (u : State) : Prop := u.me.haspCnt = s.me.haspCnt + 1
    (MxOn s p [rg a, rg b] [rg d] →
      ∀ r ∈ [(Instr.mxA p d a, 0x83, 0, s.val a, (0 : Word), Answer.matrix), (.mxB p d a, 0x84, 0, s.val a, 0, .matrix),
             (.mxRun p d a b, 0x85, 0, s.val a, s.val b, .matrix), (.mxZero p d a, 0x86, 0, s.val a, 0, .matrix),
             (.mxDrain p d a b n, 0x87, n.toNat, s.val a, s.val b, .matrix), (.mxRawCell p d a, 0x88, 0, s.val a, 0, .raw false),
             (.mxRawStat p d, 0x88, 1, 0, 0, .raw true)],
        (∀ ra rb, s.checkCommand (!s.isSystem) s.cur r.2.1 r.2.2.1 r.2.2.2.1 r.2.2.2.2.1 ra rb = .ok ()) →
          (d = 0 → ∃ u, exec r.1 s = .next u ∧ counted u ∧
            u.block.effects = s.block.effects ++ [.msg (s.mxMessage r.2.1 r.2.2.1 none r.2.2.2.1 r.2.2.2.2.1 0) none plainAnswer none] ∧ u.regs = s.regs) ∧
          (d ≠ 0 → s.me.freeSlot.isSome = true → ∃ u, exec r.1 s = .next u ∧ counted u ∧
            BufferedResult s u (fun z => .msg (s.mxMessage r.2.1 r.2.2.1 (some (s.curCtx * 16 + z)) r.2.2.2.1 r.2.2.2.2.1 0) (some z) r.2.2.2.2.2 none) d.toNat r.2.2.2.2.2)) ∧
    (MxOn s p [rg d, rg a, rg b] [] →
      ∀ r ∈ [(Instr.mxDrainMsg p d a b n, 0x87, n.toNat + 2), (.mxSort p d a b t, 0x89, t.toNat)],
        (∀ ra rb, s.checkCommand (!s.isSystem) s.cur r.2.1 r.2.2 (s.val a) (s.val b) ra rb = .ok ()) →
          ∃ u, exec r.1 s = .next u ∧ counted u ∧
            u.block.effects = s.block.effects ++ [.msg (s.mxMessage r.2.1 r.2.2 none (s.val a) (s.val b) (s.val d)) none plainAnswer none] ∧ u.regs = s.regs)
  ) ∧
  (
  ∀ (s : State) (p : BitVec 4) (d a : BitVec 5) (n : BitVec 1), Running s → Room s 2 →
    (MxOn s p [] [rg d] → s.leaseHeld = true ∨ s.me.hasp = .requested ∨ s.me.hasp = .held →
      exec (.mxLease p d n) s = .next (s.settle (.error (.trap 0x0B none (some (d.setWidth 64)))))) ∧
    (MxOn s p [] [rg d] → s.leaseHeld = false → s.me.hasp = .none ∨ s.me.hasp = .lost →
      (d = 0 → ∃ u, exec (.mxLease p d n) s = .next u ∧ BufferedOnly s u (.msg (s.mxMessage 0x80 n.toNat none 0 0 0) none plainAnswer none)) ∧
      (d ≠ 0 → s.me.freeSlot.isSome = true → ∃ u, exec (.mxLease p d n) s = .next u ∧
        BufferedResult s u (fun z => .msg (s.mxMessage 0x80 n.toNat (some (s.curCtx * 16 + z)) 0 0 0) (some z) (.lease (n == 1)) none) d.toNat (.lease (n == 1)))) ∧
    (MxOn s p [] [] →
      (s.leaseHeld = true ∨ s.me.hasp = .requested ∨ s.me.hasp = .held → ∃ u, exec (.mxRel p) s = .next u ∧ BufferedOnly s u (.msg (s.mxMessage 0x81 0 none 0 0 0) none plainAnswer none)) ∧
      (s.leaseHeld = false → s.me.hasp = .none ∨ s.me.hasp = .lost → exec (.mxRel p) s = .next s.advance)) ∧
    (MxOn s p [rg a] [] → (s.val a).toNat < 2 ^ 9 →
      ∃ u, exec (.mxCtx p a) s = .next u ∧ BufferedOnly s u (.msg (s.mxMessage 0x82 0 none (s.val a) 0 0) none plainAnswer none))
  ) ∧
  (
  ∀ (s : State) (p : BitVec 4) (d a b : BitVec 5) (n : BitVec 1) (t : BitVec 3), s.regs.qualified p = true →
    let bad (n : Nat) : Stop := .trap 0x48 none (some (.ofNat 64 n))
    let counted : List Instr := [.mxA p d a, .mxB p d a, .mxRun p d a b, .mxZero p d a, .mxDrain p d a b n, .mxDrainMsg p d a b n,
      .mxRawCell p d a, .mxRawStat p d, .mxSort p d a b t]
    let free : List Instr := [.mxLease p d n, .mxRel p, .mxCtx p a]
    (∀ i ∈ counted ++ free,
      (∀ r, s.me.report = some r → exec i s = .next ((s.setMe { s.me with report := none }).settle (.error (.trap 0x49 none (some r))))) ∧
      (s.me.report = none → s.myRecord.mx = false → exec i s = .next (s.settle (.error (bad 4))))) ∧
    (s.me.report = none → s.myRecord.mx = true →
      ∀ i ∈ counted,
        (s.leaseHeld = true ∨ s.me.hasp = .requested → exec i s = .next s.passOver) ∧
        (s.leaseHeld = false → s.me.hasp = .none → exec i s = .next (s.settle (.error (bad 1)))) ∧
        (s.leaseHeld = false → s.me.hasp = .held → 64 ≤ s.me.haspCnt → exec i s = .next (s.settle (.error (bad 2)))) ∧
        (s.leaseHeld = false → s.me.hasp = .lost → exec i s = .next (s.settle (.error (bad 3)))))
  )

namespace Sys2Proof.Machine

/-- Bits lo to hi of a word. -/
abbrev cutBits (w : Word) (hi lo : Nat) : Nat := w.toNat / 2 ^ lo % 2 ^ (hi + 1 - lo)

/-- The descriptor that a GO carries for one read as ws (R53, R353, Table 3-2): REQ and JOB filled in, FLT, DX0 and DY0 replaced, and every other bit and word as read. -/
def relocated (s : State) (ws full : List Word) (x y flt : Nat) : Prop :=
  full.length = 16 ∧ (∀ k < 16, k ≠ 1 → k ≠ 9 → full.getD k 0 = ws.getD k 0) ∧
  cutBits (full.getD 1 0) 21 0 = s.cur % 2 ^ 22 ∧ cutBits (full.getD 1 0) 33 22 = s.me.jobid % 2 ^ 12 ∧
  cutBits (full.getD 1 0) 55 34 = flt % 2 ^ 22 ∧ cutBits (full.getD 1 0) 63 56 = cutBits (ws.getD 1 0) 63 56 ∧
  cutBits (full.getD 9 0) 6 0 = x % 2 ^ 7 ∧ cutBits (full.getD 9 0) 12 7 = y % 2 ^ 6 ∧ cutBits (full.getD 9 0) 63 13 = cutBits (ws.getD 9 0) 63 13

/-- Where the rectangle and the fault core of a descriptor lie (R19, R53): in a handler context job-relative inside PLBASE and relocated by it, in the system context absolute and inside PLBASE. -/
def placedAt (s : State) (ws : List Word) (x y flt : Nat) : Prop :=
  let pl := s.myCore.plbase
  let w9 := ws.getD 9 0
  let f := cutBits (ws.getD 1 0) 55 34
  let dx := cutBits w9 6 0
  let dy := cutBits w9 12 7
  let dw := cutBits w9 19 13
  let dh := cutBits w9 25 20
  nodeIsEnd f = false ∧ goodNode s.present flt = true ∧
  (s.isSystem = false → dx + dw < plWX pl ∧ dy + dh < plWY pl ∧ x = plBX pl + dx ∧ y = plBY pl + dy ∧
    ∃ u, relocCore pl s.myRecord (nodeX f) (nodeY f) (nodeModule f) = some u ∧ flt = coreNode u.2.2 u.1 u.2.1 (nodeCore f)) ∧
  (s.isSystem = true → plBX pl ≤ dx ∧ plBY pl ≤ dy ∧ dx + dw < plBX pl + plWX pl ∧ dy + dh < plBY pl + plWY pl ∧ x = dx ∧ y = dy ∧ flt = f)

/-- The rectangle leaves PLBASE, or the fault core is an endpoint (R53). -/
def misplaced (s : State) (ws : List Word) : Prop :=
  let pl := s.myCore.plbase
  let w9 := ws.getD 9 0
  nodeIsEnd (cutBits (ws.getD 1 0) 55 34) = true ∨
  (s.isSystem = false ∧ (plWX pl ≤ cutBits w9 6 0 + cutBits w9 19 13 ∨ plWY pl ≤ cutBits w9 12 7 + cutBits w9 25 20)) ∨
  (s.isSystem = true ∧ (cutBits w9 6 0 < plBX pl ∨ cutBits w9 12 7 < plBY pl ∨
    plBX pl + plWX pl ≤ cutBits w9 6 0 + cutBits w9 19 13 ∨ plBY pl + plWY pl ≤ cutBits w9 12 7 + cutBits w9 25 20))

/-- A core can reach an endpoint of a class on its own module (R16, R353, R355). -/
abbrev ownEndpoint (s : State) (n cls : Nat) : Prop :=
  n < 2 ^ 22 ∧ goodNode s.present n = true ∧ nodeIsEnd n = true ∧ nodeClass n = cls ∧ nodeModule n = nodeModule s.cur

end Sys2Proof.Machine

open Sys2Proof Sys2Proof.Machine in
/-- R53, R115, R352 to R355, R362, R363: STRM.GO reads its descriptor at issue as a message payload and holds a GO to the block's commit, with g[d] empty: command beat 1, then the descriptor with REQ, JOB, FLT, DX0 and DY0 as Table 3-2 gives and every other bit as read. A node that is no memory core of the own module, and a rectangle or fault core that does not relocate, raise the bad-destination fault 0x10, and a key that is Free or in flight the key-state fault 0x42. STRM.EXT, STRM.STOP, COL.RED, COL.BC and the SEAL commands are buffered to their engine with the beats that the local reads at issue see. Where the spec leaves a point of it open, it rests on the choices of log 83. -/
def Obligations.EngineCommandsBuffered : Prop :=
  ∀ (s : State) (p : BitVec 4) (d a b : BitVec 5) (n : Nat), Running s → Room s 4 →
    let va := s.val a
    let vb := s.val b
    let la := va.toNat
    let slot := d = 0 ∨ s.me.freeSlot.isSome = true
    let go (nb : Bool) : Instr := .strmGo p d a b (BitVec.ofBool nb)
    let ws := s.seenWords la 4
    (∀ (nb : Bool) (x y flt : Nat), On s p [rg a, rg b] [rg d] → Unheld s → goodLocal s .payload la 128 false 32 → Settled s la 4 → vb.toNat = n →
      (ownEndpoint s n 0 → placedAt s ws x y flt →
        (keyReady s (cutBits (ws.getD 0 0) 15 10) → s.me.freeSlot.isSome = true →
          ∃ u z m full back, exec (go nb) s = .next u ∧ s.me.freeSlot = some z ∧
            u.block.requests = s.block.requests ++ [m] ∧ u.regs = s.regs.markG d.toNat .awaitBlock ∧ u.agenda = s.agenda ∧ u.mem = s.mem ∧
            aget u.me.slots z = some { reg := d.toNat, answer := .streamGo (cutBits (ws.getD 0 0) 15 10) nb back, tag := s.myCore.nextTag } ∧
            m.w0 = msgHeader n 0 (s.curCtx * 16 + z) s.me.jobid 5 false 0 false s.regs.flags.toNat 3 ∧ m.w1 = 0 ∧ m.src = s.cur ∧ m.tag = s.myCore.nextTag ∧
            m.payload = [1, 0, 0, 0] ++ full ∧ relocated s ws full x y flt ∧ m.poison = false :: s.seenPoison la 4) ∧
        (¬ keyReady s (cutBits (ws.getD 0 0) 15 10) → exec (go nb) s = .next (s.settle (.error (.trap 0x42 none none))))) ∧
      (ownEndpoint s n 0 → misplaced s ws → ∃ i, exec (go nb) s = .next (s.settle (.error (.trap 0x10 none (some i))))) ∧
      (n < 2 ^ 22 → ¬ ownEndpoint s n 0 → exec (go nb) s = .next (s.settle (.error (.trap 0x10 none (some (.ofNat 64 n))))))) ∧
    (On s p [rg a, rg b] [rg d] → slot → va.toNat < 2 ^ 32 → vb.toNat < 2 ^ 32 → goodNode s.present (va.toNat % 2 ^ 22) = true →
      ∃ u, exec (.strmExt p d a b) s = .next u ∧ EngineBuffered s u d (va.toNat % 2 ^ 22) [.ofNat 64 (2 + va.toNat * 2 ^ 32), vb, 0, 0] [false]) ∧
    (On s p [rg a] [rg d] → slot → va.toNat < 2 ^ 32 → goodNode s.present (va.toNat % 2 ^ 22) = true →
      ∃ u, exec (.strmStop p d a) s = .next u ∧ EngineBuffered s u d (va.toNat % 2 ^ 22) [.ofNat 64 (3 + va.toNat * 2 ^ 32), 0, 0, 0] [false]) ∧
    (On s p [rg a, rg b] [rg d] → slot → goodLocal s .payload la 32 false 32 → Settled s la 1 → vb.toNat = n → ownEndpoint s n 1 →
      let ws := s.seenWords la 1
      let key := cutBits (ws.getD 0 0) 12 7
      let ps := false :: s.seenPoison la 1
      ∀ r ∈ [(Instr.colRed p d a b, false, 1), (.colBc p d a b, true, 2)],
        (colGood r.2.1 (nodeModule s.cur) ws = true → keyReady s key →
          let pay : List Word := [.ofNat 64 r.2.2, 0, 0, 0] ++ ws
          ∃ u, exec r.1 s = .next u ∧
            (d = 0 → BufferedOnly s u (.msg (s.toEngine n 0xE0 pay ps) none (.collective key) none)) ∧
            (d ≠ 0 → BufferedResult s u (fun z => .msg (s.toEngine n (s.curCtx * 16 + z) pay ps) (some z) (.collective key) none)
              d.toNat (.collective key))) ∧
        (colGood r.2.1 (nodeModule s.cur) ws = true → ¬ keyReady s key → exec r.1 s = .next (s.settle (.error (.trap 0x42 none none))))) ∧
    (On s p [rg a] [rg d] → slot →
      (goodVirtual la 4096 → ∃ u, exec (.sealOpen p d a) s = .next u ∧ EngineBuffered s u d (sealNode s.cur) [1, va, 0, 0] [false]) ∧
      (la < 2 ^ 16 → ∃ u, exec (.sealClose p d a) s = .next u ∧ EngineBuffered s u d (sealNode s.cur) [.ofNat 64 (3 + la * 2 ^ 32), 0, 0, 0] [false])) ∧
    (On s p [rg a, rg b] [rg d] → slot → la < 2 ^ 16 → goodLocal s .payload vb.toNat 32 false 32 → Settled s vb.toNat 1 →
      ∃ u, exec (.sealFrame p d a b) s = .next u ∧ EngineBuffered s u d (sealNode s.cur)
        ([.ofNat 64 (2 + la * 2 ^ 32), 0, 0, 0] ++ s.seenWords vb.toNat 1) (false :: s.seenPoison vb.toNat 1))

/-! ## Lattice instructions (opcodes 0xC0 to 0xCB) -/

namespace Sys2Proof.Machine

/-- From s to t an instruction has entered the lattice queue behind every earlier one (R339). -/
def LatticeQueued (s t : State) (op : Nat) (a b : Word) (f reg left : Nat) : Prop :=
  t.myCore.lattice.queue = s.myCore.lattice.queue ++
    [{ id := s.myCore.lattice.nextId, op := op, a := a, b := b, f := f, reg := reg, dest := { ctx := s.curCtx }, issued := s.clk, left := left }] ∧
  t.mem = s.mem ∧ t.agenda = s.agenda

/-- A transfer of a lattice image at its first attempt is checked and queued, and the instruction is passed over; it completes when the transfer is done (R348, R349). -/
def TransferCourse (s : State) (i : Instr) (op : Nat) (a : BitVec 5) (write : Bool) : Prop :=
  (s.block.transfer = none → goodLocal s .config (s.val a).toNat 0x1900 write 256 → laOff (s.val a).toNat + 0x1900 ≤ 0x24000 →
    ∃ u, exec i s = .next u ∧ LatticeQueued s u op (s.val a) 0 0 0 0 ∧ u.stalled = true ∧
      u.block.transfer = some (s.myCore.lattice.nextId, .waiting) ∧ u.block.pos = s.block.pos) ∧
  (s.block.transfer = none → (s.val a).toNat < 2 ^ 20 → (s.val a).toNat + 0x1900 ≤ storeSize 0 →
    (s.val a).toNat % 256 ≠ 0 ∨ 0x24000 < (s.val a).toNat + 0x1900 → exec i s = .next (s.settle (.error (.trap 0x08 none none)))) ∧
  (∀ k, s.block.transfer = some (k, .waiting) → exec i s = .next s.passOver) ∧
  (∀ k, s.block.transfer = some (k, .done) → exec i s = .next (s.blockDid (fun b => { b with transfer := none }))) ∧
  (∀ k c x y, s.block.transfer = some (k, .failed c x y) → exec i s = .next (s.settle (.error (.trap c x y))))

end Sys2Proof.Machine

open Sys2Proof Sys2Proof.Machine in
/-- R339, R342 to R347: each lattice instruction with operands in their fields enters the lattice queue with its values, and a read leaves its destination empty; R330: on a fenced lattice each raises the lattice-unavailable fault. R330, R342, R348, R349: the lattice image transfers: LAT.PATCH in any context, LAT.SAVE and LAT.REST in the system context alone; on a fenced lattice every one of them raises the lattice-unavailable fault. Where the spec leaves a point of it open, it rests on the choices of logs 72 and 73. -/
def Obligations.LatticeInstructions : Prop :=
  (
  ∀ (s : State) (p : BitVec 4) (d a b : BitVec 5) (v : BitVec 4) (f : BitVec 5), Running s → s.myCore.lattice.fenced = false →
    let x := s.val a
    let y := s.val b
    let bound (f : Nat) : Nat := if f = 4 then 2 ^ 2 else if f = 5 then 2 ^ 3 else 2 ^ 8
    (On s p [rg a, rg b] [] →
      (x.toNat < bound f.toNat → ∃ u, exec (.latSet p a b f) s = .next u ∧ LatticeQueued s u 0xC1 x y f.toNat 0 0 ∧ u.regs = s.regs) ∧
      (x.toNat < 2 ^ 3 → 2 ^ 32 ≤ y.toNat → exec (.latInj p a b) s = .next (s.settle (.error (.trap 0x0D none (some (.ofNat 64 (b.toNat + 0xC4 * 256))))))) ∧
      (x.toNat < 2 ^ 3 → y.toNat < 2 ^ 32 →
        ∃ u, exec (.latInj p a b) s = .next u ∧ LatticeQueued s u 0xC4 x y 0 0 0 ∧ u.regs = s.regs) ∧
      (x.toNat < 2 ^ 4 → y.toNat < 2 ^ 16 →
        ∃ u, exec (.latStep p a b) s = .next u ∧ LatticeQueued s u 0xC5 x y 0 0 (if x = 0 then 1 else y.toNat + 1) ∧ u.regs = s.regs) ∧
      (x.toNat < 2 ^ 2 → y.toNat < 2 ^ 17 → ∃ u, exec (.latClk p a b) s = .next u ∧ LatticeQueued s u 0xC6 x y 0 0 0 ∧ u.regs = s.regs)) ∧
    (On s p [rg a] [] → x.toNat < 2 ^ 4 →
      (∃ u, exec (.latRun p a) s = .next u ∧ LatticeQueued s u 0xC7 x 0 0 0 0 ∧ u.regs = s.regs) ∧
      (∃ u, exec (.latStop p a) s = .next u ∧ LatticeQueued s u 0xC8 x 0 0 0 0 ∧ u.regs = s.regs)) ∧
    (On s p [rg a] [rg d] → x.toNat < bound f.toNat →
      ∃ u, exec (.latGet p d a f) s = .next u ∧ LatticeQueued s u 0xC2 x 0 f.toNat d.toNat 0 ∧ u.regs = s.regs.markG d.toNat .empty) ∧
    (On s p [rg a] [rv v] → x.toNat < 2 ^ 8 → x.toNat % 32 = 0 →
      ∃ u, exec (.latRdv p v a f) s = .next u ∧ LatticeQueued s u 0xC3 x 0 f.toNat v.toNat 0 ∧ u.regs = s.regs.markV v.toNat .empty) ∧
    (On s p [] [rg d] →
      (∃ u, exec (.latStat p d) s = .next u ∧ LatticeQueued s u 0xCB 0 0 0 d.toNat 0 ∧ u.regs = s.regs.markG d.toNat .empty) ∧
      (∃ u, exec (.latStatClr p d) s = .next u ∧ LatticeQueued s u 0xCB 0 0 1 d.toNat 0 ∧ u.regs = s.regs.markG d.toNat .empty)) ∧
    (∀ u : State, u.regs.qualified p = true → u.myCore.lattice.fenced = true →
      ∀ i ∈ [Instr.latSet p a b f, .latGet p d a f, .latRdv p v a f, .latInj p a b, .latStep p a b, .latClk p a b, .latRun p a, .latStop p a,
             .latStat p d, .latStatClr p d],
        exec i u = .next (u.settle (.error (.trap 0x59 none none))))
  ) ∧
  (
  ∀ (s : State) (p : BitVec 4) (a : BitVec 5), On s p [rg a] [] →
    (Running s → s.myCore.lattice.fenced = false → TransferCourse s (.latPatch p a) 0xC0 a false) ∧
    (Running s → s.myCore.lattice.fenced = false → s.isSystem = true →
      TransferCourse s (.latSave p a) 0xC9 a true ∧ TransferCourse s (.latRest p a) 0xCA a false) ∧
    (s.isSystem = false →
      exec (.latSave p a) s = .next (s.settle (.error (.trap 0x02 none none))) ∧ exec (.latRest p a) s = .next (s.settle (.error (.trap 0x02 none none)))) ∧
    (s.myCore.lattice.fenced = true →
      exec (.latPatch p a) s = .next (s.settle (.error (.trap 0x59 none none))) ∧
      (s.isSystem = true → exec (.latSave p a) s = .next (s.settle (.error (.trap 0x59 none none))) ∧
        exec (.latRest p a) s = .next (s.settle (.error (.trap 0x59 none none)))))
  )

/-! ## The vector pipe (opcodes 0x90 to 0xB7) -/

namespace Sys2Proof.Machine

/-- A destination whose inactive lanes are kept is a source too (R257). -/
def kept (s : State) (p d : BitVec 4) : List Operand := if s.regs.laneMask p = 0xFFFFFFFF then [] else [rv d]

/-- Element j of width w of lane k of a v register (R256). -/
def State.elem (s : State) (w : Nat) (v : BitVec 4) (k j : Nat) : Nat := (s.regs.lane v.toNat k).toNat / 2 ^ (w * j) % 2 ^ w

/-- From s to t only v[d] and FPFLAGS changed among registers and memory: the elements of active lanes hold the results f, those of inactive lanes are kept, and FPFLAGS has gained the flags of every active element (R187, R256, R259). -/
def LaneResults (s t : State) (mask : Lane) (d : BitVec 4) (w : Nat) (f : Nat → Nat → FpResult) : Prop :=
  (∀ k < 32, ∀ j < 32 / w, t.elem w d k j = if laneOn mask k then (f k j).1 % 2 ^ w else s.elem w d k j) ∧
  (t.regs.vreg d.toNat).st = .full ∧
  (∀ i < 5, (t.regs.flags.getLsbD i = true ↔
    s.regs.flags.getLsbD i = true ∨ ∃ k < 32, ∃ j < 32 / w, laneOn mask k = true ∧ (f k j).2.getLsbD i = true)) ∧
  (∀ n, n ≠ d.toNat → t.regs.vreg n = s.regs.vreg n) ∧
  t.regs.g = s.regs.g ∧ t.regs.q = s.regs.q ∧ t.regs.p = s.regs.p ∧ t.mem = s.mem ∧ t.agenda = s.agenda

/-- The instruction completes with lane results in v[d]. -/
def LaneEffect (s : State) (p : BitVec 4) (i : Instr) (srcs : List Operand) (d : BitVec 4) (w : Nat) (f : Nat → Nat → FpResult) : Prop :=
  Lanes s p (srcs ++ kept s p d) [rv d] → ∃ t, exec i s = .next t ∧ LaneResults s t (s.regs.laneMask p) d w f

/-- A result that raises no flag. -/
def plain (x : Nat) : FpResult := (x, 0)

/-- An integer element of w bits as an integer, signed but for .n32 (R256). -/
def signedElem (w : Nat) (signed : Bool) (x : Nat) : Int := if signed && decide (2 ^ (w - 1) ≤ x) then (x : Int) - 2 ^ w else x

/-- An integer modulo 2^w. -/
def wrapped (w : Nat) (x : Int) : FpResult := plain (x % 2 ^ w).toNat

/-- An integer saturated to the range of a type (R11). -/
def clamped (w : Nat) (signed : Bool) (x : Int) : FpResult :=
  if signed then wrapped w (max (-(2 ^ (w - 1))) (min x (2 ^ (w - 1) - 1))) else wrapped w (max 0 (min x (2 ^ w - 1)))

end Sys2Proof.Machine

open Sys2Proof Sys2Proof.Machine in
/-- R256, R257, R261, R262: the element-wise floating-point instructions on each of the three formats: every active element is the operation of the elements of va, vb and, for VFMA and VFMS, the old vd, under the block's FP mode. R262, R265: the integer element instructions on .i32, .n32, .i16 and .i8: VMIN, VMAX, VABS, VNEG, VIADD in its four forms and VIMUL in its two; none raises a flag. -/
def Obligations.VectorArithmetic : Prop :=
  (
  ∀ (s : State) (p d a b : BitVec 4), Running s →
    ∀ r ∈ [((0 : BitVec 3), f32, 32), (1, bf16, 16), (2, f16, 16)],
      let F : FpFormat := r.2.1
      let w := r.2.2
      let m := fpModeOf s.block.fpmode
      let x (k j : Nat) := s.elem w a k j
      let y (k j : Nat) := s.elem w b k j
      let z (k j : Nat) := s.elem w d k j
      LaneEffect s p (.vadd p d a b r.1) [rv a, rv b] d w (fun k j => F.add m false (x k j) (y k j)) ∧
      LaneEffect s p (.vsub p d a b r.1) [rv a, rv b] d w (fun k j => F.add m true (x k j) (y k j)) ∧
      LaneEffect s p (.vmul p d a b r.1) [rv a, rv b] d w (fun k j => F.mul m (x k j) (y k j)) ∧
      LaneEffect s p (.vfma p d a b r.1) [rv a, rv b, rv d] d w (fun k j => F.fma m false (x k j) (y k j) (z k j)) ∧
      LaneEffect s p (.vfms p d a b r.1) [rv a, rv b, rv d] d w (fun k j => F.fma m true (x k j) (y k j) (z k j)) ∧
      LaneEffect s p (.vmin p d a b r.1) [rv a, rv b] d w (fun k j => F.minMax false (x k j) (y k j)) ∧
      LaneEffect s p (.vmax p d a b r.1) [rv a, rv b] d w (fun k j => F.minMax true (x k j) (y k j)) ∧
      LaneEffect s p (.vabs p d a r.1) [rv a] d w (fun k j => plain (x k j % 2 ^ (w - 1))) ∧
      LaneEffect s p (.vneg p d a r.1) [rv a] d w (fun k j => plain ((x k j + 2 ^ (w - 1)) % 2 ^ w)) ∧
      LaneEffect s p (.vsqrt p d a r.1) [rv a] d w (fun k j => F.sqrt m (x k j))
  ) ∧
  (
  ∀ (s : State) (p d a b : BitVec 4), Running s →
    ∀ r ∈ [((3 : BitVec 3), 32, true), (4, 32, false), (5, 16, true), (6, 8, true)],
      let w := r.2.1
      let sg := r.2.2
      let x (k j : Nat) := s.elem w a k j
      let y (k j : Nat) := s.elem w b k j
      let i (k j : Nat) := signedElem w sg (x k j)
      let l (k j : Nat) := signedElem w sg (y k j)
      LaneEffect s p (.vmin p d a b r.1) [rv a, rv b] d w (fun k j => plain (if i k j ≤ l k j then x k j else y k j)) ∧
      LaneEffect s p (.vmax p d a b r.1) [rv a, rv b] d w (fun k j => plain (if l k j ≤ i k j then x k j else y k j)) ∧
      LaneEffect s p (.viadd p d a b r.1 0) [rv a, rv b] d w (fun k j => wrapped w (i k j + l k j)) ∧
      LaneEffect s p (.viadd p d a b r.1 1) [rv a, rv b] d w (fun k j => clamped w sg (i k j + l k j)) ∧
      LaneEffect s p (.viadd p d a b r.1 2) [rv a, rv b] d w (fun k j => wrapped w (i k j - l k j)) ∧
      LaneEffect s p (.viadd p d a b r.1 3) [rv a, rv b] d w (fun k j => clamped w sg (i k j - l k j)) ∧
      LaneEffect s p (.vimul p d a b r.1 0) [rv a, rv b] d w (fun k j => wrapped w (i k j * l k j)) ∧
      LaneEffect s p (.vimul p d a b r.1 1) [rv a, rv b] d w (fun k j => wrapped w (i k j * l k j / 2 ^ w)) ∧
      (sg = true →
        LaneEffect s p (.vabs p d a r.1) [rv a] d w (fun k j => wrapped w (if i k j < 0 then -(i k j) else i k j)) ∧
        LaneEffect s p (.vneg p d a r.1) [rv a] d w (fun k j => wrapped w (-(i k j))))
  )

open Sys2Proof Sys2Proof.Machine in
/-- R266 to R270, R277 to R280: conversions by the layout of their widths, block packing and unpacking, the approximations, and VRED over the fixed tree into lane 0. Where the spec leaves a point of it open, it rests on the choices of logs 71 and 101. -/
def Obligations.ConversionAndReductionResults : Prop :=
  ∀ (s : State) (p d a b : BitVec 4) (i : BitVec 5), Running s →
    let m := fpModeOf s.block.fpmode
    let mask := s.regs.laneMask p
    let x (k : Nat) := (s.regs.lane a.toNat k).toNat
    (∀ (t : BitVec 3) (dst : BitVec 3) (rz : Bool), t ≠ 7 → dst ≠ 7 →
      let md : FpMode := if rz then { m with rm := 1 } else m
      let c (w : Nat) (v : BitVec 4) (k j : Nat) : FpResult := convertElement md t dst (s.elem w v k j)
      (elementWidth dst = elementWidth t →
        LaneEffect s p (.vcvt p d a b t (BitVec.ofBool rz ++ 0#1 ++ dst)) [rv a] d (elementWidth t) (fun k j => c (elementWidth t) a k j)) ∧
      (elementWidth t = 2 * elementWidth dst →
        LaneEffect s p (.vcvt p d a b t (BitVec.ofBool rz ++ 0#1 ++ dst)) [rv a, rv b] d (elementWidth dst)
          (fun k j => if j < 32 / elementWidth t then c (elementWidth t) a k j else c (elementWidth t) b k (j - 32 / elementWidth t))) ∧
      (elementWidth dst = 2 * elementWidth t → ∀ hi : Bool,
        LaneEffect s p (.vcvt p d a b t (BitVec.ofBool rz ++ BitVec.ofBool hi ++ dst)) [rv a] d (elementWidth dst)
          (fun k j => c (elementWidth t) a k (j + if hi then 32 / elementWidth dst else 0)))) ∧
    (i.toNat ≤ 6 → Lanes s p [rv a] [rv d] →
      let w := i.toNat + 2
      let blk := packBlock m.ftz w ((List.range 32).map (fun k => if laneOn mask k then x k else 0))
      ∃ t, exec (.vpackb p d a i) s = .next t ∧ (t.regs.vreg d.toNat).st = .full ∧ t.regs.flags = s.regs.flags ||| blk.2.2 ∧
        (∀ k, w ≤ k → k < 31 → t.regs.lane d.toNat k = 0) ∧ t.regs.lane d.toNat 31 = .ofNat 32 blk.1 ∧
        (∀ n < 32, ∀ e < w, (t.regs.lane d.toNat ((n * w + e) / 32)).getLsbD ((n * w + e) % 32) = (BitVec.ofInt w (blk.2.1.getD n 0)).getLsbD e)) ∧
    (i.toNat ≤ 6 →
      let w := i.toNat + 2
      let field := (List.range w).foldl (fun v j => v + x j * 2 ^ (32 * j)) 0
      LaneEffect s p (.vunpackb p d a i) [rv a] d 32 (fun k _ => blockElement m w (x 31 % 256) (signedElem w true (field / 2 ^ (w * k) % 2 ^ w)))) ∧
    LaneEffect s p (.vrcpa p d a) [rv a] d 32 (fun k _ => approxRecip m.ftz (x k)) ∧
    LaneEffect s p (.vrsqa p d a) [rv a] d 32 (fun k _ => approxRoot m.ftz (x k)) ∧
    LaneEffect s p (.vexp2a p d a) [rv a] d 32 (fun k _ => approxExp m.ftz (x k)) ∧
    LaneEffect s p (.vlog2a p d a) [rv a] d 32 (fun k _ => approxLog m.ftz (x k)) ∧
    (∀ (t : BitVec 3) (op : BitVec 2), t ∈ [(0 : BitVec 3), 3, 4] → op.toNat < 3 → Lanes s p [rv a, rv d] [rv d] →
      let leaf (k : Nat) : Option Nat := if laneOn mask k then some (if t = 0 ∧ op = 0 then f32.operand m.ftz (x k) else x k) else none
      let f (u v : Nat) : FpResult := if op = 0 then (if t = 0 then f32.add m false u v else plain ((u + v) % 2 ^ 32)) else elementMinMax t (op == 1) u v
      let pair (u v : Option Nat × BitVec 5) : Option Nat × BitVec 5 := match u.1, v.1 with
        | some y, some z => (some (f y z).1, u.2 ||| v.2 ||| (f y z).2)
        | some y, none => (some y, u.2 ||| v.2)
        | none, z => (z, u.2 ||| v.2)
      let n1 (k : Nat) := pair (leaf (2 * k), 0) (leaf (2 * k + 1), 0)
      let n2 (k : Nat) := pair (n1 (2 * k)) (n1 (2 * k + 1))
      let n3 (k : Nat) := pair (n2 (2 * k)) (n2 (2 * k + 1))
      let n4 (k : Nat) := pair (n3 (2 * k)) (n3 (2 * k + 1))
      let root := pair (n4 0) (n4 1)
      ∃ u, exec (.vred p d a t op) s = .next u ∧ (u.regs.lane d.toNat 0).toNat = (root.1.getD 0) % 2 ^ 32 ∧ u.regs.flags = s.regs.flags ||| root.2 ∧
        (∀ k, 0 < k → k < 32 → u.regs.lane d.toNat k = s.regs.lane d.toNat k) ∧ (∀ n, n ≠ d.toNat → u.regs.vreg n = s.regs.vreg n) ∧ u.regs.g = s.regs.g ∧ u.mem = s.mem)

open Sys2Proof Sys2Proof.Machine in
/-- R264, R265, R271, R272: the bitwise, shift, selection and lane-moving instructions on whole lanes; VCOMPACT writes every lane. R263, R273, R276: VCMP writes the active bits of qd, each true when its condition holds for every element of the lane; the lane-mask instructions and VMOVL.q write the active bits alone; VMOVG, VMOVG.q and QPOPC write one g register. R185, R274, R275: VLDM reads plane b of an input, with zeros beyond its beats and beyond the readable inputs, and a poisoned beat of an active lane poisons vd, which keeps its value (R184); VSTM buffers the active lanes packed in ascending order. -/
def Obligations.LaneValues : Prop :=
  (
  ∀ (s : State) (p d a b : BitVec 4) (n : BitVec 3) (i : BitVec 5), Running s →
    let x (k : Nat) := (s.regs.lane a.toNat k).toNat
    let y (k : Nat) := (s.regs.lane b.toNat k).toNat
    let on := activeLanes (s.regs.laneMask p)
    LaneEffect s p (.vand p d a b) [rv a, rv b] d 32 (fun k _ => plain (x k &&& y k)) ∧
    LaneEffect s p (.vor p d a b) [rv a, rv b] d 32 (fun k _ => plain (x k ||| y k)) ∧
    LaneEffect s p (.vxor p d a b) [rv a, rv b] d 32 (fun k _ => plain (x k ^^^ y k)) ∧
    LaneEffect s p (.vsel p d a b n) [rv a, rv b] d 32 (fun k _ => plain (if (s.regs.qreg n.toNat).getLsbD k then x k else y k)) ∧
    (∀ t ∈ [(3 : BitVec 3), 4],
      LaneEffect s p (.vshl p d a b t 0) [rv a, rv b] d 32 (fun k _ => plain (x k * 2 ^ (y k % 32))) ∧
      (i ≠ 0 → LaneEffect s p (.vshl p d a b t i) [rv a] d 32 (fun k _ => plain (x k * 2 ^ i.toNat)))) ∧
    LaneEffect s p (.vshr p d a b 3 0) [rv a, rv b] d 32 (fun k _ => wrapped 32 (signedElem 32 true (x k) / 2 ^ (y k % 32))) ∧
    LaneEffect s p (.vshr p d a b 4 0) [rv a, rv b] d 32 (fun k _ => plain (x k / 2 ^ (y k % 32))) ∧
    (i ≠ 0 →
      LaneEffect s p (.vshr p d a b 3 i) [rv a] d 32 (fun k _ => wrapped 32 (signedElem 32 true (x k) / 2 ^ i.toNat)) ∧
      LaneEffect s p (.vshr p d a b 4 i) [rv a] d 32 (fun k _ => plain (x k / 2 ^ i.toNat))) ∧
    LaneEffect s p (.vperm p d a b) [rv a, rv b] d 32 (fun k _ => plain (x (y k % 32))) ∧
    LaneEffect s p (.vbcast p d a i) [rv a] d 32 (fun _ _ => plain (x i.toNat)) ∧
    LaneEffect s p (.vidx p d b i) [] d 32 (fun k _ => plain (i.toNat + k * b.toNat)) ∧
    LaneEffect s p (.vexpand p d a) [rv a] d 32 (fun k _ => plain (x (on.idxOf k))) ∧
    (∀ g : BitVec 5, LaneEffect s p (.vmovl p d g) [rg g] d 32 (fun _ _ => plain ((s.val g).toNat % 2 ^ 32))) ∧
    (Lanes s p [rv a] [rv d] → ∃ t, exec (.vcompact p d a) s = .next t ∧
      LaneResults s t 0xFFFFFFFF d 32 (fun k _ => plain (if k < on.length then x (on.getD k 0) else 0)))
  ) ∧
  (
  ∀ (s : State) (p a b : BitVec 4) (d qa qb : BitVec 3) (g : BitVec 5), Running s →
    let mask := s.regs.laneMask p
    let bits (t : State) (f : Nat → Bool) : Prop :=
      (∀ k < 32, (t.regs.qreg d.toNat).getLsbD k = if laneOn mask k then f k else (s.regs.qreg d.toNat).getLsbD k) ∧
      (∀ n, n ≠ d.toNat → t.regs.qreg n = s.regs.qreg n) ∧ t.regs.g = s.regs.g ∧ t.regs.v = s.regs.v ∧ t.regs.p = s.regs.p ∧ t.mem = s.mem
    (Lanes s p [rv a, rv b] [] →
      (∀ r ∈ [((0 : BitVec 3), f32, 32), (1, bf16, 16), (2, f16, 16)], ∀ cc : BitVec 5, cc.toNat < 8 →
        ∃ t, exec (.vcmp p d a b r.1 cc) s = .next t ∧
          bits t (fun k => (List.range (32 / r.2.2)).all (fun j => (r.2.1.compare cc.toNat (s.elem r.2.2 a k j) (s.elem r.2.2 b k j)).1)) ∧
          (∀ i < 5, (t.regs.flags.getLsbD i = true ↔ s.regs.flags.getLsbD i = true ∨
            ∃ k < 32, ∃ j < 32 / r.2.2, laneOn mask k = true ∧ (r.2.1.compare cc.toNat (s.elem r.2.2 a k j) (s.elem r.2.2 b k j)).2.getLsbD i = true))) ∧
      (∀ r ∈ [((3 : BitVec 3), 32, true), (4, 32, false), (5, 16, true), (6, 8, true)], ∀ cc : BitVec 5,
        ∀ rel : Int → Int → Bool, [fun x y => x == y, fun x y => x != y, fun x y => decide (x < y), fun x y => decide (x ≤ y), fun x y => decide (y < x), fun x y => decide (y ≤ x)][cc.toNat]? = some rel →
        ∃ t, exec (.vcmp p d a b r.1 cc) s = .next t ∧ t.regs.flags = s.regs.flags ∧
          bits t (fun k => (List.range (32 / r.2.1)).all (fun j => rel (signedElem r.2.1 r.2.2 (s.elem r.2.1 a k j)) (signedElem r.2.1 r.2.2 (s.elem r.2.1 b k j)))))) ∧
    (Lanes s p [] [] →
      (∃ t, exec (.qand p d qa qb) s = .next t ∧ bits t (fun k => (s.regs.qreg qa.toNat).getLsbD k && (s.regs.qreg qb.toNat).getLsbD k)) ∧
      (∃ t, exec (.qor p d qa qb) s = .next t ∧ bits t (fun k => (s.regs.qreg qa.toNat).getLsbD k || (s.regs.qreg qb.toNat).getLsbD k)) ∧
      (∃ t, exec (.qnot p d qa) s = .next t ∧ bits t (fun k => !(s.regs.qreg qa.toNat).getLsbD k))) ∧
    (Lanes s p [rg g] [] → ∃ t, exec (.vmovlQ p d g) s = .next t ∧ bits t (fun k => (s.val g).getLsbD k)) ∧
    (Lanes s p [] [rg g] →
      exec (.vmovgQ p qa g) s = .next (s.wroteG g ((s.regs.qreg qa.toNat &&& mask).setWidth 64)) ∧
      exec (.qpopc p qa g) s = .next (s.wroteG g (.ofNat 64 (((List.range 32).filter (s.regs.qreg qa.toNat &&& mask).getLsbD).length)))) ∧
    (Lanes s p [rv a] [rg g] → ∀ k < 32, laneOn mask k = true → (∀ j < k, laneOn mask j = false) →
      exec (.vmovg p a 3 g) s = .next (s.wroteG g ((s.regs.lane a.toNat k).signExtend 64)) ∧
      exec (.vmovg p a 4 g) s = .next (s.wroteG g ((s.regs.lane a.toNat k).setWidth 64)))
  ) ∧
  (
  ∀ (s : State) (p d a b : BitVec 4), Running s →
    let mask := s.regs.laneMask p
    let on := activeLanes mask
    let word (k : Nat) := 16 * b.toNat + k / 2
    (∀ m, Lanes s p (kept s p d) [rv d] → s.input a.toNat = some m →
      ∃ t, exec (.vldm p d a b) s = .next t ∧
        (on.any (fun k => payloadPoison m (word k)) = false → (t.regs.vreg d.toNat).st = .full ∧
          ∀ k < 32, t.regs.lane d.toNat k = if laneOn mask k then (payloadWord m (word k)).extractLsb' (32 * (k % 2)) 32 else s.regs.lane d.toNat k) ∧
        (on.any (fun k => payloadPoison m (word k)) = true → t = (s.setRegs (s.regs.markV d.toNat .poisoned)).advance)) ∧
    (Lanes s p (kept s p d) [rv d] → s.input a.toNat = none →
      ∃ t, exec (.vldm p d a b) s = .next t ∧ LaneResults s t mask d 32 (fun _ _ => plain 0)) ∧
    (∀ g : BitVec 5, Lanes s p [rv a, rg g] [] → Room s 5 →
      let la := (s.val g).toNat
      goodLocal s .vector la (4 * on.length) true 4 →
      exec (.vstm p a g) s = .next (((s.onBlock (fun t => { t with effects := t.effects ++
        [.store [(la, on.flatMap (fun k => (List.range 4).map (fun j => .ofNat 8 ((s.regs.lane a.toNat k).toNat / 256 ^ j))))] 5] })).noteAccess
          0xB3 true false la (4 * on.length)).advance))
  )

open Sys2Proof Sys2Proof.Machine in
/-- R76, R77: rounding m × 2^(-n) to an integer by each mode, and the overflow results of Table 4-4. R76, R261: in every format and rounding mode a value that is neither a NaN nor flushed is unchanged by a product with 1, without a flag; sums and products of two values that are no NaNs do not depend on the order of their operands; a difference is the sum with the other sign. -/
def Obligations.RoundingAndFloatLaws : Prop :=
  (
  (∀ (rm : Nat) (neg : Bool) (m n : Nat), 0 < n → rm < 4 →
    let r := roundInteger rm neg m (-(n : Int))
    let away : Bool := if neg then rm == 3 else rm == 2
    (r.2 = true ↔ m % 2 ^ n ≠ 0) ∧
    (rm = 0 → 2 * (r.1 * 2 ^ n) ≤ 2 * m + 2 ^ n ∧ 2 * m ≤ 2 * (r.1 * 2 ^ n) + 2 ^ n ∧
      ((2 * (r.1 * 2 ^ n) = 2 * m + 2 ^ n ∨ 2 * m = 2 * (r.1 * 2 ^ n) + 2 ^ n) → r.1 % 2 = 0)) ∧
    (rm ≠ 0 → away = false → r.1 * 2 ^ n ≤ m ∧ m < (r.1 + 1) * 2 ^ n) ∧
    (rm ≠ 0 → away = true → m ≤ r.1 * 2 ^ n ∧ r.1 * 2 ^ n < m + 2 ^ n)) ∧
  (∀ (rm : Nat) (neg : Bool), rm < 4 →
    f32.overflow rm neg =
      (bitNat neg * 2 ^ 31 + (if rm = 0 ∨ (rm = 2 ∧ neg = false) ∨ (rm = 3 ∧ neg = true) then 0x7F800000 else 0x7F7FFFFF), flagOF ||| flagNX))
  ) ∧
  (
  ∀ (F : FpFormat) (m : FpMode) (x y : Nat), F ∈ [f32, bf16, f16] → m.rm < 4 → x < 2 ^ F.width → y < 2 ^ F.width → F.isNan x = false →
    ((m.ftz = true → F.isSubnormal x = false) → F.mul m x (F.bias * 2 ^ F.fb) = (x, 0)) ∧
    (F.isNan y = false → F.add m false x y = F.add m false y x ∧ F.mul m x y = F.mul m y x ∧
      F.add m true x y = F.add m false x ((y + 2 ^ (F.width - 1)) % 2 ^ F.width))
  )

/-! ## System instructions, trace, counters and the patch (opcodes 0xD0 to 0xFF) -/

namespace Sys2Proof.Machine

/-- The privilege fault at an instruction (R195, R351). -/
def State.privilegeFault (s : State) : State := s.settle (.error (.trap 0x02 none none))

/-- The instruction is over with an effect for the block's commit noted (R356). -/
def State.noted (s : State) (a : AtCommit) : State := s.blockDid (fun b => { b with acts := b.acts ++ [a] })

end Sys2Proof.Machine

open Sys2Proof Sys2Proof.Machine in
/-- R356, R366: MFS writes the special register of Table 15-3, PERF.RD a counter (5 to 9 in the system context alone); MTS writes FPFLAGS at once, and FPMODE, or in the system context any other register, at the block's commit. R195, R351, R356 to R366, R322, R342: in a handler context every privileged instruction that is qualified on raises the privilege fault, whatever its operands hold. -/
def Obligations.SpecialRegistersAndPrivilege : Prop :=
  (
  ∀ (s : State) (p : BitVec 4) (d a : BitVec 5) (i : BitVec 10),
    (On s p [] [rg d] → Unheld s →
      exec (.mfs p d i) s = .next (s.wroteG d (s.readSpecial i.toNat)) ∧
      (i.toNat ≤ 4 ∨ s.isSystem = true → exec (.perfRd p d i) s = .next (s.wroteG d (s.readCounter i.toNat)))) ∧
    (On s p [rg a] [] →
      exec (.mts p a 0x0B) s = .next ((s.setRegs { s.regs with flags := (s.val a).setWidth 5 }).advance) ∧
      exec (.mts p a 0x0A) s = .next (s.noted (.mts 0x0A (s.val a))) ∧
      (i ≠ 0x0B → s.isSystem = true → exec (.mts p a i) s = .next (s.noted (.mts i.toNat (s.val a))))) ∧
    s.readSpecial 0x00 = s.myCore.keyring ∧ s.readSpecial 0x05 = .ofNat 64 s.curCtx ∧ s.readSpecial 0x06 = .ofNat 64 s.cur ∧
    s.readSpecial 0x08 = s.myCore.plbase ∧ s.readSpecial 0x09 = s.myCore.wkdesc ∧ s.readSpecial 0x0A = s.me.fpmode.setWidth 64 ∧
    s.readSpecial 0x0B = s.regs.flags.setWidth 64 ∧ s.readSpecial 0x0C = s.myCore.fpfirst ∧
    s.readSpecial 0x0D = s.me.trap.cause ∧ s.readSpecial 0x0E = s.me.trap.addr ∧ s.readSpecial 0x0F = s.me.trap.blk ∧ s.readSpecial 0x10 = s.me.trap.info ∧
    s.readSpecial 0x11 = s.me.invser ∧ s.readSpecial 0x16 = s.myCore.opmap ∧
    s.readSpecial 0x15 = .ofNat 64 (0x2A000 + (s.cur % 4 * 11 + s.curCtx) * 0x800)
  ) ∧
  (
  ∀ (s : State) (p : BitVec 4) (d a b : BitVec 5) (i : BitVec 10) (t : BitVec 2) (u : BitVec 1), s.regs.qualified p = true → s.isSystem = false →
    ∀ j ∈ [Instr.tresume p d a, .tkill p d a, .tretry p d a b, .tlbi p d a b t, .tlbp p d a u, .trcCtl p d a, .watch p a b t,
           .cfgSave p a, .cfgRest p a, .latSave p a, .latRest p a] ++
          (if i = 0x0A ∨ i = 0x0B then [] else [.mts p a i]) ++ (if i.toNat ≤ 4 then [] else [.perfRd p d i]),
      exec j s = .next s.privilegeFault
  )

open Sys2Proof Sys2Proof.Machine in
/-- R359: TRESUME and TKILL of a parked context, or of a paused head, answer status 0 and act at the block's commit; of a context that is not parked or a head that is not paused, or of one that an earlier instruction of the block named, they answer status 1, do nothing, and name it for the rest of the block. TRETRY answers 0 after a DONE and for an entry that finds a core, 1 where it names no parked context, 2 where the retries are used up, 3 after a COMMIT and 4 where no core takes the entry; it acts at the commit. With a[4] = 1 it answers status 1 and names nothing. R360, R361: TLBI is buffered with its range and scope, and with a result leaves g[d] empty until it is complete; TLBP writes the leaf that the probed TLB, or the cluster's, holds, and 0 on a miss. R364, R365: TRC.MARK, TRC.CTL and WATCH act at the block's commit; TRC.CTL also writes the old control word. Where the spec leaves a point of it open, it rests on the choices of logs 69 and 70. -/
def Obligations.SystemInstructions : Prop :=
  (
  ∀ (s : State) (p : BitVec 4) (d a b : BitVec 5), s.isSystem = true →
    let v := (s.val a).toNat
    let status (n : Nat) : Word := .ofNat 64 (n * 2 ^ 32)
    let gave (n : Nat) (x : AtCommit) : State := (s.setRegs (s.regs.setG d.toNat (status n))).noted x
    (On s p [rg a] [rg d] →
      (v ≤ 9 → s.named v = false → (s.ctx s.cur v).status = .parked →
        exec (.tresume p d a) s = .next (gave 0 (.tresume v)) ∧ exec (.tkill p d a) s = .next (gave 0 (.tkill v))) ∧
      (16 ≤ v → v ≤ 19 → s.named v = false → s.myCore.q.pausedAt (v - 16) = true →
        exec (.tresume p d a) s = .next (gave 0 (.resumeHead (v - 16))) ∧ exec (.tkill p d a) s = .next (gave 0 (.killHead (v - 16)))) ∧
      (v ≤ 9 ∧ (s.named v = true ∨ (s.ctx s.cur v).status ≠ .parked) ∨
          16 ≤ v ∧ v ≤ 19 ∧ (s.named v = true ∨ s.myCore.q.pausedAt (v - 16) = false) →
        exec (.tresume p d a) s = .next (gave 1 (.tretry v none 4)) ∧ exec (.tkill p d a) s = .next (gave 1 (.tretry v none 4)))) ∧
    (On s p [rg a, rg b] [rg d] → (s.val b).toNat ≤ 16 →
      (16 ≤ v → v < 32 → exec (.tretry p d a b) s = .next (s.wroteG d (status 1))) ∧
      (v ≤ 9 → s.named v = true ∨ (s.ctx s.cur v).status ≠ .parked ∨ (s.ctx s.cur v).invocation = none →
        exec (.tretry p d a b) s = .next (gave 1 (.tretry v none 4))) ∧
      (∀ i, v ≤ 9 → s.named v = false → (s.ctx s.cur v).status = .parked → (s.ctx s.cur v).invocation = some i →
        let target := s.retryTarget s.cur (s.ctx s.cur v).jobid ((s.val b).toNat % 16) ((s.val b).getLsbD 4)
        (i.finished = true → exec (.tretry p d a b) s = .next (gave 0 (.tretry v none 0))) ∧
        (i.finished = false → i.consumed = true → exec (.tretry p d a b) s = .next (gave 3 (.tretry v none 3))) ∧
        (i.finished = false → i.consumed = false →
          (i.retry ≤ i.entry.retries → exec (.tretry p d a b) s = .next (gave 2 (.tretry v none 2))) ∧
          (i.entry.retries < i.retry →
            (∀ t, target = some t → exec (.tretry p d a b) s = .next (gave 0 (.tretry v (some t) 0))) ∧
            (target = none → exec (.tretry p d a b) s = .next (gave 4 (.tretry v none 4)))))))
  ) ∧
  (
  ∀ (s : State) (p : BitVec 4) (d a b : BitVec 5) (t : BitVec 2) (u : BitVec 1), s.isSystem = true →
    (On s p [rg a, rg b] [rg d] → Running s → Room s 1 → (s.val a).toNat < 2 ^ 48 → (s.val b).toNat < (if t.getLsbD 1 then 2 ^ 12 else 2 ^ 14) →
      (t.getLsbD 1 = true → s.val a = 0) → (d = 0 ∨ s.me.freeSlot.isSome = true) →
      ∃ v sh, exec (.tlbi p d a b t) s = .next v ∧ v.block.effects = s.block.effects ++ [.tlbi sh] ∧ v.agenda = s.agenda ∧
        sh.issuer = s.cur ∧ sh.ctx = s.curCtx ∧ sh.job = (s.val b).toNat % 2 ^ 12 ∧ sh.size = (s.val b).toNat / 2 ^ 12 % 4 ∧
        sh.va = s.val a ∧ sh.all = t.getLsbD 1 ∧ sh.domain = t.getLsbD 0 ∧ sh.slot.isSome = !(d == 0) ∧
        v.regs = s.regs.markG d.toNat .awaitCommit) ∧
    (On s p [rg a] [rg d] → Unheld s → (s.val a).toNat < 2 ^ 48 →
      let own := if u = 1 then s.myCore.itlb else s.myCore.dtlb
      let second := (s.cluster (clusterOf s.cur)).tlb
      let leaf (e : TlbEntry) (n : Nat) : Word := .ofNat 64 (e.pte.toNat % 2 ^ 52 + (3 - e.level) * 2 ^ 52 + n * 2 ^ 54)
      (∀ e, tlbPick own s.me.jobid (s.val a).toNat = some e → exec (.tlbp p d a u) s = .next (s.wroteG d (leaf e 0))) ∧
      (∀ e, tlbPick own s.me.jobid (s.val a).toNat = none → tlbPick second s.me.jobid (s.val a).toNat = some e →
        exec (.tlbp p d a u) s = .next (s.wroteG d (leaf e 1))) ∧
      (tlbPick own s.me.jobid (s.val a).toNat = none → tlbPick second s.me.jobid (s.val a).toNat = none →
        exec (.tlbp p d a u) s = .next (s.wroteG d 0)))
  ) ∧
  (
  ∀ (s : State) (p : BitVec 4) (d a b : BitVec 5) (i : BitVec 10) (n : BitVec 2),
    (On s p [rg a] [] → exec (.trcMark p a i) s = .next (s.noted (.traceMark (s.val a) i.toNat))) ∧
    (s.isSystem = true → On s p [rg a] [rg d] → (s.val a).toNat < 2 ^ 6 →
      exec (.trcCtl p d a) s = .next ((s.setRegs (s.regs.setG d.toNat s.myCore.dbg.traceCtl)).noted (.traceControl (s.val a)))) ∧
    (s.isSystem = true → On s p [rg a, rg b] [] → (s.val b).toNat < 2 ^ 9 → 3 ≤ (s.val b).toNat / 16 → (s.val b).toNat / 16 ≤ 16 →
      (s.val a).toNat % 2 ^ ((s.val b).toNat / 16) = 0 → (s.val a).toNat < (if (s.val b).getLsbD 3 then 2 ^ 48 else 2 ^ 22) →
      exec (.watch p a b n) s = .next (s.noted (.watch n.toNat (s.val a) (s.val b))))
  )

namespace Sys2Proof.Machine

/-- The patch can take a configuration instruction: in service, and with every earlier X complete (R309, R324, R326, R327). -/
abbrev PatchIdle (s : State) : Prop := s.myCore.patch.fenced = false ∧ s.myCore.patch.results = []

/-- An image or save area in the job region of G (R324, R327). -/
abbrev goodArea (s : State) (la size : Nat) (write : Bool) : Prop :=
  goodLocal s .config la size write 64 ∧ laOff la + size ≤ 0x24000

end Sys2Proof.Machine

open Sys2Proof Sys2Proof.Machine in
/-- R324 to R327: CFG.LD checks the image and fills its slot with rotation 0; CFG.INV empties slots, CFG.INV.cb clears banks, tags and rotations; CFG.BIND and CFG.BIND.u write OPMAP; the queries read the patch; CFG.SAVE writes the save area, and CFG.REST takes back what a valid area holds. R309, R314 to R317, R320, R323: Xn with no active lane is off; on a fenced patch, or without a bound and loaded image, it raises its trap; else it runs the image: its destinations are empty, one more result of the context is to come, and with no wait the result is due 3 × II + LAT clk after issue. R311 to R314: of a valid image, every entry gives at each active lane its operation on its sources, with the banks as they stood before; the results are the tokens of RES0 and RES1, with inactive lanes unchanged; each bank with WB takes its entry's tokens at the active lanes and raises its TAG by 1; every other bank is unchanged; ROT counts modulo 8 where ROTE = 1. R312: the operations are those of Table 13-4. Where the spec leaves a point of it open, it rests on the choices of logs 72, 75 and 76. -/
def Obligations.PatchInstructions : Prop :=
  (
  ∀ (s : State) (p n : BitVec 4) (d a : BitVec 5) (t : BitVec 2),
    let q := s.myCore.patch
    let la := (s.val a).toNat
    let pa := localPhys s.cur la
    (On s p [] [] → q.fenced = false →
      (exec (.cfgInv p t) s = .next (s.setPatch s.cur (q.setSlot t.toNat { q.slotAt t.toNat with image := none })).advance) ∧
      (∃ q', exec (.cfgInvAll p) s = .next (s.setPatch s.cur q').advance ∧ q'.banks = q.banks ∧
        ∀ k < 4, (q'.slotAt k).image = none ∧ (q'.slotAt k).rot = (q.slotAt k).rot) ∧
      (∃ q', exec (.cfgInvCb p) s = .next (s.setPatch s.cur q').advance ∧
        (∀ k < 4, (q'.slotAt k).image = (q.slotAt k).image ∧ (q'.slotAt k).rot = 0) ∧
        ∀ x y, (q'.bank x y).lanes = Vector.replicate 32 0 ∧ (q'.bank x y).tag = 0) ∧
      (∃ w, exec (.cfgBind p n t) s = .next (s.setMyCore { s.myCore with opmap := w }).advance ∧
        opmapBound w n.toNat = true ∧ opmapSlot w n.toNat = t.toNat ∧ ∀ k, k < 64 → k / 4 ≠ n.toNat → w.getLsbD k = s.myCore.opmap.getLsbD k) ∧
      (∃ w, exec (.cfgBindU p n) s = .next (s.setMyCore { s.myCore with opmap := w }).advance ∧
        opmapBound w n.toNat = false ∧ ∀ k, k < 64 → k ≠ 4 * n.toNat + 3 → w.getLsbD k = s.myCore.opmap.getLsbD k)) ∧
    (PatchIdle s →
      (On s p [] [rg d] → ∃ w, exec (.cfgQRes p d) s = .next (s.wroteG d w) ∧ ∀ k, w.getLsbD k = (decide (k < 4) && (q.slotAt k).image.isSome)) ∧
      (On s p [rg a] [rg d] →
        exec (.cfgQId p d a) s = .next (s.wroteG d (((q.slotAt (la % 4)).image.map (fun g => g.headD 0)).getD 0)) ∧
        exec (.cfgQRot p d a) s = .next (s.wroteG d (.ofNat 64 (q.slotAt (la % 4)).rot)) ∧
        exec (.cfgQTag p d a) s = .next (s.wroteG d (.ofNat 64 (q.bank (la % 16) (la / 16 % 8)).tag))) ∧
      (On s p [rg a] [] →
        (let size := 64 + 8 * ((Memory.word s.mem pa).toNat / 2 ^ 24 % 128 + 1)
         let g := wordsOf (Memory.readN s.mem pa size) (size / 8)
         goodArea s la size false → laSel la = 0 → anyPoison s pa size = false → graphFault g = none →
           exec (.cfgLd p a t) s = .next (s.setPatch s.cur (q.setSlot t.toNat { image := some g, rot := 0 })).advance) ∧
        (s.isSystem = true → goodArea s la 0x5140 true → anyPoison s pa 0x5140 = false →
          ∃ u, exec (.cfgSave p a) s = .next u ∧ u.mem = Memory.writeN s.mem pa s.myCore.patchArea ∧ u.regs = s.regs ∧ u.agenda = s.agenda) ∧
        (s.isSystem = true → goodArea s la 0x5140 false → anyPoison s pa 0x5140 = false → areaFault (Memory.readN s.mem pa 0x5140) = none →
          exec (.cfgRest p a) s = .next (s.setMyCore (s.myCore.restorePatch (Memory.readN s.mem pa 0x5140))).advance)))
  ) ∧
  (
  ∀ (s : State) (n p d a b c : BitVec 4),
    (s.regs.laneMask p = 0 → exec (.xn n p d a b c) s = .next s.advance) ∧
    (s.regs.laneMask p ≠ 0 →
      (s.myCore.patch.fenced = true → exec (.xn n p d a b c) s = .next (s.settle (.error (.trap 0x51 none none)))) ∧
      (s.myCore.patch.fenced = false → s.myCore.boundGraph n.toNat = none →
        exec (.xn n p d a b c) s = .next (s.settle (.error (unloaded s.myCore n.toNat))))) ∧
    (∀ g : Graph, s.myCore.patch.fenced = false → s.myCore.boundGraph n.toNat = some g → Running s → (g.nres = true → d.toNat < 15) →
      let dsts := rv d :: (if g.nres then [.v (d.toNat + 1) false] else [])
      let srcs := ([a, b, c].take (g.nsrc + 1)).map rv
      Lanes s p (srcs ++ (if s.regs.laneMask p = 0xFFFFFFFF then [] else dsts)) dsts →
      ∃ t r, exec (.xn n p d a b c) s = .next t ∧
        t.myCore.patch.results = s.myCore.patch.results ++ [r] ∧ r.d = d.toNat ∧ r.second.isSome = g.nres ∧ r.use = { ctx := s.curCtx } ∧
        s.clk + g.lat ≤ r.due ∧ t.me.results = s.me.results + 1 ∧
        t.later = s.later ++ [(r.due, .customOpcodeResult s.cur)] ∧
        (t.regs.vreg d.toNat).st = .empty ∧ (g.nres = true → (t.regs.vreg (d.toNat + 1)).st = .empty) ∧ t.regs.g = s.regs.g ∧ t.mem = s.mem ∧
        ((∀ e, s.myCore.patch.last = some e → e + g.ii ≤ s.clk) → (∀ i j k, (h : k < 32) → ((s.myCore.patch.bank i j).ready[k]'h) ≤ s.clk) → r.due = s.clk + 3 * g.ii + g.lat) ∧
        (graphFault g = none → ∃ toks : List (List FpResult),
          let old := s.myCore.patch
          let new := t.myCore.patch
          let slot := opmapSlot s.myCore.opmap n.toNat
          let rot := if g.rotates then (old.slotAt slot).rot else 0
          let on (k : Nat) : Bool := laneOn (s.regs.laneMask p) k
          let tok (e k : Nat) : FpResult := (toks.getD e []).getD k (0, 0)
          let value (x : GraphEntry) (k i : Nat) : Nat :=
            let code := x.srcs.getD i 0xFF
            if code < 0x78 then (tok code k).1
            else if code = 0x80 then (s.regs.lane a.toNat k).toNat
            else if code = 0x81 then (s.regs.lane b.toNat k).toNat
            else if code = 0x82 then (s.regs.lane c.toNat k).toNat
            else if 0x88 ≤ code ∧ code ≤ 0x8F then (((old.bank x.node ((code - 0x88 + rot) % 8)).lanes[k]?).getD 0).toNat
            else if 0x90 ≤ code ∧ code ≤ 0x97 then g.const (code - 0x90)
            else if code = 0xA0 then k else 0
          (∀ e x, g.entries[e]? = some x → ∀ k, k < 32 → on k = true → tok e k = nodeOp s.fpMode g.etype x.op (value x k 0) (value x k 1) (value x k 2)) ∧
          (∀ k (h : k < 32), (r.first[k]'h) = if on k then .ofNat 32 (tok g.res0 k).1 else s.regs.lane d.toNat k) ∧
          (∀ l, r.second = some l → ∀ k (h : k < 32), (l[k]'h) = if on k then .ofNat 32 (tok g.res1 k).1 else s.regs.lane (d.toNat + 1) k) ∧
          (∀ i, i < 5 → (r.flags.getLsbD i = true ↔ ∃ e k, e < g.entries.length ∧ k < 32 ∧ on k = true ∧ (tok e k).2.getLsbD i = true)) ∧
          (∀ e x, g.entries[e]? = some x → x.wb = true →
            let was := old.bank x.node ((x.bank + rot) % 8)
            let is := new.bank x.node ((x.bank + rot) % 8)
            is.tag = (was.tag + 1) % 65536 ∧ ∀ k (h : k < 32), (is.lanes[k]'h) = if on k then .ofNat 32 (tok e k).1 else (was.lanes[k]'h)) ∧
          (∀ i j, i < 16 → j < 8 → (∀ x ∈ g.entries, x.wb = true → (x.node, (x.bank + rot) % 8) ≠ (i, j)) → new.bank i j = old.bank i j) ∧
          new.slotAt slot = (if g.rotates then { old.slotAt slot with rot := (rot + 1) % 8 } else old.slotAt slot) ∧
          (∀ i, i ≠ slot → new.slotAt i = old.slotAt i))) ∧
    (∀ (md : FpMode) (et i : Nat) (x y z : Lane),
      let ones (q : Bool) : Lane := if q then 0xFFFFFFFF else 0
      let both := [(0, x), (7, if z = 0 then y else x), (8, x &&& y), (9, x ||| y), (10, x ^^^ y), (11, x <<< (y.toNat % 32)),
        (12, if et = 3 then x.sshiftRight (y.toNat % 32) else x >>> (y.toNat % 32))]
      let ints := [(1, x + y), (2, x - y), (3, x * y), (4, x * y + z), (5, if (if et = 3 then x.sle y else x.ule y) then x else y), (6, if (if et = 3 then x.sle y else x.ule y) then y else x),
        (13, ones (if et = 3 then x.slt y else x.ult y)), (14, ones (x == y)), (15, -x), (16, if et = 3 ∧ x.msb = true then -x else x)]
      let r := nodeOp md et i x.toNat y.toNat z.toNat
      (∀ v : Lane, (et = 0 ∨ et = 3 ∨ et = 4) → (i, v) ∈ both → r = (v.toNat, 0)) ∧
      (∀ v : Lane, (et = 3 ∨ et = 4) → (i, v) ∈ ints → r = (v.toNat, 0)) ∧
      (et = 0 → (i, r) ∈ [(1, f32.add md false x.toNat y.toNat), (2, f32.add md true x.toNat y.toNat), (3, f32.mul md x.toNat y.toNat), (4, f32.fma md false x.toNat y.toNat z.toNat),
        (5, f32.minMax false x.toNat y.toNat), (6, f32.minMax true x.toNat y.toNat), (15, ((x ^^^ 0x80000000).toNat, 0)), (16, ((x &&& 0x7FFFFFFF).toNat, 0)),
        (13, ((ones (f32.compare 2 x.toNat y.toNat).1).toNat, (f32.compare 2 x.toNat y.toNat).2)), (14, ((ones (f32.compare 0 x.toNat y.toNat).1).toNat, (f32.compare 0 x.toNat y.toNat).2))] ∨
        i ∉ [1, 2, 3, 4, 5, 6, 13, 14, 15, 16]))
  )

/-! ## What holds of every instruction -/

namespace Sys2Proof.Machine

/-- The qualifier of an instruction word that R186 reads as a predicate. -/
def predicateOf : Instr → Option (BitVec 4)
  | .nop p | .exit p _ _ | .call p _ _ | .ret p _ | .loop p _ _ | .done p | .commit p | .yield p _ | .trap p _ _ | .bkpt p _ | .waitf p _ _ | .empty p _ _ _ | .exitr p _ _ | .callr p _ _
  | .add p _ _ _ _ _ | .addi p _ _ _ | .sub p _ _ _ _ _ | .mul p _ _ _ _ _ | .muli p _ _ _ | .mulh p _ _ _ _ _ | .mulhn p _ _ _ _ _ | .div p _ _ _ _ _ | .divn p _ _ _ _ _ | .rem p _ _ _ _ _
  | .remn p _ _ _ _ _ | .and p _ _ _ _ _ | .andi p _ _ _ | .andn p _ _ _ _ _ | .or p _ _ _ _ _ | .ori p _ _ _ | .xor p _ _ _ _ _ | .xori p _ _ _ | .shl p _ _ _ _ _ | .shli p _ _ _
  | .shr p _ _ _ _ _ | .shri p _ _ _ | .sar p _ _ _ _ _ | .sari p _ _ _ | .rot p _ _ _ _ _ | .min p _ _ _ _ _ | .max p _ _ _ _ _ | .minn p _ _ _ _ _ | .maxn p _ _ _ _ _ | .abs p _ _ _
  | .clz p _ _ _ | .ctz p _ _ _ | .popc p _ _ _ | .bfx p _ _ _ _ _ | .bfxs p _ _ _ _ _ | .bfi p _ _ _ _ _ | .mov p _ _ _ | .movl p _ _ | .movh p _ _ | .sel p _ _ _ _ | .addx p _ _ _ _ _ _
  | .sati p _ _ _ | .wkf p _ _ _ | .wks p _ _ _ _ | .node p _ _ _ _ | .movm p _ _ _ | .cmp p _ _ _ _ | .cmpi41 p _ _ _ _ | .cmpi42 p _ _ _ _ | .cmpi43 p _ _ _ _ | .pand p _ _ _ _
  | .por p _ _ _ _ | .pxor p _ _ _ _ | .pnot p _ _ | .pmov p _ _ | .gpredPack p _ | .gpredUnpack p _ _ | .gpredNz p _ _ _ | .ldN8 p _ _ _ | .ldN16 p _ _ _ | .ldN32 p _ _ _ | .ldN64 p _ _ _
  | .ldsI8 p _ _ _ | .ldsI16 p _ _ _ | .ldsI32 p _ _ _ | .stN8 p _ _ _ | .stN16 p _ _ _ | .stN32 p _ _ _ | .stN64 p _ _ _ | .ldp p _ _ _ _ _ | .stp p _ _ _ _ _ | .amo p _ _ _ _
  | .rld p _ _ _ _ _ _ | .rst p _ _ _ _ _ _ | .ramo p _ _ _ _ | .rcpy p _ _ _ | .vld p _ _ _ _ _ _ | .vst p _ _ _ _ _ | .vrecl p _ _ _ _ _ | .fence p _ | .qfence p _ | .send p _ _ _ _
  | .sendv p _ _ _ _ | .reply p _ _ | .replySt p _ _ | .replyKey p _ _ | .spawn p _ _ _ _ | .tinc p _ _ | .tdec p _ _ | .tarm p _ _ | .trd p _ _ | .keya p _ | .keyaNb p _ _ | .keyf p _ _
  | .waitany p _ _ _ | .waitall p _ _ _ | .ffr p _ _ _ | .trigger p | .qpush p _ _ _ _ | .qpop p _ _ _ | .qpopFwd p _ _ | .qpopLen p _ _ | .mxLease p _ _ | .mxRel p | .mxCtx p _ | .mxA p _ _
  | .mxB p _ _ | .mxRun p _ _ _ | .mxZero p _ _ | .mxDrain p _ _ _ _ | .mxDrainMsg p _ _ _ _ | .mxRawCell p _ _ | .mxRawStat p _ | .mxSort p _ _ _ _ | .strmGo p _ _ _ _ | .strmExt p _ _ _
  | .strmStop p _ _ | .colRed p _ _ _ | .colBc p _ _ _ | .latPatch p _ | .latSet p _ _ _ | .latGet p _ _ _ | .latRdv p _ _ _ | .latInj p _ _ | .latStep p _ _ | .latClk p _ _ | .latRun p _
  | .latStop p _ | .latSave p _ | .latRest p _ | .latStat p _ | .latStatClr p _ | .mfs p _ _ | .mts p _ _ | .tresume p _ _ | .tkill p _ _ | .tretry p _ _ _ | .tlbi p _ _ _ _ | .tlbp p _ _ _
  | .sealOpen p _ _ | .sealFrame p _ _ _ | .sealClose p _ _ | .trcMark p _ _ | .trcCtl p _ _ | .watch p _ _ _ | .perfRd p _ _ | .cfgLd p _ _ | .cfgInv p _ | .cfgInvAll p | .cfgInvCb p
  | .cfgBind p _ _ | .cfgBindU p _ | .cfgQRes p _ | .cfgQId p _ _ | .cfgQRot p _ _ | .cfgQTag p _ _ | .cfgSave p _ | .cfgRest p _ => some p
  | _ => none

/-- The qualifier of an instruction word that R187 reads as a lane mask. -/
def laneMaskOf : Instr → Option (BitVec 4)
  | .ldv p _ _ _ | .stv p _ _ _ | .ldx p _ _ _ _ _ | .stx p _ _ _ _ _ | .vadd p _ _ _ _ | .vsub p _ _ _ _ | .vmul p _ _ _ _ | .vfma p _ _ _ _ | .vfms p _ _ _ _ | .vmin p _ _ _ _
  | .vmax p _ _ _ _ | .vabs p _ _ _ | .vneg p _ _ _ | .vcmp p _ _ _ _ _ | .vsel p _ _ _ _ | .vcvt p _ _ _ _ _ | .vpackb p _ _ _ | .vunpackb p _ _ _ | .vrcpa p _ _ | .vrsqa p _ _
  | .vexp2a p _ _ | .vlog2a p _ _ | .vsqrt p _ _ _ | .vred p _ _ _ _ | .vperm p _ _ _ | .vbcast p _ _ _ | .vidx p _ _ _ | .vcompact p _ _ | .vexpand p _ _ | .vand p _ _ _ | .vor p _ _ _
  | .vxor p _ _ _ | .vshl p _ _ _ _ _ | .vshr p _ _ _ _ _ | .viadd p _ _ _ _ _ | .vimul p _ _ _ _ _ | .vmovg p _ _ _ | .vmovgQ p _ _ | .vmovl p _ _ | .vmovlQ p _ _ | .vldm p _ _ _
  | .vstm p _ _ | .qand p _ _ _ | .qor p _ _ _ | .qnot p _ _ | .qpopc p _ _ | .xn _ p _ _ _ _ => some p
  | _ => none

/-- What an instruction may write of its context's g, v, p and q registers and FPFLAGS, and of its core's keys and OPMAP: the destinations that its own description names. -/
structure Writes where
  g : List Nat := []
  v : List Nat := []
  p : List Nat := []
  q : List Nat := []
  flags : Bool := false
  keys : Bool := false
  opmap : Bool := false

/-- What each instruction may write. The last line covers the steps of the device, which no word encodes. -/
def writesOf (s : State) : Instr → Option Writes
  | .nop _ | .exit _ _ _ | .call _ _ _ | .ret _ _ | .done _ | .commit _ | .yield _ _ | .trap _ _ _ | .bkpt _ _ | .waitf _ _ _ | .exitr _ _ _ | .callr _ _ _ | .stN8 _ _ _ _ | .stN16 _ _ _ _
  | .stN32 _ _ _ _ | .stN64 _ _ _ _ | .stv _ _ _ _ | .stp _ _ _ _ _ _ | .stx _ _ _ _ _ _ | .rst _ _ _ _ _ _ _ | .rcpy _ _ _ _ | .vst _ _ _ _ _ _ | .vrecl _ _ _ _ _ _ | .fence _ _
  | .qfence _ _ | .reply _ _ _ | .replySt _ _ _ | .replyKey _ _ _ | .tinc _ _ _ | .tdec _ _ _ | .tarm _ _ _ | .keyf _ _ _ | .trigger _ | .mxRel _ | .mxCtx _ _ | .mxDrainMsg _ _ _ _ _
  | .mxSort _ _ _ _ _ | .vstm _ _ _ | .latPatch _ _ | .latSet _ _ _ _ | .latInj _ _ _ | .latStep _ _ _ | .latClk _ _ _ | .latRun _ _ | .latStop _ _ | .latSave _ _ | .latRest _ _
  | .trcMark _ _ _ | .watch _ _ _ _ | .cfgLd _ _ _ | .cfgInv _ _ | .cfgInvAll _ | .cfgInvCb _ | .cfgSave _ _ => some {}
  | .loop _ _ _ => some { g := [31] }
  | .empty _ d _ _ | .cmp _ d _ _ _ | .cmpi41 _ _ d _ _ | .cmpi42 _ _ d _ _ | .cmpi43 _ _ d _ _ | .pand _ d _ _ _ | .por _ d _ _ _ | .pxor _ d _ _ _ | .pnot _ d _ | .pmov _ d _
  | .gpredNz _ d _ _ => some { p := [d.toNat] }
  | .add _ d _ _ _ _ | .addi _ d _ _ | .sub _ d _ _ _ _ | .mul _ d _ _ _ _ | .muli _ d _ _ | .mulh _ d _ _ _ _ | .mulhn _ d _ _ _ _ | .div _ d _ _ _ _ | .divn _ d _ _ _ _ | .rem _ d _ _ _ _
  | .remn _ d _ _ _ _ | .and _ d _ _ _ _ | .andi _ d _ _ | .andn _ d _ _ _ _ | .or _ d _ _ _ _ | .ori _ d _ _ | .xor _ d _ _ _ _ | .xori _ d _ _ | .shl _ d _ _ _ _ | .shli _ d _ _
  | .shr _ d _ _ _ _ | .shri _ d _ _ | .sar _ d _ _ _ _ | .sari _ d _ _ | .rot _ d _ _ _ _ | .min _ d _ _ _ _ | .max _ d _ _ _ _ | .minn _ d _ _ _ _ | .maxn _ d _ _ _ _ | .abs _ d _ _
  | .clz _ d _ _ | .ctz _ d _ _ | .popc _ d _ _ | .bfx _ d _ _ _ _ | .bfxs _ d _ _ _ _ | .bfi _ d _ _ _ _ | .mov _ d _ _ | .movl _ d _ | .movh _ d _ | .sel _ d _ _ _ | .addx _ d _ _ _ _ _
  | .sati _ d _ _ | .wkf _ d _ _ | .wks _ d _ _ _ | .node _ d _ _ _ | .movm _ d _ _ | .gpredPack _ d | .ldN8 _ d _ _ | .ldN16 _ d _ _ | .ldN32 _ d _ _ | .ldN64 _ d _ _ | .ldsI8 _ d _ _
  | .ldsI16 _ d _ _ | .ldsI32 _ d _ _ | .amo _ d _ _ _ | .rld _ d _ _ _ _ _ | .ramo _ d _ _ _ | .vld _ d _ _ _ _ _ | .spawn _ d _ _ _ | .trd _ d _ | .waitany _ d _ _ | .waitall _ d _ _
  | .ffr _ d _ _ | .qpush _ d _ _ _ | .qpop _ d _ _ | .qpopFwd _ d _ | .qpopLen _ d _ | .mxLease _ d _ | .mxA _ d _ | .mxB _ d _ | .mxRun _ d _ _ | .mxZero _ d _ | .mxDrain _ d _ _ _
  | .mxRawCell _ d _ | .mxRawStat _ d | .strmGo _ d _ _ _ | .strmExt _ d _ _ | .strmStop _ d _ | .colRed _ d _ _ | .colBc _ d _ _ | .latGet _ d _ _ | .latStat _ d | .latStatClr _ d
  | .mfs _ d _ | .tresume _ d _ | .tkill _ d _ | .tretry _ d _ _ | .tlbi _ d _ _ _ | .tlbp _ d _ _ | .sealOpen _ d _ | .sealFrame _ d _ _ | .sealClose _ d _ | .trcCtl _ d _ | .perfRd _ d _
  | .cfgQRes _ d | .cfgQId _ d _ | .cfgQRot _ d _ | .cfgQTag _ d _ => some { g := [d.toNat] }
  | .gpredUnpack _ _ _ => some { p := [1, 2, 3, 4, 5, 6, 7] }
  | .ldv _ d _ _ | .ldx _ d _ _ _ _ | .vabs _ d _ _ | .vneg _ d _ _ | .vsel _ d _ _ _ | .vperm _ d _ _ | .vbcast _ d _ _ | .vidx _ d _ _ | .vcompact _ d _ | .vexpand _ d _ | .vand _ d _ _
  | .vor _ d _ _ | .vxor _ d _ _ | .vshl _ d _ _ _ _ | .vshr _ d _ _ _ _ | .viadd _ d _ _ _ _ | .vimul _ d _ _ _ _ | .vmovl _ d _ | .vldm _ d _ _ | .latRdv _ d _ _ => some { v := [d.toNat] }
  | .ldp _ d _ _ _ _ => some { g := [d.toNat, d.toNat + 1] }
  | .send _ d _ _ t => some { g := if t.getLsbD 3 then [d.toNat] else [] }
  | .sendv _ d _ _ t => some { g := if t == 1 then [d.toNat] else [] }
  | .keya _ d => some { g := [d.toNat], keys := true }
  | .keyaNb _ d n => some { g := [d.toNat], p := [n.toNat], keys := true }
  | .vadd _ d _ _ _ | .vsub _ d _ _ _ | .vmul _ d _ _ _ | .vfma _ d _ _ _ | .vfms _ d _ _ _ | .vcvt _ d _ _ _ _ | .vpackb _ d _ _ | .vunpackb _ d _ _ | .vrcpa _ d _ | .vrsqa _ d _
  | .vexp2a _ d _ | .vlog2a _ d _ | .vsqrt _ d _ _ => some { v := [d.toNat], flags := true }
  | .vmin _ d _ _ t | .vmax _ d _ _ t | .vred _ d _ t _ => some { v := [d.toNat], flags := decide (t.toNat < 3) }
  | .vcmp _ d _ _ t _ => some { q := [d.toNat], flags := decide (t.toNat < 3) }
  | .vmovg _ _ _ g | .vmovgQ _ _ g | .qpopc _ _ g => some { g := [g.toNat] }
  | .vmovlQ _ d _ | .qand _ d _ _ | .qor _ d _ _ | .qnot _ d _ => some { q := [d.toNat] }
  | .mts _ _ i => some { flags := i == 0x0B }
  | .cfgBind _ _ _ | .cfgBindU _ _ | .cfgRest _ _ => some { opmap := true }
  | .xn n _ d _ _ _ => some { v := if (s.myCore.boundGraph n.toNat).any Graph.nres then [d.toNat, d.toNat + 1] else [d.toNat] }
  | _ => none

end Sys2Proof.Machine

namespace Sys2Proof.Machine

/-- What an instruction leaves alone when it neither parks its context nor names a register: the other registers, the context's own special registers, the other contexts, the special registers, keys and counters of the core, and everything outside the core but the TLBs and the messages under way. -/
structure Framed (s t : State) (w : Writes) : Prop where
  g : ∀ n, n ∉ w.g → t.regs.greg n = s.regs.greg n
  v : ∀ n, n ∉ w.v → t.regs.vreg n = s.regs.vreg n
  p : ∀ n, n ∉ w.p → t.regs.pred n = s.regs.pred n
  q : ∀ n, n ∉ w.q → t.regs.qreg n = s.regs.qreg n
  flags : w.flags = false → t.regs.flags = s.regs.flags
  context : t.me.status = s.me.status ∧ t.me.pc = s.me.pc ∧ t.me.trap = s.me.trap ∧ t.me.jobid = s.me.jobid ∧ t.me.fpmode = s.me.fpmode ∧
    t.me.invser = s.me.invser ∧ t.me.budgetLeft = s.me.budgetLeft ∧ t.me.budgetOn = s.me.budgetOn ∧ t.me.retire = s.me.retire ∧ t.me.invocation = s.me.invocation
  block : t.block.entry = s.block.entry ∧ t.block.header = s.block.header ∧ t.block.words = s.block.words ∧ t.block.fpmode = s.block.fpmode
  others : ∀ k, k ≠ s.curCtx → t.ctx s.cur k = s.ctx s.cur k
  core : t.myCore.plbase = s.myCore.plbase ∧ t.myCore.wkdesc = s.myCore.wkdesc ∧ t.myCore.fpfirst = s.myCore.fpfirst ∧
    t.myCore.mxflags = s.myCore.mxflags ∧ t.myCore.counters = s.myCore.counters ∧ t.myCore.hinge = s.myCore.hinge ∧ t.myCore.dbg = s.myCore.dbg ∧
    t.myCore.sysq = s.myCore.sysq ∧ t.myCore.q = s.myCore.q ∧ t.myCore.sent = s.myCore.sent ∧ t.myCore.recv = s.myCore.recv ∧ t.myCore.serial = s.myCore.serial
  keys : w.keys = false → t.myCore.keys = s.myCore.keys
  opmap : w.opmap = false → t.myCore.opmap = s.myCore.opmap
  cores : ∀ n, n ≠ s.cur → t.core n = s.core n
  outside : t.quads = s.quads ∧ t.memCores = s.memCores ∧ t.dies = s.dies ∧ t.modules = s.modules ∧ t.jobs = s.jobs ∧ t.present = s.present ∧
    t.mgmt = s.mgmt ∧ t.clk = s.clk ∧ t.cur = s.cur ∧ t.curCtx = s.curCtx

/-- What reading a register in each state that is not full does, but for a self-wait (R182, R183). -/
def readStops (info : Word) (e : BitVec 1) : List (RegState × Stop) :=
  [(.empty, if e = 1 then .trap 0x28 none (some info) else .waitEmpty), (.poisoned, .trap 0x2A none (some 0)), (.refused, .trap 0x2A none (some 1)),
   (.retired, .trap 0x2B none none), (.malformed, .trap 0x2C none none)]

end Sys2Proof.Machine

open Sys2Proof Sys2Proof.Machine in
/-- R186, R187: an instruction whose qualifier is off, or whose lane mask is all zero, has no effect but to go on to the next, whatever its operands hold. R182, R183, R475: a two-source instruction takes the self-wait fault if a source holds a result of the same commit interval, before a wait or the empty-register fault for the other; if one source alone is not full, it waits for it, or traps by its empty-trap bit or its mark; with both full it waits while its destination is empty. The register number and 0 for a g register, 1 for a v register, and the opcode stand in TRAPINFO of the empty-register and the self-wait fault. Where the spec leaves a point of it open, it rests on the choices of log 17. -/
def Obligations.QualifiersAndOperandFaults : Prop :=
  (
  ∀ (s : State) (i : Instr) (p : BitVec 4),
    (predicateOf i = some p → s.regs.qualified p = false → exec i s = .next s.advance) ∧
    (laneMaskOf i = some p → s.regs.laneMask p = 0 → exec i s = .next s.advance)
  ) ∧
  (
  (
  ∀ (s : State) (p : BitVec 4) (d a b : BitVec 5) (x y : BitVec 1) (k : BitVec 3), s.regs.qualified p = true →
    ∀ r ∈ twoSourceTable p d a b x y k (s.val a) (s.val b), ∀ o, encode r.1 = some o →
      let info (n : BitVec 5) : Word := .ofNat 64 (n.toNat + wordOpcode o * 256)
      let st (n : BitVec 5) : RegState := s.regs.stateOf (rg n)
      ((st a).isOwn = true → (a = b ∨ st b = .full ∨ st b = .empty) → exec r.1 s = .next (s.settle (.error (.trap 0x29 none (some (info a)))))) ∧
      ((st a).isOwn = false → (st a = .full ∨ st a = .empty) → (st b).isOwn = true → exec r.1 s = .next (s.settle (.error (.trap 0x29 none (some (info b)))))) ∧
      (∀ e ∈ readStops (info a) x, st a = e.1 → st b = .full → exec r.1 s = .next (s.settle (.error e.2))) ∧
      (∀ e ∈ readStops (info b) y, st a = .full → st b = e.1 → exec r.1 s = .next (s.settle (.error e.2))) ∧
      (st a = .full → st b = .full → (st d).isEmpty = true → exec r.1 s = .next (s.settle (.error .waitEmpty)))
  ) ∧
  (∀ (r : Regs) (op n : Nat), op < 256 → n < 32 → ∀ e ∈ [(Operand.g n true, n), (.v n true, n + 32)],
    let info : Word := .ofNat 64 (e.2 + op * 256)
    (r.stateOf e.1 = .empty → r.checkSources op [e.1] = .error (.trap 0x28 none (some info))) ∧
    ((r.stateOf e.1).isOwn = true → r.checkSources op [e.1] = .error (.trap 0x29 none (some info)))) ∧
  (∀ (s : State) (cause : Nat) (info : Word), Running s → (s.settle (.error (.trap cause none (some info)))).me.trap.info = info)
  )

open Sys2Proof Sys2Proof.Machine in
/-- The frame of every encoded instruction: unless it parks its context, it changes no register but the destinations that its description names, no special register, no key but by KEYA, no OPMAP but by CFG.BIND and CFG.REST, no other context and no other core. -/
def Obligations.InstructionFrame : Prop :=
  ∀ (s t : State) (i : Instr) (w : Writes), writesOf s i = some w → s.curCtx < 11 →
    exec i s = .next t → t.me.status ≠ .parked → Framed s t w

open Sys2Proof Sys2Proof.Machine in
/-- R113, R327: no encoded instruction but CFG.SAVE changes a byte of memory, a poison mark or host memory when it is issued: stores are buffered until a commit. CFG.SAVE writes the save area of its core, 0x5140 bytes from the local address in a, and every other byte reads as before. -/
def Obligations.InstructionsLeaveMemory : Prop :=
  ∀ (s t : State) (i : Instr) (w : Writes), writesOf s i = some w → exec i s = .next t →
    t.hostMem = s.hostMem ∧
    (∀ p a, i = .cfgSave p a → ∀ x, x < localPhys s.cur (s.val a).toNat ∨ localPhys s.cur (s.val a).toNat + 0x5140 ≤ x →
      Memory.read t.mem x = Memory.read s.mem x) ∧
    ((∀ p a, i ≠ .cfgSave p a) → t.poison = s.poison ∧ ∀ x, Memory.read t.mem x = Memory.read s.mem x)

/-! ## Encoding, the step, taking a fault and returning from one, commits, and what every step keeps -/

open Sys2Proof Sys2Proof.Machine in
/-- R188 to R193: words written out from the encodings of Table 8-4 and Table 8-7, and the instructions that they hold; an opcode without a row and a bit that must be zero are refused by name. -/
def Obligations.DecodeWords : Prop :=
  decode 0x100318E0 = .ok (.add 0 6 6 7 0 0) ∧ decode 0x04020000 = .ok (.loop 0 1 0) ∧ decode 0x43051064 = .ok (.cmpi43 0 1 2 4 100) ∧
  decode 0x3502A000 = .ok (.movl 0 5 0x2000) ∧ decode 0x36052468 = .ok (.movh 0 10 0x2468) ∧ decode 0x3B039502 = .ok (.wks 0 7 5 8 2) ∧
  decode 0x78020000 = .ok (.keya 0 4) ∧ decode 0x8A030860 = .ok (.strmGo 0 6 2 3 0) ∧ decode 0x8704A960 = .ok (.mxDrain 0 9 10 11 0) ∧
  decode 0xB3102003 = .ok (.vstm 1 2 3) ∧ decode 0xF3020440 = .ok (.xn 3 0 4 1 2 0) ∧ decode 0xC7001800 = .ok (.latRun 0 6) ∧
  decode 0x0E000000 = .error .unassigned ∧ decode 0x00000001 = .error .reserved

open Sys2Proof Sys2Proof.Machine in
/-- Decoding and encoding agree: every well-formed instruction that has a word decodes from it to itself, with every operand; and a word that decodes is the word of its instruction, which is well-formed. -/
def Obligations.DecodeEncode : Prop :=
  (∀ i w, encode i = some w → i.check = none → decode w = .ok i) ∧
  (∀ w i, decode w = .ok i → encode i = some w ∧ i.check = none) ∧
  (∀ s i, (encode i).isSome = (writesOf s i).isSome)

open Sys2Proof Sys2Proof.Machine in
/-- R175, R177, R374: with nothing due, a step gives the word that the slot of the context whose turn it is has selected to the decoder, and answers what exec makes of the instruction, after which the slot is closed for the clk and its pointer names the context; a word that the decoder refuses parks the context. A block whose words are all done commits, a commit that waits is tried, with a budget that is over ending it behind that (R376), and a context without an open block enters one. A slot selects the first word of its own that has not issued or been tried in the clk, and that may pass every word before it (log 4): where one waits, the next such word has its try. A fault of a word selected early, and what a context does behind one that has issued in its slot, is not taken in that turn. An event that is due is performed first; a clk whose contexts have all had their turn is over. -/
def Obligations.StepRunsDecoded : Prop :=
  (∀ (s : State) (e : Event) (r : List Event), s.agenda = e :: r → step s = perform e { s with agenda := r }) ∧
  (∀ (s : State) (t : Turn) (r : List Turn), s.agenda = [] → s.turn = t :: r →
    let u := s.select t r
    u.cur = t.node ∧ u.curCtx = t.ctx ∧ u.turn = r ∧ u.mem = s.mem ∧
    (u.me.status ≠ .live → step s = .next u.passOver) ∧
    (u.me.status = .live → t.kind = .block →
      (u.me.block = none → u.me.commit = none → step s = exec (.blockEntry t.node t.ctx) u) ∧
      (u.me.block.isSome = true → step s = exec (.blockCommit t.node t.ctx) u) ∧
      (∀ c, u.me.block = none → u.me.commit = some c →
        step s = Out.map (fun v => if u.me.budgetOn = true ∧ u.me.budgetLeft = 0 then v.due (.budgetExpiry t.node t.ctx) else v)
          (exec (if c.reserved then .invocationCommit t.node t.ctx else .vstReservation t.node t.ctx) u))) ∧
    (u.me.status = .live → t.kind ≠ .block →
      (u.nextWord = none → step s = .next u.passOver) ∧
      (∀ w i, u.nextWord = some w → decode w = .ok i → step s = Out.map (fun v => u.taken v t) (exec i u)) ∧
      (∀ w e, u.nextWord = some w → decode w = .error e → step s = .next (u.taken (u.rejectWord w e) t)))) ∧
  (∀ (s : State) (t : Turn) (r : List Turn) (b : OpenBlock), t.ctx < 11 → (s.ctx t.node t.ctx).block = some b → t.kind ≠ .block →
    (s.select t r).nextWord = (b.candidate t.vector t.tried).bind (fun k => b.words[k]?)) ∧
  (∀ (b : OpenBlock) (vec : Bool) (tried : List Nat),
    let may (j : Nat) : Prop := b.pos ≤ j ∧ j < b.words.length ∧ j ∉ b.ahead ∧ j ∉ tried ∧ vectorSlot (wordOpcode (b.words.getD j 0)) = vec ∧
      ∀ k, b.pos ≤ k → k < j → k ∉ b.ahead → mayPass (b.words.getD k 0) (b.words.getD j 0) = true
    (∀ j, b.candidate vec tried = some j ↔ may j ∧ ∀ i, may i → j ≤ i) ∧ (b.candidate vec tried = none ↔ ∀ j, ¬ may j)) ∧
  (∀ (u v : State) (t : Turn),
    let next (w : State) : List Turn := { t with tried := u.block.cursor :: t.tried } :: w.turn
    let taken := u.taken v t
    let same : Prop := taken.mem = u.mem ∧ taken.agenda = u.agenda ∧ ∀ n k, taken.ctx n k = u.ctx n k
    (t.kind = .issue → u.early = false ∨ (v.me.status = .live ∧ v.me.block.isSome = true) →
      (v.stalled = false → taken = v.issued t) ∧ (v.stalled = true → taken = { v with turn := next v })) ∧
    (t.kind = .issue → u.early = true → v.me.status ≠ .live ∨ v.me.block = none → same ∧ taken.turn = next u) ∧
    (t.kind = .probe → same ∧ taken.turn = u.turn)) ∧
  (∀ (v : State) (t : Turn), v.stalled = false →
    let w := v.issued t
    (t.vector = true → (w.core t.node).lastVector = t.ctx) ∧ (t.vector = false → (w.core t.node).lastScalar = t.ctx) ∧
    (∀ e ∈ w.turn, e.node = t.node → e.vector = t.vector → e.kind ≠ .issue) ∧ w.turn.length = v.turn.length ∧ w.mem = v.mem ∧ w.agenda = v.agenda) ∧
  (∀ s : State, s.agenda = [] → s.turn = [] → step s = .next (if s.picked then s.tick else s.pick)) ∧
  (∀ (s : State) (nbits w : Nat) (i : Instr), decodeTableWord nbits w = some i →
    ∃ t : Turn, t.node = 0 ∧ t.ctx = 0 ∧ t.kind = .issue ∧
      let u := (s.withFetchWord nbits w).select t []
      u.early = false ∧ step (s.withFetchWord nbits w) = Out.map (fun v => u.taken v t) (exec i u))

open Sys2Proof Sys2Proof.Machine in
/-- The state after reset: no job is resident, every context is free, every g, v, p and q register is clear and full, every key is Free, unset and without an owner, no tumbler counts, the stores read 0 (R446, R468), and nothing is due. Register values at reset are the model's choice (log 1), and so is what HBM reads (log 2). -/
def Obligations.ResetValues : Prop :=
  let s := State.reset
  (∀ n k, (s.ctx n k).status = .free ∧ (s.ctx n k).block = none ∧ (s.ctx n k).pc = 0 ∧ (∀ x, (s.ctx n k).regs.gval x = 0) ∧
    (∀ x, (s.ctx n k).regs.stateOf (.g x false) = .full) ∧ (∀ x, (s.ctx n k).regs.stateOf (.v x false) = .full) ∧
    (∀ x j, (s.ctx n k).regs.lane x j = 0) ∧ (s.ctx n k).regs.p = 0 ∧ (∀ x, (s.ctx n k).regs.qreg x = 0) ∧ (s.ctx n k).regs.flags = 0 ∧
    (s.ctx n k).slots = [] ∧ (s.ctx n k).retire = [] ∧ (s.ctx n k).held = [] ∧ (s.ctx n k).hasp = .none) ∧
  (∀ n j, ((s.core n).key j).bit = false ∧ ((s.core n).key j).alloc = .free ∧ ((s.core n).key j).owner = 0xF ∧ ((s.core n).key j).flight = 0) ∧
  (∀ n, (s.core n).keyring = 0 ∧ (s.core n).fpfirst = 0 ∧ (s.core n).sysq = [] ∧ (s.core n).departure = [] ∧ (s.quad n).job = none ∧ (s.quad n).tumblers = []) ∧
  (∀ a, Memory.read s.mem a = 0 ∧ isPoisoned s a = false) ∧ s.jobs = [] ∧ s.agenda = [] ∧ s.turn = [] ∧ s.clk = 0

namespace Sys2Proof.Machine

/-- Physical memory, host memory and the injection slots of every module are in canonical form. -/
def MemoriesCanonical (s : State) : Prop :=
  Memory.wf s.mem = true ∧ Memory.wf s.hostMem = true ∧ ∀ n, Memory.wf (s.module n).inject = true

end Sys2Proof.Machine

open Sys2Proof Sys2Proof.Machine in
/-- The memories of the state after reset are in canonical form. -/
def Obligations.ResetMemoryCanonical : Prop := MemoriesCanonical State.reset

open Sys2Proof Sys2Proof.Machine in
/-- Every step, whatever is due, keeps every memory in canonical form: addresses rise, and no entry holds what an unlisted address reads as. So equal contents are equal states. -/
def Obligations.StepKeepsMemoryCanonical : Prop :=
  ∀ s t : State, MemoriesCanonical s → step s = .next t → MemoriesCanonical t

open Sys2Proof Sys2Proof.Machine in
/-- R114, R178, R384, R385, R388: a parking fault discards the open block: its registers stand as at the block's entry, its buffered effects are lost, and its keys are free again. The context parks at the block, with TRAPCAUSE, TRAPADDR, TRAPBLK and TRAPINFO written; its trap joins the system queue of its core, or, for a system context, the management core is told. Effects of earlier blocks, memory, and every other context stand. Where the spec leaves a point of it open, it rests on the choices of log 6. -/
def Obligations.TakeFault : Prop :=
  ∀ (s : State) (node k cause : Nat) (addr info : Word) (b : OpenBlock), k < 11 → (s.ctx node k).block = some b →
    let t := s.takeFault node k cause addr info
    let x := s.ctx node k
    let y := t.ctx node k
    exec (.parkingFault node k cause addr info) s = .next t ∧
    y.status = .parked ∧ y.pc = b.header ∧ y.block = none ∧ y.regs = b.entry ∧ y.retire = x.retire ∧ y.commit = x.commit ∧
    y.invocation = x.invocation ∧ y.budgetLeft = x.budgetLeft ∧ y.jobid = x.jobid ∧
    y.trap = ⟨.ofNat 64 (cause % 256 + k % 16 * 256), addr, .ofNat 64 b.header, info⟩ ∧
    (∀ e ∈ b.keys, e.1 < 64 → ((t.core node).key e.1).alloc = .free) ∧
    (∀ n, (∀ e ∈ b.keys, e.1 ≠ n) → (t.core node).key n = (s.core node).key n) ∧
    (k ≠ 10 → (t.core node).sysq = (s.core node).sysq ++ [.trap node k] ∧ t.mgmt = s.mgmt) ∧
    (k = 10 → (t.core node).sysq = (s.core node).sysq ∧
      t.mgmt = s.mgmt ++ [.systemFault node (.ofNat 64 (cause % 256 + k % 16 * 256)) addr (.ofNat 64 b.header) info]) ∧
    (∀ j, j ≠ k → t.ctx node j = s.ctx node j) ∧ (∀ n, n ≠ node → t.core n = s.core n) ∧
    t.mem = s.mem ∧ t.poison = s.poison ∧ t.agenda = s.agenda ∧ t.quads = s.quads

open Sys2Proof Sys2Proof.Machine in
/-- R359, R376: the return from a trap. TRESUME, at its block's commit, makes the parked context Live at TRAPBLK with its registers as they stand, and with its budget full again after a budget fault, and a commit that waited is tried again; an invocation that has finished, or whose TRAP or BKPT left TRAPBLK 0, ends instead (R207). TKILL ends the invocation: its effects are lost, its Held keys freed, and the context is Free, or Draining while replies or results are to come. A TRESUME of a paused priority lets the dispatcher read its entry again, and a TKILL of it discards the message that has paused it and no other (R43, Table 2-8). MTS writes its register, to the writable bits. -/
def Obligations.TrapReturns : Prop :=
  ∀ (s : State) (blk k : Nat) (v : Word), s.curCtx < 11 → k < 10 →
    (let x := s.ctx s.cur k
     let t := s.act blk (.tresume k)
     let y := t.ctx s.cur k
     let cause := x.trap.cause.toNat % 256
     let ends := x.commit = none ∧ ((x.invocation.map (fun i => i.finished)) = some true ∨ (cause = 0x70 ∨ cause = 0x71) ∧ x.trap.blk = 0)
     (ends → (y.status = .free ∨ y.status = .draining) ∧ y.invocation = none ∧ y.regs = x.regs ∧ t.mem = s.mem) ∧
     (¬ ends → y.status = .live ∧ y.pc = x.trap.blk.toNat ∧ y.regs = x.regs ∧ y.retire = x.retire ∧ y.invocation = x.invocation ∧
      y.budgetLeft = (if x.trap.cause.toNat % 256 = 0x68 then (x.invocation.map (fun i => i.budget)).getD 0 else x.budgetLeft) ∧
      y.commit = x.commit.map (fun c => { c with reserved := false, failed := none }) ∧
      (∀ j, j ≠ k → t.ctx s.cur j = s.ctx s.cur j) ∧ t.mem = s.mem)) ∧
    (let t := s.act blk (.tkill k)
     let y := t.ctx s.cur k
     (y.status = .free ∨ y.status = .draining) ∧ (y.status = .free ↔ y.slots = [] ∧ y.results = 0) ∧ y.retire = [] ∧ y.held = [] ∧
     y.block = none ∧ y.invocation = none ∧ y.commit = none ∧ (∀ j, j ≠ k → t.ctx s.cur j = s.ctx s.cur j)) ∧
    ((s.act blk (.mts 0x07 v)).me.jobid = v.toNat % 2 ^ 12 ∧ (s.act blk (.mts 0x08 v)).myCore.plbase = v &&& 0x3F7F3F7F ∧
      (s.act blk (.mts 0x09 v)).myCore.wkdesc = v &&& 0x1FFFFFFFFFFF ∧ (s.act blk (.mts 0x0A v)).me.fpmode = v.setWidth 8 ∧
      (s.act blk (.mts 0x16 v)).myCore.opmap = v &&& 0xBBBBBBBBBBBBBBBB) ∧
    (∀ (p : Nat) (l1 l2 : List QEntry) (e : QEntry), p < 4 → s.myCore.q.queueAt p = l1 ++ e :: l2 → e.stuck = true → (∀ x ∈ l1 ++ l2, x.stuck = false) →
      (let q := (s.act blk (.killHead p)).myCore.q
       q.queueAt p = l1 ++ l2 ∧ q.pausedAt p = false) ∧
      (let q := (s.act blk (.resumeHead p)).myCore.q
       q.queueAt p = l1 ++ { e with stuck := false } :: l2 ∧ q.pausedAt p = false))

open Sys2Proof Sys2Proof.Machine in
/-- R173 to R180, R202, R205: a word of code that the quad's instruction cache does not hold is the one in memory, and one that it holds is that one or the one in memory (log 67). A Live context enters the block at its pc, whose words pass the checks of R174, with its registers kept for a discard; a block that fails them is illegal. A block's commit makes its registers final, hands its effects to the retire buffer and goes on at its successor; a taken CALL or CALLR writes g30; DONE and COMMIT start the invocation's commit. R260: a commit of a block that raised a flag which FPMODE enables latches FPFIRST where V is 0, with the flags, the header address and INVSER. R206: a YIELD #n of a block that does not take DONE begins the interval, in which no slot serves the context. Where the spec leaves a point of it open, it rests on the choices of logs 63, 67, 77 and 110. -/
def Obligations.BlockEntryAndCommit : Prop :=
  ∀ (s : State) (node k : Nat), k < 11 →
    let u : State := { s with cur := node, curCtx := k }
    let x := s.ctx node k
    (∀ va pa, let r := u.fetchWord va pa
      let held := aget (s.quad node).icache (x.jobid * 2 ^ 48 + va)
      (held = none → r.1 = Memory.word32 s.mem pa) ∧ (∀ w, held = some w → r.1 = w ∨ r.1 = Memory.word32 s.mem pa) ∧
      (aget (r.2.quad node).icache (x.jobid * 2 ^ 48 + va) = some r.1) ∧ r.2.mem = s.mem) ∧
    (∀ hdr l t, x.status = .live → x.block = none → x.commit = none → s.frozen x.jobid = false → u.fetchBlock x.pc = .ok (hdr, l, t) →
      (checkBlock hdr l = none → (∀ i, x.invocation = some i → i.fresh = true → hdr.getLsbD 22 = true) →
        ∃ v, exec (.blockEntry node k) s = .next v ∧
          (v.ctx node k).block = some { header := x.pc, words := l, entry := x.regs, fpmode := x.fpmode } ∧
          (v.ctx node k).regs = x.regs ∧ (∀ i, (v.ctx node k).invocation = some i → i.fresh = false) ∧ v.mem = s.mem) ∧
      (∀ info, checkBlock hdr l = some info → ∃ v, exec (.blockEntry node k) s = .next v ∧
        (v.ctx node k).status = .parked ∧ (v.ctx node k).trap.cause = .ofNat 64 (1 + k % 16 * 256) ∧ (v.ctx node k).trap.info = info)) ∧
    (∀ b, x.block = some b → b.acts = [] → b.requests = [] → b.hits = [] → (b.links = true → (x.regs.greg 30).st.isEmpty = false) →
      let r := x.regs.release .awaitBlock
      ∃ v, exec (.blockCommit node k) s = .next v ∧ (v.ctx node k).block = none ∧ (v.ctx node k).retire = x.retire ++ b.effects ∧
        (v.ctx node k).regs = (if b.links then r.setG 30 (.ofNat 64 (b.header + 4 * (b.words.length + 1))) else r) ∧
        (b.isDone = false → b.commit = false →
          (b.trap = none → (v.ctx node k).status = x.status ∧ (v.ctx node k).pc = b.next ∧ (v.ctx node k).commit = none) ∧
          (∀ st, b.trap = some st → (v.ctx node k).status = .parked ∧ (v.ctx node k).pc = b.next ∧
            (v.ctx node k).trap = ⟨.ofNat 64 (st.cause % 256 + k % 16 * 256), st.addr, .ofNat 64 b.next, st.info⟩)) ∧
        (b.isDone = true ∨ b.commit = true → v.agenda = s.agenda ++ [.vstReservation node k] ∧
          (v.ctx node k).commit = some { done := b.isDone, block := b.header, next := b.next, trap := b.trap, traceCtl := b.traceCtl }) ∧ v.mem = s.mem ∧
        (let on := (b.raised &&& (b.fpmode.extractLsb' 3 5)).toNat
         let f := (s.core node).fpfirst
         (v.core node).fpfirst = (if on = 0 ∨ f.getLsbD 0 = true then f
          else .ofNat 64 (1 + on * 2 + b.header / 4 % 2 ^ 46 * 2 ^ 6 + x.invser.toNat % 2 ^ 12 * 2 ^ 52))) ∧
        (b.isDone = true ∨ b.yield = none → (v.ctx node k).yieldEnd = x.yieldEnd) ∧
        (∀ n, b.isDone = false → b.yield = some n → (v.ctx node k).yieldEnd = some (s.clk + n + 1) ∧
          v.later = s.later ++ [(s.clk + n + 1, .yieldIntervalEnd node k)])) ∧
    (∀ (c : Core) (e clk : Nat), (c.ctx k).yieldEnd = some e → clk < e → ∀ t ∈ c.order node clk, t.ctx = k → t.kind = .block ∧ (c.ctx k).commit.isSome = true)

namespace Sys2Proof.Machine

/-- No effect of a commit is a versioned write, a retirement or marked by a shootdown. -/
def plainEffects (l : List Effect) : Prop :=
  ∀ e ∈ l, match e with
    | .mem m => m.scope = none ∧ m.op ≠ 0x12 ∧ m.marked = false
    | .copy _ _ _ _ marked _ _ => marked = false
    | _ => True

/-- The runs of bytes that the stores and atomics of a commit write: physical address and length. -/
def storedRuns (node : Nat) (l : List Effect) : List (Nat × Nat) :=
  l.flatMap (fun e => match e with
    | .store cs _ => cs.map (fun c => (localPhys node c.1, c.2.length))
    | .amo la _ z _ _ _ => [(localPhys node la, 2 ^ z)]
    | _ => [])

end Sys2Proof.Machine

namespace Sys2Proof.Machine

/-- The quad whose store holds the cell of a versioned write. -/
abbrev cellQuad (m : MemEffect) : Nat := quadOf ((ownerOf m.pa).getD 0)

/-- A versioned write of the commit of a context holds a slot of its cell (R117, R130). -/
def slotHeld (s : State) (node k : Nat) (m : MemEffect) : Prop :=
  ∃ n, m.reservation = some n ∧ ∃ r ∈ (s.quad (cellQuad m)).reservations, r.tag = n ∧ r.node = node ∧ r.ctx = k

/-- Every versioned write of a list of effects does. -/
def slotsHeld (s : State) (node k : Nat) (l : List Effect) : Prop :=
  ∀ m, Effect.mem m ∈ l → m.scope.isSome = true → slotHeld s node k m

/-- A slot of a cell is free, and no reservation holds it (R128, R130). -/
def slotFree (s : State) (quad pa i : Nat) : Prop :=
  i < 4 ∧ s.cellFree pa i = true ∧ ∀ r ∈ (s.quad quad).reservations, r.cell = pa → r.slot ≠ i

/-- The state in which the versioned write m, behind l1 and before l2, holds slot i of its cell under the name n (R130). -/
def State.withSlot (s : State) (node k : Nat) (l1 : List Effect) (m : MemEffect) (l2 : List Effect) (i n : Nat) : State :=
  let s1 := if m.reservation.isNone then s.setCore node { s.core node with nextTag := (s.core node).nextTag + 1 } else s
  let q := s.quad (cellQuad m)
  let s2 := s1.setQuad (cellQuad m) { q with reservations := q.reservations ++ [⟨m.pa, i, node, k, n, false⟩] }
  s2.setCtx node k { s2.ctx node k with retire := l1 ++ .mem { m with reservation := some n } :: l2 }

end Sys2Proof.Machine

open Sys2Proof Sys2Proof.Machine in
/-- R43, R117, R128, R130, R235: a commit whose versioned writes all hold a slot goes on to its turn. The first of its versioned writes that holds none takes a slot of its cell that is free and that no other reservation holds, while the store holds fewer than 16 and none waits there, and the cell's bytes stay; the reservations of the commit go on behind it. Where no slot is free, or the store holds 16, the reservation waits behind those that do, and the commit with it. A malformed cell raises the version-cell-format fault 0x2C and a poisoned one the store-poison fault 0x2A, precise at the block with the DONE or COMMIT, with the cell address in TRAPADDR; nothing departs or drains, and the reservations of the commit are given back. R117, R119, R120, R130, R205, R251: a commit's reservations being made, and no drain of an earlier commit of its core being in progress, its turn drains the local effects in program order and hands every other one to the departure queue; the retire buffer is empty, Held keys are Owned, results of the interval are waited for as others are, and the invocation goes on, parks after TRAP or BKPT, or, at DONE, leaves its context. R33, R44, R115, R135, R224, R228: the bytes of a committed store, at the physical address of its local address in the own quad, and no other byte; an atomic writes its result to its word, and the old value is what its register takes. -/
def Obligations.CommitsAndCommittedBytes : Prop :=
  (
  ∀ (s : State) (node k : Nat) (c : Commit) (l1 : List Effect) (m : MemEffect) (l2 : List Effect), k < 11 →
    let x := s.ctx node k
    x.status = .live → x.commit = some c → c.reserved = false →
    let run : Out := exec (.vstReservation node k) s
    let quad := cellQuad m
    let q := s.quad quad
    let n := m.reservation.getD (s.core node).nextTag
    let named : List Effect := l1 ++ .mem { m with reservation := some n } :: l2
    let sound : Prop := anyPoison s m.pa 64 = false ∧ s.cellMalformed m.pa = false
    (slotsHeld s node k x.retire → ∃ v, run = .next v ∧
      (v.ctx node k).commit = some { c with reserved := true } ∧ (v.ctx node k).retire = x.retire ∧
      v.agenda = s.agenda ++ [.invocationCommit node k] ∧ v.mem = s.mem ∧ v.quads = s.quads) ∧
    (x.retire = l1 ++ .mem m :: l2 → slotsHeld s node k l1 → m.scope.isSome = true → ¬ slotHeld s node k m →
      (sound → (∃ i, slotFree s quad m.pa i) → q.reservations.length < 16 → q.waitingReservations = [] →
        ∃ i, slotFree s quad m.pa i ∧ run = exec (.vstReservation node k) (s.withSlot node k l1 m l2 i n) ∧
          ((∀ e, Effect.mem e ∈ l2 → e.scope = none) → ∃ v, run = .next v ∧
            (v.ctx node k).commit = some { c with reserved := true } ∧ (v.ctx node k).retire = named ∧
            (v.quad quad).reservations = q.reservations ++ [⟨m.pa, i, node, k, n, false⟩] ∧
            v.agenda = s.agenda ++ [.invocationCommit node k] ∧ v.mem = s.mem ∧ v.poison = s.poison)) ∧
      (sound → (∀ i, ¬ slotFree s quad m.pa i) ∨ 16 ≤ q.reservations.length → ∃ v, run = .next v ∧
        (v.ctx node k).commit = some c ∧ (v.ctx node k).retire = named ∧ (v.quad quad).reservations = q.reservations ∧
        (v.quad quad).waitingReservations = (if q.waitingReservations.any (fun r => r.node == node && r.ctx == k && r.tag == n) then q.waitingReservations
          else q.waitingReservations ++ [⟨m.pa, 0, node, k, n, false⟩]) ∧ v.agenda = s.agenda ∧ v.mem = s.mem) ∧
      (¬ sound → ∃ v, run = .next v ∧ (v.ctx node k).status = .parked ∧ (v.ctx node k).pc = c.block ∧
        (v.ctx node k).trap.cause = .ofNat 64 ((if anyPoison s m.pa 64 then 0x2A else 0x2C) + k % 16 * 256) ∧
        (v.ctx node k).trap.addr = m.addr ∧ (v.ctx node k).trap.blk = .ofNat 64 c.block ∧
        (v.ctx node k).commit = some c ∧ (v.ctx node k).retire = x.retire ∧
        (∀ j, (v.quad j).reservations = (s.quad j).reservations.filter (fun r => !(r.node == node && r.ctx == k && !r.taken))) ∧
        v.agenda = s.agenda ∧ v.mem = s.mem ∧ v.poison = s.poison))
  ) ∧
  (
  ∀ (s : State) (node k : Nat) (c : Commit), k < 11 →
    let x := s.ctx node k
    x.status = .live → x.block = none → x.commit = some c → plainEffects x.retire →
    (c.reserved = true → (∀ u ∈ (s.quad node).drains, u.node ≠ node) → (s.core node).hinge.arm = false → x.hasp = .none → (∀ e ∈ x.retire, haspAfter .none e = .none) →
      entriesOf ((s.core node).departure.map (·.2)) + entriesOf (x.retire.filter (fun e => !e.isLocal)) ≤ 1024 →
      ∃ v, exec (.invocationCommit node k) s = .next v ∧ (v.ctx node k).retire = [] ∧ (v.ctx node k).held = [] ∧ (v.ctx node k).commit = none ∧
        (v.core node).departure = (s.core node).departure ++ (x.retire.filter (fun e => !e.isLocal)).map (fun e => (k, e)) ∧
        (v.core node).sent = (s.core node).sent + ((x.retire.filter (fun e => !e.isLocal)).map Effect.sent).sum ∧
        (∀ n ∈ x.held, n < 64 → ((s.core node).key n).alloc = .held → ((v.core node).key n).alloc = .owned) ∧
        (c.trap = none → c.done = false → (v.ctx node k).status = .live ∧ (v.ctx node k).pc = c.next) ∧
        (c.trap = none → c.done = true → (v.ctx node k).status = .free ∨ (v.ctx node k).status = .draining) ∧
        (∀ st, c.trap = some st → (v.ctx node k).status = .parked ∧ (v.ctx node k).pc = c.next) ∧
        (v.quad node).drains = (s.quad node).drains ++ tumblerOps node k x.retire ∧
        (∀ a, (∀ r ∈ storedRuns node x.retire, a < r.1 ∨ r.1 + r.2 ≤ a) → Memory.read v.mem a = Memory.read s.mem a))
  ) ∧
  (
  ∀ (s : State) (la : Nat) (bs : List Byte),
    Memory.wf s.mem = true →
    (anyPoison s (localPhys s.cur la) bs.length = false →
      let t := s.drainChunk (la, bs)
      (∀ k, k < bs.length → Memory.read t.mem (localPhys s.cur la + k) = bs.getD k 0) ∧
      (∀ a, a < localPhys s.cur la ∨ localPhys s.cur la + bs.length ≤ a → Memory.read t.mem a = Memory.read s.mem a) ∧
      t.regs = s.regs ∧ t.poison = s.poison) ∧
    (∀ (kind z d : Nat) (v e : Word), s.curCtx < 11 → z ≤ 3 → anyPoison s (localPhys s.cur la) (2 ^ z) = false →
      let t := s.drainAmo false la kind z v e d
      let old := natOfBytes (Memory.readN s.mem (localPhys s.cur la) (2 ^ z))
      t.regs.gval d = (if d = 0 then 0 else if d < 32 then .ofNat 64 old else 0) ∧
      natOfBytes (Memory.readN t.mem (localPhys s.cur la) (2 ^ z)) = atomicNew kind z old (v.toNat % 2 ^ (8 * 2 ^ z)) (e.toNat % 2 ^ (8 * 2 ^ z)) ∧
      (∀ a, a < localPhys s.cur la ∨ localPhys s.cur la + 2 ^ z ≤ a → Memory.read t.mem a = Memory.read s.mem a)) ∧
    (isPoisoned s (localPhys s.cur la) = true → la % bs.length = 0 → (s.core s.cur).sysFull s.cur = false →
      let t := s.drainChunk (la, bs)
      let q := (s.core s.cur).sysq
      (bs.length = 8 → (∀ k, k < 8 → Memory.read t.mem (localPhys s.cur la + k) = bs.getD k 0) ∧ isPoisoned t (localPhys s.cur la) = false ∧
        (t.core s.cur).sysq = q) ∧
      (bs.length ∈ [1, 2, 4] → t.mem = s.mem ∧ isPoisoned t (localPhys s.cur la) = true ∧
        (t.core s.cur).sysq = q ++ [.notice 0x2D s.curCtx (.ofNat 64 (la / 8 * 8)) 0 []] ∧ ∀ k, (t.ctx s.cur k).status = (s.ctx s.cur k).status)) ∧
    (la % 8 = 4 → bs.length = 8 → isPoisoned s (localPhys s.cur la) = true → isPoisoned s (localPhys s.cur la + 4) = true →
      ordinaryEntries s.cur (s.core s.cur).sysq < 21 → (s.core s.cur).sysHeld = [] →
      let t := s.drainChunk (la, bs)
      t.mem = s.mem ∧ (t.core s.cur).sysq = (s.core s.cur).sysq ++
        [.notice 0x2D s.curCtx (.ofNat 64 (la - 4)) 0 [], .notice 0x2D s.curCtx (.ofNat 64 (la + 4)) 0 []])
  )

/-! ## Steps of the device: remote operations at their destination -/

namespace Sys2Proof.Machine

/-- An arriving operation finds its way clear: no earlier arrival of its source waits at its quad (R121), and its stack is not paused (R473). -/
abbrev Unblocked (s : State) (m : Packet) : Prop :=
  (nodeIsEnd (destOf m) = false → s.waitsBehind m = false) ∧ (s.memCore (destOf m)).paused = false

end Sys2Proof.Machine

open Sys2Proof Sys2Proof.Machine in
/-- R35, R43, R44, R150, R229 to R233: a remote read answers the bytes at its address, little-endian; a write stores them; a copy reads its piece and sends one beat for each 32 bytes, and each beat is written where it arrives, with its poison. What the right of the store or a poisoned unit forbids answers status 1 or 2 and changes nothing. R121, R473: an operation behind an earlier arrival of its source, or at a memory core whose stack is paused, waits there in arrival order. -/
def Obligations.RemoteAccessEvents : Prop :=
  ∀ (s : State) (m : Packet),
    let pa := physOf m
    let n := 2 ^ Machine.sizeOf m
    exec (.refusedOperation m) s = .next (s.answer m 1) ∧
    (∀ i ∈ [Instr.remoteRead m, .remoteWrite m, .copy m, .copyBeat m],
      (nodeIsEnd (destOf m) = false → s.waitsBehind m = true → exec i s = .next (s.hold m)) ∧
      (nodeIsEnd (destOf m) = true → (s.memCore (destOf m)).paused = true →
        exec i s = .next (s.setMemCore (destOf m) { s.memCore (destOf m) with held := (s.memCore (destOf m)).held ++ [m] }))) ∧
    (Unblocked s m → Memory.wf s.mem = true →
      (placeAllows .remoteRead pa n false = true → anyPoison s pa n = false →
        exec (.remoteRead m) s = .next ((s.answer m 0 [.ofNat 64 (natOfBytes (Memory.readN s.mem pa n))]).unheld m)) ∧
      (placeAllows .remoteRead pa n false = true → anyPoison s pa n = true → exec (.remoteRead m) s = .next ((s.answer m 2).unheld m)) ∧
      (placeAllows .remoteRead pa n false = false → exec (.remoteRead m) s = .next ((s.answer m 1).unheld m)) ∧
      (placeAllows .remoteWrite pa n true = true → anyPoison s pa n = false → n ≤ (bytesOf m).length →
        ∃ t : State, exec (.remoteWrite m) s = .next ((t.answer m 0).unheld m) ∧ t = { s with mem := t.mem } ∧
          (∀ k, k < n → Memory.read t.mem (pa + k) = (bytesOf m).getD k 0) ∧
          (∀ a, a < pa ∨ pa + n ≤ a → Memory.read t.mem a = Memory.read s.mem a)) ∧
      (placeAllows .remoteWrite pa n true = true → pa % n = 0 → n < 8 → isPoisoned s pa = true → n ≤ (bytesOf m).length →
        ∃ t : State, exec (.remoteWrite m) s = .next ((t.answer m 2).unheld m) ∧ t.mem = s.mem ∧ t.poison = s.poison) ∧
      (placeAllows .remoteWrite pa n true = false → exec (.remoteWrite m) s = .next ((s.answer m 1).unheld m)) ∧
      (∀ dst c, m.payload[0]? = some dst → m.payload[1]? = some c → 0 < c.toNat / 32 →
        placeAllows .remoteRead pa (32 * (c.toNat / 32)) false = true →
        (∀ k, k < c.toNat / 32 → (ownerOf (dst.toNat + 32 * k)).isSome = true) →
        ∃ t j, exec (.copy m) s = .next t ∧ t.copies = s.copies ++ [j] ∧ j.request = m ∧ j.left = c.toNat / 32 ∧
          t.agenda = s.agenda ++ (List.range (c.toNat / 32)).map (fun k => route (s.copyBeatTo m j.tag (pa + 32 * k) (dst.toNat + 32 * k))) ∧ t.mem = s.mem) ∧
      (placeAllows .copyDest pa 32 true = true →
        (m.poison.headD false = false → anyPoison s pa 32 = false → 4 ≤ m.payload.length →
          ∃ t : State, exec (.copyBeat m) s = .next ((t.answer m 0).unheld m) ∧
            (∀ k, k < 32 → Memory.read t.mem (pa + k) = (bytesOf m).getD k 0) ∧
            (∀ a, a < pa ∨ pa + 32 ≤ a → Memory.read t.mem a = Memory.read s.mem a)) ∧
        (m.poison.headD false = true → ∃ t : State, exec (.copyBeat m) s = .next ((t.answer m 0).unheld m) ∧ t.mem = s.mem ∧
          ∀ k, k < 4 → isPoisoned t (pa + 8 * k) = true)))

open Sys2Proof Sys2Proof.Machine in
/-- R135, R228, R232: an atomic at its destination is one indivisible step: it answers the old word and stores the new value of its operation; on a poisoned word it answers status 2, where its store forbids it status 1. -/
def Obligations.RemoteAtomicEvents : Prop :=
  ∀ (s : State) (m : Packet), Unblocked s m → Memory.wf s.mem = true →
    let pa := physOf m
    let n := 2 ^ Machine.sizeOf m
    let old := natOfBytes (Memory.readN s.mem pa n)
    let cut (k : Nat) := (m.payload.getD k 0).toNat % 2 ^ (8 * n)
    let b := cut 0
    let so := (BitVec.ofNat (8 * n) old).toInt
    let sb := (BitVec.ofNat (8 * n) b).toInt
    ∀ r ∈ ([(.remoteAtomicAdd m, (old + b) % 2 ^ (8 * n)), (.remoteAtomicAnd m, old &&& b), (.remoteAtomicOr m, old ||| b), (.remoteAtomicXor m, old ^^^ b),
            (.remoteAtomicMin m, if so ≤ sb then old else b), (.remoteAtomicMax m, if sb ≤ so then old else b),
            (.remoteAtomicMinn m, if old ≤ b then old else b), (.remoteAtomicMaxn m, if old ≤ b then b else old),
            (.remoteAtomicSwap m, b), (.remoteAtomicCas m, if old = cut 1 then b else old)] : List (Instr × Nat)),
      (placeAllows .rmw pa n true = true → anyPoison s pa n = false →
        ∃ t : State, exec r.1 s = .next ((t.answer m 0 [.ofNat 64 old]).unheld m) ∧ t = { s with mem := t.mem } ∧ natOfBytes (Memory.readN t.mem pa n) = r.2 ∧
          ∀ a, a < pa ∨ pa + n ≤ a → Memory.read t.mem a = Memory.read s.mem a) ∧
      (placeAllows .rmw pa n true = true → anyPoison s pa n = true → exec r.1 s = .next ((s.answer m 2).unheld m)) ∧
      (placeAllows .rmw pa n true = false → exec r.1 s = .next ((s.answer m 1).unheld m))

open Sys2Proof Sys2Proof.Machine in
/-- R41, R128 to R132: a versioned read answers the slot that retains its version, Retired for an older one, and sets a watch for one newer than CUR, whether a slot holds it or not; a versioned write puts the value into its reserved slot as version CUR + 1; a retirement raises FLOOR to its version, to CUR + 1 at most, and drops the older slots but the newest, and one that is not newer than FLOOR changes nothing. A poisoned cell answers each of the three status 2, a malformed one status 4, with nothing changed but the reservation of the write, which is given back. -/
def Obligations.VersionCellEvents : Prop :=
  ∀ (s : State) (m : Packet), Unblocked s m → Memory.wf s.mem = true →
    let pa := physOf m
    let w := Memory.word s.mem pa
    let v := (m.payload.headD 0).toNat % 2 ^ 16
    let q := s.quad (destOf m)
    cellAllowed pa true = true →
    let refused (n : Nat) : Prop := exec (.versionedRead m) s = .next ((s.answer m n).unheld m) ∧ exec (.versionRetire m) s = .next ((s.answer m n).unheld m) ∧
      ∀ r, q.reservations.find? (fun x => x.node == m.src && x.tag == m.tag) = some r →
        ∃ t : State, exec (.versionedWrite m) s = .next t ∧ t.agenda = s.agenda ++ [route (answerTo m n [] false)] ∧
          (t.quad (destOf m)).reservations = q.reservations.filter (fun x => x != r) ∧ (t.quad (destOf m)).watches = q.watches ∧
          t.mem = s.mem ∧ t.poison = s.poison
    (anyPoison s pa 64 = true → refused 2) ∧
    (anyPoison s pa 64 = false → s.cellMalformed pa = true → refused 4) ∧
    (anyPoison s pa 64 = false → s.cellMalformed pa = false →
      (∀ k, newer v (cellCur w) = false → s.cellRetained pa v = some k → exec (.versionedRead m) s = .next ((s.answer m 0 [s.cellVal pa k]).unheld m)) ∧
      (s.cellRetained pa v = none → newer v (cellCur w) = false → exec (.versionedRead m) s = .next ((s.answer m 3).unheld m)) ∧
      (newer v (cellCur w) = true → q.watches.length < 64 → q.waitingReads = [] →
        ∃ t : State, exec (.versionedRead m) s = .next t ∧ (t.quad (destOf m)).watches = q.watches ++ [⟨pa, v, m⟩] ∧ t.mem = s.mem ∧ t.agenda = s.agenda) ∧
      (∀ r, q.reservations.find? (fun x => x.node == m.src && x.tag == m.tag) = some r → r.slot < 4 →
        ∃ t l, exec (.versionedWrite m) s = .next t ∧ t.agenda = s.agenda ++ l ++ [route (answerTo m 0 [] false)] ∧
          (t.quad (destOf m)).reservations = q.reservations.filter (fun x => x != r) ∧
          t.cellVal pa r.slot = m.payload.headD 0 ∧ t.cellVer pa r.slot = (cellCur w + 1) % 2 ^ 16 ∧
          cellCur (Memory.word t.mem pa) = (cellCur w + 1) % 2 ^ 16 ∧ cellNewest (Memory.word t.mem pa) = r.slot ∧
          cellValid (Memory.word t.mem pa) r.slot = true ∧ cellFloor (Memory.word t.mem pa) = cellFloor w ∧
          (∀ k, k < 4 → k ≠ r.slot → t.cellVal pa k = s.cellVal pa k ∧ t.cellVer pa k = s.cellVer pa k ∧
            cellValid (Memory.word t.mem pa) k = cellValid w k) ∧
          ∀ a, a < pa ∨ pa + 64 ≤ a → Memory.read t.mem a = Memory.read s.mem a) ∧
      (let next := (cellCur w + 1) % 2 ^ 16
       let v := if newer v next then next else v
       (newer v (cellFloor w) = false → ∃ t l, exec (.versionRetire m) s = .next t ∧ t.agenda = s.agenda ++ l ++ [route (answerTo m 0 [] false)] ∧ t.mem = s.mem) ∧
       (newer v (cellFloor w) = true →
        ∃ t l, exec (.versionRetire m) s = .next t ∧ t.agenda = s.agenda ++ l ++ [route (answerTo m 0 [] false)] ∧
          cellFloor (Memory.word t.mem pa) = v ∧ cellCur (Memory.word t.mem pa) = cellCur w ∧ cellNewest (Memory.word t.mem pa) = cellNewest w ∧
          (∀ k, k < 4 → cellValid (Memory.word t.mem pa) k = (cellValid w k && (k == cellNewest w || !older (s.cellVer pa k) v))) ∧
          ∀ a, a < pa ∨ pa + 8 ≤ a → Memory.read t.mem a = Memory.read s.mem a)))

open Sys2Proof Sys2Proof.Machine in
/-- R39, R40, R136, R167, R168, R249, R250: a tumbler operation that arrives joins the operations of its quad's tumbler file, or waits behind an earlier arrival of its source. The file performs two updates in a clk, those of commit drains first and in their order, then those of atomic messages in arrival order, and what has filled by then fires in ascending index. An update adds to or takes from COUNT; one that would leave the range changes nothing and answers status 5 or 6, or, from a drain, raises the tumbler fault to its core; one that reaches the target of an armed tumbler reads the action record, once, and is noted to fire with it in this clk, and leaves the tumbler disarmed, or reset where the record is valid and its REARM is set. TARM writes the tumbler, TRD answers it. A fire with an invalid record raises the action-record fault, one with ACT 0 does nothing, one with ACT 1 or 3 sends its message, and one with ACT 2 posts its chain. Where the spec leaves a point of it open, it rests on the choices of logs 102 and 106. -/
def Obligations.TumblerEvents : Prop :=
  (∀ (s : State) (m : Packet), ∀ e ∈ [Instr.tumblerIncrement m, .tumblerDecrement m, .tumblerArm m, .tumblerRead m],
    let q := s.quad (destOf m)
    let behind : Prop := ∃ e ∈ s.heldBefore m, nodeIsEnd (destOf e) = false ∧ quadOf (destOf e) = quadOf (destOf m) ∧ e.src = m.src
    (¬ behind → exec e s = .next ((s.setQuad (destOf m) { q with updates := q.updates ++ [m] }).unheld m)) ∧
    (behind → exec e s = .next (s.hold m))) ∧
  (∀ (s : State) (m : Packet),
    let d := destOf m
    let i := tumblerIndex m
    let n := tumblerAmount m
    let t0 := (s.quad d).tumbler i
    let w := m.payload.headD 0
    let u := s.performTumbler m
    let others : Prop := (∀ j, j ≠ i → (u.quad d).tumbler j = (s.quad d).tumbler j) ∧ u.mem = s.mem
    let acked : Prop := u.agenda = s.agenda ++ [route (answerTo m 0 [] false)]
    let fired (c : Nat) : Prop := acked ∧ (u.quad d).fires = (s.quad d).fires ++ [(i, s.actionOf d i)] ∧
      (u.quad d).tumbler i =
        (if (s.actionOf d i).any (fun a => flagOf a.ctl 2) then { t0 with count := 0, ovs := t0.ovs || c != t0.target }
        else { t0 with count := c, arm := false, ovs := t0.ovs || c != t0.target })
    let counted (c : Nat) : Prop := acked ∧ (u.quad d).fires = (s.quad d).fires ∧ (u.quad d).tumbler i = { t0 with count := c }
    (opOf m = 0x18 →
      (t0.count + n < 2 ^ 24 → others ∧
        (if t0.arm = true ∧ t0.count < t0.target ∧ t0.target ≤ t0.count + n then fired (t0.count + n) else counted (t0.count + n))) ∧
      (2 ^ 24 ≤ t0.count + n → u = s.answer m 6 [tumblerInfo d i n false])) ∧
    (opOf m = 0x19 →
      (n ≤ t0.count → others ∧
        (if t0.arm = true ∧ t0.target < t0.count ∧ t0.count - n ≤ t0.target then fired (t0.count - n) else counted (t0.count - n))) ∧
      (t0.count < n → u = s.answer m 5 [tumblerInfo d i n true])) ∧
    (opOf m = 0x1A → others ∧ acked ∧ (u.quad d).tumbler i = ⟨w.toNat % 2 ^ 24, w.toNat / 2 ^ 24 % 2 ^ 24, w.getLsbD 48, false⟩) ∧
    (opOf m = 0x1B → u = s.answer m 0 [.ofNat 64 (t0.count % 2 ^ 24 + t0.target % 2 ^ 24 * 2 ^ 24 + bitNat t0.arm * 2 ^ 48 + bitNat t0.ovs * 2 ^ 49)]) ∧
    (∀ e : LocalUpdate, e.node = d → e.op = opOf m → e.index = i → e.op ∈ [0x18, 0x19, 0x1A] → (e.op ≠ 0x1A → e.arg.toNat = n) → (e.op = 0x1A → e.arg = w) →
      (s.performDrain e).quads = u.quads ∧ (s.performDrain e).mem = s.mem ∧
      (e.op = 0x18 → 2 ^ 24 ≤ t0.count + n → s.performDrain e = s.notice d 0x61 e.ctx 0 (tumblerInfo d i n false)) ∧
      (e.op = 0x19 → t0.count < n → s.performDrain e = s.notice d 0x60 e.ctx 0 (tumblerInfo d i n true)))) ∧
  (∀ (s : State) (node : Nat),
    let q := s.quad node
    let t := s.tumblerFile node
    let drained := (q.drains.filter (fun u => updateOp u.op)).length
    (∀ l r, q.drains = l ++ r → (∃ e r', r = e :: r' ∧ updateOp e.op = true) → (l.filter (fun u => updateOp u.op)).length = 2 → (t.quad node).drains = r) ∧
    (drained ≤ 2 → (t.quad node).drains = []) ∧
    (∀ l r, q.updates = l ++ r → (l.filter isUpdate).length ≤ 2 - drained →
      (r = [] ∨ (l.filter isUpdate).length = 2 - drained ∧ ∃ m r', r = m :: r' ∧ isUpdate m = true) → (t.quad node).updates = r) ∧
    (drained + (q.updates.filter isUpdate).length ≤ 2 →
      let u := q.updates.foldl State.performTumbler (q.drains.foldl State.performDrain (s.setQuad node { q with drains := [], updates := [] }))
      ∃ is : List Nat, is.Perm ((u.quad node).fires.map (·.1)) ∧ is.Pairwise (fun x y => x ≤ y) ∧
        t = { u with agenda := u.agenda ++ is.map (fun i => .tumblerFire (quadOf node) i) })) ∧
  (∀ (s : State) (quad i : Nat) (l1 l2 : List (Nat × Option ActionRecord)) (r : Option ActionRecord),
    (s.quad quad).fires = l1 ++ (i, r) :: l2 → (∀ e ∈ l1, e.1 ≠ i) →
    let u := s.setQuad quad { s.quad quad with fires := l1 ++ l2 }
    (r = none → exec (.tumblerFire quad i) s = .next (u.notice (quadOf quad) 0x62 15 0 (.ofNat 64 (i % 2 ^ 9)))) ∧
    (∀ a, r = some a →
      (a.ctl.toNat % 4 = 0 → exec (.tumblerFire quad i) s = .next u) ∧
      (a.ctl.toNat % 4 = 1 ∨ a.ctl.toNat % 4 = 3 → ∃ t : State, exec (.tumblerFire quad i) s = .next t ∧
        t.agenda = s.agenda ++ [route (u.firedMessage quad i a)] ∧ (u.firedMessage quad i a).w0 = a.header (((s.quad quad).job).getD 0) ∧
        (t.core (quadOf quad)).sent = (s.core (quadOf quad)).sent + bitNat (countsSent (u.firedMessage quad i a)) ∧ t.mem = s.mem) ∧
      (a.ctl.toNat % 4 = 2 → ∃ t bad, exec (.tumblerFire quad i) s = .next t ∧
        let core := quadOf quad + a.hdr.toNat / 2 ^ 42 % 4
        let rs := u.chainRecords quad core (a.ptr.toNat % 2 ^ 18) (a.ctl.toNat / 16 % 64 + 1)
        ((t.cluster (clusterOf core)).slot (slotOf core)).waiting = ((s.cluster (clusterOf core)).slot (slotOf core)).waiting ++ [.chain rs bad] ∧
        (t.core core).sent = (s.core core).sent + (rs.map recordMessages).sum ∧ t.mem = s.mem)))

/-! ## Steps of the device: departure, arrival, dispatch, replies and translation -/

open Sys2Proof Sys2Proof.Machine in
/-- R111, R117, R121, R124, R125, R233, R253: a departure queue's head is held by a release or fence while an effect of its scope is not acknowledged, by QFENCE while a command of its context to a class of the mask is not performed, by an RCPY under way that writes at its destination, and while a drain of its core is in progress; else it leaves, one that a shootdown has marked translated afresh (R109): a message or command travels to its node under its name, an access to the owner of its physical address, the pieces of an RCPY to the owners of their sources, all awaited; KEYF frees the keys of its mask that are not in flight; a shootdown goes to every unit in scope; a fence only leaves. Where the spec leaves a point of it open, it rests on the choices of logs 68 and 104. -/
def Obligations.DepartureEvents : Prop :=
  (∀ (s : State) (node : Nat), (s.core node).departure = [] → exec (.departure node) s = .next s) ∧
  (∀ (c : Core) (k : Nat) (e : Effect), c.holdsHead k e = true ↔
    (∃ p ∈ c.pending, ∃ n ∈ p.copyTo, n ∈ e.dests) ∨
    (∃ mask, e = .qfence mask ∧ ∃ p ∈ c.pending, ∃ z, p.engine = some z ∧ p.ctx = k ∧ bitAt mask z = true ∧ p.performed = false) ∨
    (∃ sc, e.scope = some sc ∧ ∃ p ∈ c.pending, p.read = false ∧ p.acked = false ∧ p.aclass ≤ sc)) ∧
  (∀ (s : State) (node k : Nat) (e : Effect) (r : List (Nat × Effect)), (s.core node).departure = (k, e) :: r →
    let drained : Prop := ∀ u ∈ (s.quad node).drains, u.node ≠ node
    let e := s.afresh e
    (¬ drained ∨ (s.core node).holdsHead k e = true → exec (.departure node) s = .next s) ∧
    (drained → (s.core node).holdsHead k e = false → ∃ t : State, exec (.departure node) s = .next t ∧ (t.core node).departure = r ∧ t.mem = s.mem ∧
      (∀ m z a sc, e = .msg m z a sc → ∃ p, t.agenda = s.agenda ++ [route { m with tag := p.tag }] ∧
        (t.core node).pending = (s.core node).pending ++ [p] ∧ p.ctx = k ∧ p.answer = a ∧ p.aclass = m.aclass ∧ p.acked = false ∧ p.performed = false ∧
        (kindOf m = 3 ∧ nodeIsEnd (destOf m) = true → p.engine = some (nodeClass (destOf m)))) ∧
      (∀ a, e = .mem a → ∃ p : Pending,
        t.agenda = s.agenda ++ [route (withFlags a.xf (remoteOp node a.op a.size a.pa ((a.slot.map (fun z => k * 16 + z)).getD 0xE0) a.job p.tag a.payload))] ∧
        (t.core node).pending = (s.core node).pending ++ [p] ∧ p.ctx = k ∧ p.addr = a.addr) ∧
      (∀ d a n ps mk j f, e = .copy d a n ps mk j f → ∃ p : Pending,
        t.agenda = s.agenda ++ ps.map (fun q => route (withFlags f (remoteOp node 0x20 0 q.src 0xE0 j p.tag [.ofNat 64 q.dst, .ofNat 64 q.len]))) ∧
        (t.core node).pending = (s.core node).pending ++ [p] ∧ p.ctx = k ∧ p.left = ps.length ∧ p.copyTo = ps.flatMap (fun q => (ownerOf q.dst).toList)) ∧
      (∀ x, e = .tlbi x → let units := (s.setCore node { s.core node with departure := r }).shootdownUnits x
        t.agenda = s.agenda ++ units.map (fun u => .tlbiReceive u x) ∧ t.shootdowns = s.shootdowns ++ [(x, units)]) ∧
      (∀ w, e = .keyf w → t.agenda = s.agenda ∧ ∀ n, n < 64 → w.getLsbD n = true → ((s.core node).key n).flight = 0 → ((t.core node).key n).alloc = .free) ∧
      (∀ x, e = .fence x ∨ e = .qfence x → t.agenda = s.agenda ∧ (t.core node).pending = (s.core node).pending) ∧
      (∀ m, e = .bolt m → t.agenda = s.agenda ++ [route m]))) ∧
  (∀ (s : State),
    (∀ a, a.marked = false → s.afresh (.mem a) = .mem a) ∧
    (∀ a pa, a.marked = true → a.reservation = none → s.walkTo a.job a.addr.toNat a.access = .ok pa → a.op < 0x11 ∨ inG pa = true →
      s.afresh (.mem a) = .mem { a with pa := pa, marked := false }) ∧
    (∀ m z a sc, s.afresh (.msg m z a sc) = .msg m z a sc) ∧ (∀ d a n ps j f, s.afresh (.copy d a n ps false j f) = .copy d a n ps false j f))

open Sys2Proof Sys2Proof.Machine in
/-- R121, R153, R156 to R158, R163, R164, R170, R398, R405: an arrival waits at the quad behind an earlier one of its source; what waits stands in arrival order, and what is tried again and still waits keeps its place. At a quad where its job is resident, a handler message whose queue has room joins it when its handler takes one input, waits in the matching store when it is the first of several, and completes an entry when it is the last; a message for a system entry joins the system queue, or waits for room in it; one without a valid handler raises the bad-handler notice, which carries it; one whose handler entry is poisoned joins its queue unrouted. While pre-emption records its channel it is recorded. One for a job that is away joins the absent queue, as its region has room; one for an unknown job is told to the management core. Where the spec leaves a point of it open, it rests on the choices of log 93. -/
def Obligations.ArrivalEvents : Prop :=
  ∀ (s : State) (m : Packet),
    let n := destOf m
    let p := priOf m
    let c := s.core n
    let ack (t : State) : Prop := t.agenda = s.agenda ++ (if m.tag = 0 then [] else [route (answerTo m 0 [] false)])
    let counted := c.recv + (if countsReceived m then 1 else 0)
    let away : Prop := (s.quad n).job ≠ some (jobOf m) ∨ ((s.quad n).restoring = true ∧ m.counted = false)
    (let held (l : List WaitingArrival) : List Packet := l.map (fun e => e.m)
     (⟨m, true⟩ ∉ s.arrivals → s.heldBefore m = held s.arrivals ∧ s.hold m = { s with arrivals := s.arrivals ++ [⟨m, false⟩] } ∧ s.unheld m = s) ∧
     (∀ l1 l2, s.arrivals = l1 ++ ⟨m, true⟩ :: l2 → ⟨m, true⟩ ∉ l1 →
       s.heldBefore m = held l1 ∧ s.hold m = { s with arrivals := l1 ++ ⟨m, false⟩ :: l2 } ∧ s.unheld m = { s with arrivals := l1 ++ l2 })) ∧
    (s.waitsBehind m = true → exec (.handlerMessageArrival m) s = .next (s.hold m)) ∧
    (s.waitsBehind m = false →
    (¬ away → (s.quad n).redirect = [] → c.hinge.arm = false →
      (0xE0 ≤ hidxOf m → c.sysFull n = false → ∃ t : State, exec (.handlerMessageArrival m) s = .next t ∧
        (t.core n).sysq = c.sysq ++ [.message m] ∧ (t.core n).recv = counted ∧ ack t) ∧
      (0xE0 ≤ hidxOf m → c.sysFull n = true → exec (.handlerMessageArrival m) s = .next (s.hold m)) ∧
      (hidxOf m < 0xE0 → s.handlerPoison n (hidxOf m) = true → c.q.spills p = false → ∃ (t : State) (e : QEntry),
        exec (.handlerMessageArrival m) s = .next t ∧ (t.core n).q.queueAt p = c.q.queueAt p ++ [e] ∧
        e.inputs = [m] ∧ e.unrouted = true ∧ e.since = s.clk ∧ (t.core n).recv = counted ∧ ack t) ∧
      (hidxOf m < 0xE0 → s.handlerPoison n (hidxOf m) = false →
        (s.joins n (hidxOf m) = none → c.sysFull n = false → ∃ t : State, exec (.handlerMessageArrival m) s = .next t ∧
          (t.core n).sysq = c.sysq ++ [.notice 0x30 15 0 0 [m]] ∧ (t.core n).recv = counted ∧ ack t) ∧
        (∀ h he i, s.joins n (hidxOf m) = some (h, he, i) → isMarker m = true → he.arity = 0 → ∃ t : State,
          exec (.handlerMessageArrival m) s = .next t ∧ (t.core n).q.queue = c.q.queue ∧ (t.core n).q.store = c.q.store ∧ ack t) ∧
        (∀ h he i, s.joins n (hidxOf m) = some (h, he, i) → isMarker m = false →
          (he.arity = 0 → c.q.spills p = false → ∃ (t : State) (e : QEntry), exec (.handlerMessageArrival m) s = .next t ∧
            (t.core n).q.queueAt p = c.q.queueAt p ++ [e] ∧ e.inputs = [m] ∧ e.head = hidxOf m ∧ e.orphan = false ∧ e.run = lengthOf m ∧
            (t.core n).recv = counted ∧ ack t ∧ t.mem = s.mem) ∧
          (he.arity ≠ 0 → c.q.store = [] → c.q.overflow = [] → ∃ (t : State) (a : Waiting), exec (.handlerMessageArrival m) s = .next t ∧
            (t.core n).q.store = [a] ∧ a.head = h ∧ a.input = i ∧ a.msg = m ∧ a.marker = false ∧ a.since = s.clk ∧ (t.core n).recv = counted ∧ ack t) ∧
          (∀ a, he.arity = 1 → i < 2 → c.q.store = [a] → c.q.overflow = [] → a.marker = false → a.head = h → a.input = 1 - i →
            vecOf m = false → vecOf a.msg = false → a.run = 1 → a.tag = wkTag c.wkdesc m.w1 → keysAgree c.wkdesc he.jmask a.msg.w1 m.w1 = true →
            c.q.spills (min (priOf a.msg) p) = false → ∃ (t : State) (e : QEntry), exec (.handlerMessageArrival m) s = .next t ∧
              (t.core n).q.store = [] ∧ (t.core n).q.queueAt (min (priOf a.msg) p) = c.q.queueAt (min (priOf a.msg) p) ++ [e] ∧
              e.inputs = (if i = 0 then [m, a.msg] else [a.msg, m]) ∧ e.head = h ∧ e.run = 1 ∧ (t.core n).recv = counted ∧ ack t)))) ∧
    (¬ away → ∀ ch bad, s.recordAs m = some (ch, bad) →
      let x := s.actingCore n
      (s.die (dieNode n)).accepts (s.core x).hinge.recorded.length = true → ∃ t : State, exec (.handlerMessageArrival m) s = .next t ∧ ack t ∧
        (t.core x).hinge.recorded = (s.core x).hinge.recorded ++ [⟨m, ch⟩] ∧ (t.core x).q = (s.core x).q) ∧
    (away →
      (aget s.jobs (jobOf m) = none → exec (.handlerMessageArrival m) s = .next (((s.tell (.unknownJob n (jobOf m))).accepted m).unheld m)) ∧
      (∀ j, aget s.jobs (jobOf m) = some j → j.status = .waiting ∨ j.status = .ending ∨ j.status = .ended →
        exec (.handlerMessageArrival m) s = .next (((s.tell (.unknownJob n (jobOf m))).accepted m).unheld m)) ∧
      (∀ j x y z, aget s.jobs (jobOf m) = some j → j.status = .resident ∨ j.status = .saved ∨ j.status = .restoring →
        relativeOf j.plbase j.placedRecord n = some (x, y, z) →
        let q := agetD (s.die (dieNode n)).absent (jobOf m) {}
        ((s.die (dieNode n)).accepts q.entries.length = true → ∃ (t : State) (e : Packet), exec (.handlerMessageArrival m) s = .next t ∧ ack t ∧
          (agetD (t.die (dieNode n)).absent (jobOf m) {}).entries = q.entries ++ [e] ∧
          e.w0 = putField m.w0 63 42 (coreNode z x y (nodeCore n)) ∧ e.w1 = m.w1 ∧ e.payload = m.payload ∧ e.counted = true) ∧
        ((s.die (dieNode n)).accepts q.entries.length = false →
          exec (.handlerMessageArrival m) s = .next ((s.poolEmpty (dieNode n)).hold m)))))

open Sys2Proof Sys2Proof.Machine in
/-- R37, R153, R155, R159, R161, R164, R165, R184, R358, R387, R394, R396: the dispatcher gives the entry that it selects to the lowest Free context: Live at the handler's entry, every g and v register full with the value it last held and no mark left, g29 at the top of its stack, q0 with the run's lanes, FPFLAGS from the inputs, FPMODE and the budget of the handler, and the next serial. Without a valid handler, or with a wrong scaled flag, the entry goes to the system context; a poisoned handler entry pauses its priority. The system context takes the head of its queue when it is idle, with the trap registers of the entry. Spilled entries and waiting entries come back in order; a bolt waits behind what its source sent before, closes its channel, and the last one lands its core. Where the spec leaves a point of it open, it rests on the choices of logs 93 and 94. -/
def Obligations.DispatchEvents : Prop :=
  (∀ (s : State) (node : Nat), (s.core node).replayMode ≠ 2 →
    (s.dispatchStops node = true ∨ s.selectPri node = none → exec (.dispatch node) s = .next s) ∧
    (∀ p age i e, s.dispatchStops node = false → s.selectPri node = some (p, age) → s.firstTaken node p = some i →
      ((s.core node).q.queueAt p)[i]? = some e → (e.unrouted = false ∧ s.codePoison node e = true) ∨ (e.unrouted = true ∧ s.handlerPoison node e.head = true) →
      exec (.dispatch node) s = .next (s.pausePri node p i e.head))) ∧
  (∀ (s : State) (node p i h : Nat) (e : QEntry), p < 4 → ((s.core node).q.queueAt p)[i]? = some e → (s.core node).sysFull node = false →
    let t := s.pausePri node p i h
    (t.core node).q.queueAt p = ((s.core node).q.queueAt p).set i { e with stuck := true } ∧ (t.core node).q.pausedAt p = true ∧ t.mem = s.mem ∧
    (t.core node).sysq = (s.core node).sysq ++ [.notice 0x2E 15 0 (.ofNat 64 (h % 2 ^ 8 + p * 2 ^ 8)) []]) ∧
  (∀ (s : State) (node p age i k : Nat) (e : QEntry), s.dispatchStops node = false → (s.core node).replayMode = 0 →
    s.selectPri node = some (p, age) → p < 4 → s.firstTaken node p = some i → ((s.core node).q.queueAt p)[i]? = some e → e.unrouted = false →
    s.codePoison node e = false → (s.core node).freeCtx = some k →
    let gone (t : State) : Prop := (t.core node).q.queueAt p = ((s.core node).q.queueAt p).eraseIdx i ∧ (t.core node).q.age = age ∧ t.mem = s.mem
    (s.codeOf node e = none → (s.core node).sysFull node = false →
      ∃ t : State, exec (.dispatch node) s = .next t ∧ gone t ∧ (t.core node).sysq = (s.core node).sysq ++ [.notice 0x30 15 0 0 e.inputs]) ∧
    (∀ h, s.codeOf node e = some h →
      (scaledWrong h e ≠ 0 → (s.core node).sysFull node = false → ∃ t : State, exec (.dispatch node) s = .next t ∧ gone t ∧
        (t.core node).sysq = (s.core node).sysq ++ [.notice 0x31 15 0 (.ofNat 64 (scaledWrong h e)) e.inputs]) ∧
      (scaledWrong h e = 0 → ∃ t : State, exec (.dispatch node) s = .next t ∧ gone t ∧
        let y := t.ctx node k
        y.status = .live ∧ y.pc = h.entry ∧ y.block = none ∧ y.retire = [] ∧ y.fpmode = h.mode ∧ y.invser = (s.core node).serial ∧
        (t.core node).serial = (s.core node).serial + 1 ∧ y.budgetLeft = h.budget ∧ y.budgetOn = (h.budget != 0) ∧
        (y.invocation.map (fun v => v.entry)) = some e ∧
        y.regs.gval 29 = .ofNat 64 (stackBase node k + 0x800) ∧ (∀ x, x ≠ 29 → y.regs.gval x = (s.ctx node k).regs.gval x) ∧
        (∀ x, y.regs.stateOf (.g x false) = .full ∧ y.regs.stateOf (.v x false) = .full ∧ (y.regs.vreg x).lanes = ((s.ctx node k).regs.vreg x).lanes) ∧
        y.regs.qreg 0 = .ofNat 32 (2 ^ e.run - 1) ∧ y.regs.flags = inputFlags e.inputs ∧
        ∀ j, j ≠ k → t.ctx node j = s.ctx node j))) ∧
  (∀ (s : State) (node : Nat) (e : SysEntry) (r : List SysEntry), (s.core node).sysq = e :: r →
    ((s.core node).systemIdle = true → ∃ t : State, exec (.systemEntryTake node) s = .next t ∧
      (t.core node).sysq ++ (t.core node).sysHeld = r ++ (s.core node).sysHeld ∧ r.length ≤ (t.core node).sysq.length ∧
      (t.ctx node 10).status = .live ∧ (t.ctx node 10).pc = (s.handler node (s.sysView e).1).entry ∧ (t.ctx node 10).trap = (s.sysView e).2.1 ∧
      (t.ctx node 10).budgetOn = false ∧ (t.ctx node 10).invocation.map (fun i => i.entry.inputs) = some (s.sysView e).2.2 ∧
      (∀ j, j ≠ 10 → t.ctx node j = s.ctx node j) ∧ t.mem = s.mem) ∧
    ((s.core node).systemIdle = false → exec (.systemEntryTake node) s = .next s)) ∧
  (∀ (s : State) (node : Nat), (s.core node).sysq = [] → exec (.systemEntryTake node) s = .next s) ∧
  (∀ (s : State) (node p : Nat), p < 4 →
    let q := (s.core node).q
    (∀ a r, q.overflow = a :: r → q.store.length < 256 → ∃ t : State, exec (.matchOverflowMove node) s = .next t ∧
      (t.core node).q.store = q.store ++ [a] ∧ (t.core node).q.overflow = r ∧ t.mem = s.mem) ∧
    (q.overflow = [] ∨ 256 ≤ q.store.length → exec (.matchOverflowMove node) s = .next s) ∧
    (∀ e r, q.refillAt p = none → q.spillAt p = e :: r → (q.queueAt p).length < q.depthAt p → ∃ t : State, exec (.spillRefill node p) s = .next t ∧
      (t.core node).q.refillAt p = some e ∧ (t.core node).q.spillAt p = r ∧ (t.core node).q.queueAt p = q.queueAt p ∧
      t.later = s.later ++ [(s.clk + 1, .spillRefill node p)]) ∧
    (∀ e, q.refillAt p = some e → ∃ t : State, exec (.spillRefill node p) s = .next t ∧
      (t.core node).q.queueAt p = q.queueAt p ++ [e] ∧ (t.core node).q.refillAt p = none) ∧
    (q.refillAt p = none → q.spillAt p = [] ∨ q.depthAt p ≤ (q.queueAt p).length → exec (.spillRefill node p) s = .next s)) ∧
  (∀ (s : State) (m : Packet),
    let n := s.actingCore (destOf m)
    let i := m.w1.toNat % 64
    let closed (t : State) : Prop := exec (.boltArrival m) s = .next t ∧ i ∈ (t.core n).hinge.closed ∧ ∀ x ∈ (s.core n).hinge.closed, x ∈ (t.core n).hinge.closed
    (s.waitsBehind m = true → exec (.boltArrival m) s = .next (s.hold m)) ∧
    (s.waitsBehind m = false → (s.quad n).job = some (jobOf m) → (s.incoming n).contains i = true →
      ((s.core n).hinge.arm = false → ∃ t : State, closed t ∧ t.mem = s.mem) ∧
      ((s.core n).hinge.arm = true →
        ((∀ x ∈ s.incoming n, x = i ∨ x ∈ (s.core n).hinge.closed) → ∃ t : State, closed t ∧ (t.core n).hinge.landed = true) ∧
        ((∃ x ∈ s.incoming n, x ≠ i ∧ x ∉ (s.core n).hinge.closed) → ∃ t : State, closed t ∧
          (t.core n).hinge.landed = (s.core n).hinge.landed ∧ (t.core n).ctxs = (s.core n).ctxs))) ∧
    (s.waitsBehind m = false → (s.quad n).job ≠ some (jobOf m) ∨ (s.incoming n).contains i = false → (s.core n).sysFull n = false →
      ∃ t : State, exec (.boltArrival m) s = .next t ∧ (t.core n).sysq = (s.core n).sysq ++ [.notice 0x79 15 0 0 []]))

open Sys2Proof Sys2Proof.Machine in
/-- R35, R111, R124, R125, R150, R162, R182, R230, R232, R241, R242, R251: the answer to a request frees its reply slot and fills its register, in the open block's copy and, for a slot of an earlier block, in the copy kept for a discard; a refused, poisoned, retired or malformed answer marks the register instead and leaves its value; a dropped reply only frees the slot; an answer without a slot is counted as stray. An acknowledgement ends the wait for its effect; that of a command to an engine that reports its work ends the release's wait, and the command stays until it is performed. A refusal raises its notice; another STATUS of an engine is a plain value. A REPLY is itself accepted at its receiver, and brings a plain value to whatever slot it names. A key-set reply sets its key; that of a command ends the flight of one command, and those of a PULL and of a REPLY.key leave it as it is. Where the spec leaves a point of it open, it rests on the choices of logs 13 and 95. -/
def Obligations.ReplyEvents : Prop :=
  (∀ (s : State) (m : Packet) (u : SlotUse),
    let n := destOf m
    let k := hidxOf m / 16
    let z := hidxOf m % 16
    let w := m.payload.headD 0
    let old := ((s.ctx n k).regs.greg u.reg).val
    let freed (t : State) : Prop := aget (t.ctx n k).slots z = none ∧ t.mem = s.mem
    let filled (r : Reg) : Prop := ∃ t : State, exec (.replySlotFill m) s = .next t ∧ freed t ∧ (t.ctx n k).regs.greg u.reg = r ∧
      (u.inBlock = false → ∀ b, (t.ctx n k).block = some b → b.entry.greg u.reg = r) ∧ ∀ x, x ≠ u.reg → (t.ctx n k).regs.greg x = (s.ctx n k).regs.greg x
    k ≤ 10 → aget (s.ctx n k).slots z = some u → m.wantAck = false → u.reg ≠ 0 → u.reg < 32 →
      (u.dropped = false → statusOf m = 0 →
        (∀ size signed, u.answer = .load size signed →
          filled ⟨if signed then .ofInt 64 (BitVec.ofNat (8 * 2 ^ size) w.toNat).toInt else .ofNat 64 (w.toNat % 2 ^ (8 * 2 ^ size)), .full⟩) ∧
        (∀ size, u.answer = .atomic size → filled ⟨.ofNat 64 (w.toNat % 2 ^ (8 * 2 ^ size)), .full⟩) ∧
        (u.answer = .version ∨ u.answer = .tumbler → filled ⟨w, .full⟩) ∧
        (u.answer = .engine ∨ u.answer = .message → filled ⟨if beatsOf m = 0 then 0 else w, .full⟩) ∧
        (∀ h, u.answer = .spawn ∨ u.answer = .push h → filled ⟨1, .full⟩) ∧
        (∀ x y, u.answer = .lease x ∨ u.answer = .collective y → filled ⟨w, .full⟩)) ∧
      (u.dropped = false → ∀ h, u.answer = .spawn ∨ u.answer = .push h → statusOf m = 7 → filled ⟨0, .full⟩) ∧
      (u.dropped = false → (∃ size signed, u.answer = .load size signed) ∨ (∃ size, u.answer = .atomic size) ∨ u.answer = .version →
        (statusOf m = 1 → filled ⟨old, .refused⟩) ∧ (statusOf m = 2 → filled ⟨old, .poisoned⟩) ∧
        (statusOf m = 1 ∨ statusOf m = 2 ∧ (∃ size, u.answer = .atomic size) → (s.core n).sysFull n = false → ∃ t : State, exec (.replySlotFill m) s = .next t ∧
          (t.core n).sysq = (s.core n).sysq ++ [.notice 0x38 k ((((s.core n).pending.find? (fun p => p.tag == m.tag)).map (fun p => p.addr)).getD 0) 0 []])) ∧
      (u.dropped = false → u.answer = .version →
        (statusOf m = 3 → filled ⟨old, .retired⟩) ∧ (statusOf m = 4 → filled ⟨old, .malformed⟩)) ∧
      (u.dropped = true → u.answer = .version → ∃ t : State, exec (.replySlotFill m) s = .next t ∧ freed t ∧ (t.ctx n k).regs = (s.ctx n k).regs)) ∧
  (∀ (s : State) (m : Packet), m.wantAck = false → (hidxOf m / 16 ≤ 10 → aget (s.ctx (destOf m) (hidxOf m / 16)).slots (hidxOf m % 16) = none) →
    exec (.replySlotFill m) s = .next (s.count (destOf m) 4 1)) ∧
  (∀ (s : State) (m : Packet) (u : SlotUse), m.wantAck = true → hidxOf m / 16 ≤ 10 → m.src < 2 ^ 22 →
    aget (s.ctx (destOf m) (hidxOf m / 16)).slots (hidxOf m % 16) = some u → u.dropped = false → u.reg ≠ 0 → u.reg < 32 →
    ∃ t : State, exec (.replySlotFill m) s = .next t ∧
      (t.ctx (destOf m) (hidxOf m / 16)).regs.greg u.reg = ⟨if beatsOf m = 0 then .ofNat 64 (statusOf m) else m.payload.headD 0, .full⟩ ∧
      ∃ a, t.agenda = s.agenda ++ [route a] ∧ destOf a = m.src ∧ kindOf a = 1 ∧ hidxOf a = 0xE0 ∧ a.tag = m.tag) ∧
  (∀ (s : State) (m : Packet) (p : Pending),
    let n := destOf m
    let c := s.core n
    let mine := c.pending.find? (fun x => x.tag == m.tag)
    let ends (t : State) : Prop := exec (.acknowledgement m) s = .next t ∧ (t.core n).pending = c.pending.filter (fun x => x.tag != m.tag)
    m.wantAck = false → (nodeIsEnd n = false ∨ nodeClass n ≠ 7) → s.copies = [] →
    (mine = none → nodeIsEnd n = false →
      (m.tag ≠ 0 ∨ statusOf m ≠ 1 → exec (.acknowledgement m) s = .next (s.count n 4 1)) ∧
      (m.tag = 0 → statusOf m = 1 → exec (.acknowledgement m) s = .next (s.notice n 0x38 15 0 0))) ∧
    (mine = some p → p.worst = 0 →
      (1 < p.left → ∃ t : State, exec (.acknowledgement m) s = .next t ∧ ∃ q ∈ (t.core n).pending, q.tag = m.tag ∧ q.left = p.left - 1 ∧ q.worst = statusOf m) ∧
      (p.left ≤ 1 → statusOf m = 0 →
        ((p.engine ≠ some 1 ∧ p.engine ≠ some 2 ∧ p.engine ≠ some 7) ∨ p.performed = true → ∃ t : State, ends t ∧ (t.core n).sysq = c.sysq) ∧
        ((p.engine = some 1 ∨ p.engine = some 2 ∨ p.engine = some 7) → p.performed = false → ∃ t : State, exec (.acknowledgement m) s = .next t ∧
          (t.core n).sysq = c.sysq ∧ ∃ q ∈ (t.core n).pending, q.tag = m.tag ∧ q.acked = true ∧ q.performed = false)) ∧
      (p.left ≤ 1 → statusOf m = 1 → (∃ op, op < 0x10 ∧ p.answer = .effect op p.addr) → c.sysFull n = false →
        ∃ t : State, ends t ∧ (t.core n).sysq = c.sysq ++ [.notice 0x38 p.ctx p.addr 0 []]) ∧
      (p.left ≤ 1 → statusOf m ≠ 0 → statusOf m ≠ 1 → p.answer = plainAnswer → ∃ t : State, ends t ∧ (t.core n).sysq = c.sysq) ∧
      (p.left ≤ 1 → statusOf m = 1 → p.answer = plainAnswer → c.sysFull n = false → ∃ t : State, ends t ∧
        (t.core n).sysq = c.sysq ++ [.notice (if nodeIsEnd m.src = true ∧ nodeClass m.src = 4 then 0x39 else 0x38) p.ctx 0 0 []]))) ∧
  (∀ (s : State) (m : Packet), m.wantAck = true →
    let n := destOf m
    ∃ t : State, exec (.acknowledgement m) s = .next t ∧ t.agenda.length = s.agenda.length + 1 ∧
      (∀ p, (s.core n).pending.find? (fun x => !x.read && !x.acked && x.aclass == fieldOf m.w1 15 14) = some p →
        (t.core n).pending = (s.core n).pending.map (fun q => if q.tag = p.tag then { q with acked := true } else q)) ∧
      ((s.core n).pending.find? (fun x => !x.read && !x.acked && x.aclass == fieldOf m.w1 15 14) = none → (t.core n).pending = (s.core n).pending)) ∧
  (∀ (s : State) (m : Packet),
    let n := destOf m
    let k := m.w1.toNat / 2 ^ 8 % 2 ^ 6
    let key := (s.core n).key k
    (m.wantAck = false → key.alloc = .free → exec (.keySetReply m) s = .next (s.count n 4 1)) ∧
    (key.alloc ≠ .free → ∃ t : State, exec (.keySetReply m) s = .next t ∧ ((t.core n).key k).bit = true ∧
      (m.wantAck = false → m.tag = 0 →
        (key.freeOnSet = false ∨ 1 < key.flight → (t.core n).key k = { key with bit := true, flight := key.flight - 1 }) ∧
        (key.freeOnSet = true → key.flight ≤ 1 → ((t.core n).key k).alloc = .free ∧ ((t.core n).key k).flight = 0)) ∧
      (m.wantAck = true ∨ m.tag ≠ 0 → (t.core n).key k = { key with bit := true }) ∧ (∀ j, j ≠ k → (t.core n).key j = (s.core n).key j)))

open Sys2Proof Sys2Proof.Machine in
/-- R94, R102, R104, R107, R109, R360, R473: misses of one job to one 64 KiB region merge, four walkers serve a cluster and up to 64 misses wait in arrival order; a walk reads one entry of a table, and goes on at the next level, fills the TLBs of its core with the leaf, or ends in the fault that its context will raise, and its walker takes the next miss; one that a shootdown has met fills nothing and reports no fault; a root outside HBM ends a walk with the fault 0x23 at level 0, before anything is read; a paused stack answers later. A shootdown removes from a unit's TLBs, and a core's from its quad's instruction cache, every entry that its range meets and no other; when every unit has acknowledged, its register fills with 0. Where the spec leaves a point of it open, it rests on the choices of log 9. -/
def Obligations.TranslationEvents : Prop :=
  (∀ (s : State) (n : Nat) (w : Walk),
    let u := (s.cluster (clusterOf n)).walks
    let known : Prop := ∃ m ∈ u.busy ++ u.queue, m.job = w.job ∧ m.va.toNat / 65536 = w.va.toNat / 65536
    (known → ∃ t : State, s.coreMiss n w = some t ∧ t.agenda = s.agenda ∧ (t.cluster (clusterOf n)).walks.busy.length = u.busy.length ∧
      (t.cluster (clusterOf n)).walks.queue.length = u.queue.length) ∧
    (¬ known → u.busy.length < 4 → ∃ t : State, s.coreMiss n w = some t ∧ t.agenda = s.agenda ++ [.pageWalkRead w] ∧
      (t.cluster (clusterOf n)).walks = { u with busy := u.busy ++ [⟨w.job, w.va, [w.who]⟩] }) ∧
    (¬ known → 4 ≤ u.busy.length → u.queue.length < 64 → ∃ t : State, s.coreMiss n w = some t ∧ t.agenda = s.agenda ∧
      (t.cluster (clusterOf n)).walks = { u with queue := u.queue ++ [⟨w.job, w.va, [w.who]⟩] }) ∧
    (¬ known → 4 ≤ u.busy.length → 64 ≤ u.queue.length → s.coreMiss n w = none)) ∧
  (∀ (s : State) (w : Walk),
    let goodRoot : Prop := w.level ≠ 0 ∨ inHbm w.table = true
    (goodRoot → ∀ c, s.pausedOwner w = some c → ∃ t : State, exec (.pageWalkRead w) s = .next t ∧ (t.memCore c).walkReads = (s.memCore c).walkReads ++ [w] ∧ t.agenda = s.agenda) ∧
    (goodRoot → s.pausedOwner w = none → ∀ n k, w.who = .memCore n k → (s.memCore n).paused = true → ∃ t : State, exec (.pageWalkRead w) s = .next t ∧
      (t.memCore n).walkReads = (s.memCore n).walkReads ++ [w] ∧ t.agenda = s.agenda) ∧
    (¬ goodRoot → ∀ n k, w.who = .coreData n k ∨ w.who = .coreFetch n k → k < 11 → (s.ctx n k).miss = some (.walking w.job w.va) → w.stale = false →
      (s.cluster (clusterOf n)).walks = ⟨[⟨w.job, w.va, [w.who]⟩], []⟩ → ∃ t : State, exec (.pageWalkRead w) s = .next t ∧
        (t.ctx n k).miss = some (.failed w.job w.va 0x23 0 false) ∧ t.mem = s.mem ∧ t.agenda = s.agenda) ∧
    (goodRoot → s.pausedOwner w = none → s.pausedWalker w.who = false →
      (∀ tbl, s.walkRead w.va.toNat w.level w.table = .next tbl →
        exec (.pageWalkRead w) s = .next (s.due (.pageWalkRead { w with level := w.level + 1, table := tbl }))) ∧
      (∀ n k, w.who = .coreData n k → k < 11 → (s.ctx n k).miss = some (.walking w.job w.va) →
        let cl := s.cluster (clusterOf n)
        cl.walks.busy = [⟨w.job, w.va, [w.who]⟩] →
        let left (t : State) : Prop := exec (.pageWalkRead w) s = .next t ∧ t.mem = s.mem ∧
          (cl.walks.queue = [] → (t.cluster (clusterOf n)).walks = {} ∧ t.agenda = s.agenda) ∧
          (∀ x r, cl.walks.queue = x :: r → (t.cluster (clusterOf n)).walks = ⟨[x], r⟩ ∧
            t.agenda = s.agenda ++ [.pageWalkRead ⟨x.who.headD w.who, x.job, x.va, 0, s.ptroot x.job, false⟩])
        (∀ e, s.walkRead w.va.toNat w.level w.table = .leaf e → ∃ t : State, left t ∧ (t.ctx n k).miss = none ∧
          (w.stale = false → (s.core n).fenced = false →
            leafEntry w.job w.va.toNat w.level e ∈ (t.core n).dtlb ∧ leafEntry w.job w.va.toNat w.level e ∈ (t.cluster (clusterOf n)).tlb) ∧
          (w.stale = true → (t.core n).dtlb = (s.core n).dtlb ∧ (t.cluster (clusterOf n)).tlb = cl.tlb)) ∧
        (∀ c poison, s.walkRead w.va.toNat w.level w.table = .fault c poison → ∃ t : State, left t ∧ (t.core n).dtlb = (s.core n).dtlb ∧
          (w.stale = false → (t.ctx n k).miss = some (.failed w.job w.va c w.level poison)) ∧ (w.stale = true → (t.ctx n k).miss = none))))) ∧
  (∀ (s : State) (n : Nat) (t : Shootdown),
    let kept (l : List TlbEntry) : List TlbEntry := l.filter (fun e => !shotMeets t e.job e.base e.size)
    ((s.core n).fenced = true → exec (.tlbiReceive (.core n) t) s = .next (s.shootdownAck t (.core n))) ∧
    ((s.core n).fenced = false → ∃ u : State, exec (.tlbiReceive (.core n) t) s = .next u ∧
      (u.core n).itlb = kept (s.core n).itlb ∧ (u.core n).dtlb = kept (s.core n).dtlb ∧
      (u.quad n).icache = (s.quad n).icache.filter (fun e => !shotMeets t (e.1 / 2 ^ 48) (e.1 % 2 ^ 48) 4) ∧
      (∀ w, .pageWalkRead w ∈ s.agenda → w.job = t.job → walkerCore w.who = some n → .pageWalkRead { w with stale := true } ∈ u.agenda)) ∧
    (∃ u : State, exec (.tlbiReceive (.cluster n) t) s = .next u ∧ (u.cluster n).tlb = kept (s.cluster n).tlb) ∧
    (∃ u : State, exec (.tlbiReceive (.memCore n) t) s = .next u ∧ (u.memCore n).tlb = kept (s.memCore n).tlb) ∧
    (∃ u : State, exec (.tlbiReceive (.hostPort n) t) s = .next u ∧ (u.module n).tlb = kept (s.module n).tlb)) ∧
  (∀ (s : State) (t : Shootdown), ∃ v : State, exec (.tlbiComplete t) s = .next v ∧
    (v.core t.issuer).pending = (s.core t.issuer).pending.filter (fun p => p.tag != t.tag) ∧
    (t.slot = none → v.ctx t.issuer t.ctx = s.ctx t.issuer t.ctx) ∧
    (∀ z u, t.slot = some z → aget (s.ctx t.issuer t.ctx).slots z = some u → t.ctx < 11 → u.reg ≠ 0 → u.reg < 32 → u.dropped = false →
      (v.ctx t.issuer t.ctx).regs.greg u.reg = ⟨0, .full⟩ ∧ aget (v.ctx t.issuer t.ctx).slots z = none))

/-! ## Steps of the device: task queues and the matrix array -/

open Sys2Proof Sys2Proof.Machine in
/-- R66 to R70, R243 to R247, R405, R406: a command on a queue waits behind an earlier one on it that waits, and one on a task queue while the job of the queue is not resident. A push of its own job, or of a system context, joins the tail of its task queue while it has room, waits with HOLD, and is answered "full" without; a pop answers the head and takes it, or with FWD sends a task on as a handler message; LEN answers the length; CREATE binds a queue and reserves its slots, DESTROY frees them; a slot that becomes free goes to the first held push. The queue of another job, a reserved queue number, and a command that is none, is refused; a hardware list answers its length to a system context only. A reply says refused by 1, and full, empty, no room, invalid and not a task by 7 to 11 (log 11). Where the spec leaves a point of it open, it rests on the choices of logs 11, 15 and 84. -/
def Obligations.QueueEvents : Prop :=
  ∀ (s : State) (m : Packet),
    let die := destOf m
    let q := cmdQueue m
    let away (job : Nat) : Prop := ∃ j, aget s.jobs job = some j ∧ (j.status = .waiting ∨ j.status = .saved ∨ j.status = .restoring)
    let behind : Prop := ∃ e ∈ s.heldBefore m, destOf e = die ∧ cmdQueue e = q
    let waits : Prop := behind ∨ ∃ t, s.taskQueue m = some t ∧ away t.job
    let gives (i : Instr) (u : State) : Prop := exec i s = .next (u.unheld m)
    let refused (i : Instr) : Prop := gives i (s.answer m 1)
    exec (.invalidQueueCommand m) s = .next (s.answer m 10) ∧
    (waits → exec (.pop m) s = .next (s.hold m) ∧ (s.fromSystem m = false → exec (.len m) s = .next (s.hold m)) ∧
      (s.taskQueue m = none → exec (.push m) s = .next (s.hold m)) ∧
      (∀ t, s.taskQueue m = some t → exec (.push m) s = .next (s.holdAs m (s.settlePush t.job m))) ∧
      (s.fromSystem m = true → exec (.destroy m) s = .next (s.hold m))) ∧
    (behind → exec (.create m) s = .next (s.hold m) ∧ exec (.destroy m) s = .next (s.hold m)) ∧
    (¬ waits → q < 0x3000 ∨ 0x5000 ≤ q →
      refused (.push m) ∧ refused (.pop m) ∧ refused (.create m) ∧
      refused (.destroy m) ∧ ((s.fromSystem m = false ∨ 0x2EE0 ≤ q) → refused (.len m)) ∧
      (s.fromSystem m = true → q < 0x2580 →
        gives (.len m) (s.answer m 0 [.ofNat 64 ((s.core (coreOfIndex die (q / 4))).q.spillAt (q % 4)).length])) ∧
      (s.fromSystem m = true → 0x2580 ≤ q → q < 0x2EE0 →
        gives (.len m) (s.answer m 0 [.ofNat 64 (s.core (coreOfIndex die (q - 0x2580))).q.overflow.length]))) ∧
    (¬ waits → 0x3000 ≤ q → q < 0x4000 →
      let a := agetD (s.die die).absent (q - 0x3000) {}
      (s.fromSystem m = false → refused (.push m) ∧ refused (.pop m) ∧ refused (.len m)) ∧
      (s.fromSystem m = true →
        gives (.len m) (s.answer m 0 [.ofNat 64 a.entries.length]) ∧
        (a.entries = [] → gives (.pop m) (s.answer m 8)) ∧
        ((s.die die).accepts a.entries.length = true → ∃ u : State, gives (.push m) (u.answer m 0 [1]) ∧ u.agenda = s.agenda ∧
          (agetD (u.die die).absent (q - 0x3000) {}).entries = a.entries ++ [{ cmdEntry m with counted := true }]) ∧
        ((s.die die).accepts a.entries.length = false → exec (.push m) s = .next ((s.poolEmpty die).hold m)))) ∧
    (0x4000 ≤ q → q < 0x5000 →
      (¬ waits → s.taskQueue m = none → refused (.push m) ∧ refused (.pop m) ∧ refused (.len m)) ∧
      (∀ t, s.taskQueue m = some t → away t.job → s.fromSystem m = true → gives (.len m) (s.answer m 0 [.ofNat 64 t.entries.length])) ∧
      (∀ t, s.taskQueue m = some t → ¬ waits →
        (t.entries.length < t.cap → ∃ u : State, gives (.push m) (u.answer m 0 [1]) ∧ u.agenda = s.agenda ∧ u.mem = s.mem ∧
          aget (u.die die).tasks q = some { t with entries := t.entries ++ [s.storeEntry t.job m] }) ∧
        (t.cap ≤ t.entries.length → cmdHold m = true → ∃ u : State, exec (.push m) s = .next u ∧ u.agenda = s.agenda ∧
          aget (u.die die).tasks q = some { t with held := t.held ++ [s.settlePush t.job m] }) ∧
        (t.cap ≤ t.entries.length → cmdHold m = false → gives (.push m) (s.answer m 7)) ∧
        gives (.len m) (s.answer m 0 [.ofNat 64 t.entries.length]) ∧
        (t.entries = [] → gives (.pop m) (s.answer m 8)) ∧
        (∀ e task r, t.entries = (e, task) :: r → t.held = [] →
          (cmdFwd m = false → ∃ u : State, gives (.pop m) (u.answerEntry m (s.loadEntry t.job e task) task) ∧ u.agenda = s.agenda ∧
            aget (u.die die).tasks q = some { t with entries := r }) ∧
          (cmdFwd m = true → task = true → ∃ u : State, exec (.pop m) s = .next u ∧ aget (u.die die).tasks q = some { t with entries := r } ∧
            u.agenda = s.agenda ++ [route { s.loadEntry t.job e task with src := die, tag := 0 }, route (answerTo m 0 [] false)]) ∧
          (cmdFwd m = true → task = false → gives (.pop m) (s.answer m 11))) ∧
        (∀ e task r h hs, t.entries = (e, task) :: r → t.held = h :: hs → t.entries.length ≤ t.cap → cmdFwd m = false →
          ∃ u : State, gives (.pop m) (u.answerEntry m (s.loadEntry t.job e task) task) ∧ u.agenda = s.agenda ++ [route (answerTo h 0 [1] false)] ∧
            aget (u.die die).tasks q = some { t with entries := r ++ [s.storeEntry t.job h], held := hs })) ∧
      (¬ behind → s.fromSystem m = true → aget (s.die die).tasks q = none → 0 < cmdCap m → cmdCap m ≤ 2 ^ 20 →
        (cmdCap m ≤ (s.die die).room → ∃ u : State, gives (.create m) (u.answer m 0 [1]) ∧
          aget (u.die die).tasks q = some { job := cmdJob m % 2 ^ 12, cap := cmdCap m, entries := [], held := [] } ∧
          (u.die die).reserved = (s.die die).reserved + cmdCap m) ∧
        ((s.die die).room < cmdCap m → gives (.create m) (s.answer m 9))) ∧
      (∀ t, s.fromSystem m = true → aget (s.die die).tasks q = some t → ¬ waits → t.held = [] →
        ∃ u : State, gives (.destroy m) (u.answer m 0 [1]) ∧ aget (u.die die).tasks q = none ∧ (u.die die).reserved = (s.die die).reserved - t.cap) ∧
      (¬ behind → (aget (s.die die).tasks q).isSome = true ∨ cmdCap m = 0 ∨ 2 ^ 20 < cmdCap m → refused (.create m)) ∧
      (¬ waits → aget (s.die die).tasks q = none → refused (.destroy m)) ∧
      (¬ behind → s.fromSystem m = false → refused (.create m) ∧ refused (.destroy m)))

open Sys2Proof Sys2Proof.Machine in
/-- R123, R284 to R287, R290, R300 to R302: a command that arrives is acknowledged and joins the queue of its context. At the head of it, CTX writes the format of its slot; REL of the holder ends the lease; LEASE waits in its slot, or with .nb is refused while the array is leased; a grant goes to the next slot that waits, whose context then holds the hasp; a granted chain runs for its slot, or raises the chain notice where a record of it is invalid; 4,096 clk without a command of the holder end the lease and the hasp is lost. What the array takes up next is a record of the chain that it is leased for, or a head of a queue that needs no hasp or is the holder's, and with nothing to take up it grants the next lease; while messages of a command are not accepted it takes up nothing. Where the spec leaves a point of it open, it rests on the choices of logs 52 and 60. -/
def Obligations.LeaseEvents : Prop :=
  (∀ (s : State) (m : Packet),
    let n := destOf m
    let c := s.cluster n
    let k := slotOf m.src
    (m.counted = false → isChainRecord m = false →
      ∀ i ∈ [Instr.leaseRequest m, .arrayCtx m, .arrayRel m, .arrayPanel m, .arrayZero m, .arrayRun m, .arrayDrain m, .arrayRaw m, .arraySort m],
        ∃ t : State, exec i s = .next t ∧ (t.cluster n).queue (mxQueue m) = c.queue (mxQueue m) ++ [{ m with counted := true }] ∧
          route (answerTo m 0 [] false) ∈ t.agenda ∧ (∀ j, j ≠ mxQueue m → (t.cluster n).queue j = c.queue j) ∧ (t.cluster n).cells = c.cells ∧ t.mem = s.mem) ∧
    (m.counted = true → c.finishing.isSome = true → exec (.arrayCtx m) s = .next s ∧ exec (.arrayRel m) s = .next s ∧ exec (.leaseRequest m) s = .next s) ∧
    (m.counted = true → c.heads m = true → isChainRecord m = false → c.finishing = none →
      (∃ t : State, exec (.arrayCtx m) s = .next t ∧ ((t.cluster n).slot k).format = .ofNat 64 ((mxA m).toNat % 2 ^ 9) ∧ (t.cluster n).lease = c.lease ∧
        (t.cluster n).queue (mxQueue m) = (c.queue (mxQueue m)).drop 1) ∧
      (∃ t : State, exec (.arrayRel m) s = .next t ∧ (t.cluster n).cells = c.cells ∧ (t.cluster n).queue (mxQueue m) = (c.queue (mxQueue m)).drop 1 ∧
        (t.cluster n).lease = (if c.lease.any (fun l => l.holds m) then none else c.lease)) ∧
      (c.waits m = false → mxSub m % 2 = 0 → ∃ t : State, exec (.leaseRequest m) s = .next t ∧
        ((t.cluster n).slot k).waiting = (c.slot k).waiting ++ [.lease m] ∧ (t.cluster n).lease = c.lease) ∧
      (c.waits m = false → mxSub m % 2 = 1 → c.lease.isSome = true → m.ctx < 11 → s.sameInvocation m.src m.ctx m.inv = true → (s.ctx m.src m.ctx).hasp = .requested →
        ∃ t : State, exec (.leaseRequest m) s = .next t ∧ (t.ctx m.src m.ctx).hasp = .none ∧ (t.cluster n).lease = c.lease ∧
          (t.cluster n).queue (mxQueue m) = (c.queue (mxQueue m)).drop 1))) ∧
  (∀ (s : State) (n : Nat),
    let c := s.cluster n
    (∀ m, c.nextCommand = some m → (∃ l, c.lease = some l ∧ l.chain.head? = some m) ∨
      ((∃ e ∈ c.queues, e.2.head? = some m) ∧ (0x83 ≤ mxCode m → ∃ l, c.lease = some l ∧ l.holder = some (m.src, m.ctx)) ∧ (mxCode m = 0x80 → c.waits m = false))) ∧
    (c.finishing.isSome = true → s.pump n = s) ∧
    (c.finishing = none →
      (∀ m, c.nextCommand = some m → s.pump n = { s with agenda := route { m with counted := true } :: s.agenda }) ∧
      (c.nextCommand = none → c.lease = none → (∃ x ∈ c.slots, x.waiting ≠ []) → s.pump n = { s with agenda := .leaseGrant n :: s.agenda }) ∧
      (c.nextCommand = none → c.lease.isSome = true ∨ (∀ x ∈ c.slots, x.waiting = []) → s.pump n = s))) ∧
  (∀ (s : State) (n k : Nat),
    let c := s.cluster n
    (c.lease.isSome = true → exec (.leaseGrant n) s = .next s) ∧
    (∀ m r, c.lease = none → c.grantSlot = some k → (c.slot k).waiting = .lease m :: r → destOf m = n → m.ctx < 11 →
      s.sameInvocation m.src m.ctx m.inv = true → (s.ctx m.src m.ctx).hasp = .requested →
      ∃ (t : State) (l : MxLease), exec (.leaseGrant n) s = .next t ∧ (t.cluster n).lease = some l ∧ l.slot = k ∧ l.holder = some (m.src, m.ctx) ∧ l.count = 0 ∧
        l.panelA = none ∧ l.panelB = none ∧ ((t.cluster n).slot k).waiting = r ∧ (t.cluster n).last = k ∧
        (t.ctx m.src m.ctx).hasp = .held ∧ (t.ctx m.src m.ctx).haspCnt = 0) ∧
    (∀ rs bad r, c.lease = none → c.grantSlot = some k → (c.slot k).waiting = .chain rs bad :: r →
      (s.chainFault (coreOfSlot n k) rs bad = none → ∃ (t : State) (l : MxLease), exec (.leaseGrant n) s = .next t ∧ (t.cluster n).lease = some l ∧ l.slot = k ∧
        l.holder = none ∧ l.chain = rs ∧ ((t.cluster n).slot k).waiting = r) ∧
      (∀ i, s.chainFault (coreOfSlot n k) rs bad = some i → (s.core (coreOfSlot n k)).sysFull (coreOfSlot n k) = false → ∃ t : State, exec (.leaseGrant n) s = .next t ∧
        (t.cluster n).lease = none ∧ ((t.cluster n).slot k).waiting = r ∧
        (t.core (coreOfSlot n k)).sysq = (s.core (coreOfSlot n k)).sysq ++ [.notice 0x4B 15 0 (.ofNat 64 (i % 64)) []]))) ∧
  (∀ (s : State) (n name core k : Nat) (l : MxLease), (s.cluster n).lease = some l → l.name = name → l.holder = some (core, k) → k < 11 →
    (s.cluster n).queue (16 * core + k) = [] →
    (s.clk < l.touched + 4096 → exec (.leaseIdleTimeout n name) s = .next (s.after (l.touched + 4096 - s.clk) (.leaseIdleTimeout n name))) ∧
    (l.touched + 4096 ≤ s.clk → s.sameInvocation core k l.inv = true → (s.ctx core k).hasp = .held →
      ∃ t : State, exec (.leaseIdleTimeout n name) s = .next t ∧ (t.cluster n).lease = none ∧ (t.ctx core k).hasp = .lost))

namespace Sys2Proof.Machine

/-- A counted command of the lease's holder is at the head of its queue, or a record is the next of the lease's chain (R285, R297). -/
abbrev AtArray (s : State) (m : Packet) (l : MxLease) : Prop :=
  m.counted = true ∧ (s.cluster (destOf m)).lease = some l ∧ (s.cluster (destOf m)).finishing = none ∧
  ((isChainRecord m = false ∧ (s.cluster (destOf m)).heads m = true ∧ l.holder = some (m.src, m.ctx)) ∨
   (isChainRecord m = true ∧ l.holder = none ∧ l.chain.head? = some m))

/-- The lease after a counted command that left it as l (R286): over after the 64th command of a holder and after the last record of a chain. -/
def leaseAfter (l : MxLease) (chain : Bool) (clk : Nat) : Option MxLease :=
  if chain then (if l.chain.length ≤ 1 then none else some { l with chain := l.chain.drop 1, count := l.count + 1, touched := clk })
  else if 63 ≤ l.count then none else some { l with count := l.count + 1, touched := clk }

/-- A cell lies in a window. -/
def inWindow (w : Word) (r c : Nat) : Prop := winRow w ≤ r ∧ r < winRow w + winRows w ∧ winCol w ≤ c ∧ c < winCol w + winCols w

end Sys2Proof.Machine

open Sys2Proof Sys2Proof.Machine in
/-- R282, R286, R291 to R296, R299, R303 to R307: a counted command of a lease's holder, or a record of its chain, is performed and counts, and the lease ends with the 64th of a holder and with the last of a chain. A panel command sets its panel. ZERO clears the cells of its window and no other. RUN replaces each cell of its window by the block sum over its row of panel A and its column of panel B; an invalid format, a missing panel or a panel that passes its store changes no cell, answers status 1 and is reported with cause 3 or 2. A drain writes the ACC of each cell of its window, 32 bits each or rounded to bf16, row by row into C, or sends them in messages, changes no cell, and the flags of its conversions join the slot's. RAW answers a cell, or the format and flags of its slot, which MXSTAT then shows. SORT sends its first K pairs in order and clears every cell. A command that sends messages is performed, and answered, once all of them are accepted. Where the spec leaves a point of it open, it rests on the choices of logs 57, 60, 61 and 111. -/
def Obligations.ArrayEvents : Prop :=
  (∀ (s : State) (m : Packet), m.wantAck = false → nodeIsEnd (destOf m) = true → nodeClass (destOf m) = 7 →
    let c := s.cluster (destOf m)
    (c.finishing = none → exec (.acknowledgement m) s = .next s) ∧
    (c.finishing.isSome = true → 1 < c.awaited → ∃ t : State, exec (.acknowledgement m) s = .next t ∧ (t.cluster (destOf m)).awaited = c.awaited - 1 ∧
      (t.cluster (destOf m)).finishing = c.finishing ∧ t.agenda = s.agenda) ∧
    (∀ x pay, c.finishing = some (x, pay) → c.awaited ≤ 1 → destOf x = destOf m → ∃ t : State, exec (.acknowledgement m) s = .next t ∧
      (t.cluster (destOf m)).finishing = none ∧ (mxReplies x = true → ∃ r, route r ∈ t.agenda ∧ hidxOf r = mxSel x ∧ r.tag = x.tag))) ∧
  ∀ (s : State) (m : Packet) (l : MxLease), AtArray s m l →
    let n := destOf m
    let c := s.cluster n
    let w := mxA m
    let b := mxB m
    let counts (t : State) (l' : MxLease) : Prop := (t.cluster n).lease = leaseAfter l' (isChainRecord m) s.clk ∧
      (t.cluster n).queue (mxQueue m) = (if isChainRecord m then c.queue (mxQueue m) else (c.queue (mxQueue m)).drop 1)
    (∃ t : State, exec (.arrayPanel m) s = .next t ∧ (t.cluster n).cells = c.cells ∧ t.mem = s.mem ∧
      counts t (if mxCode m = 0x83 then { l with panelA := some w } else { l with panelB := some w })) ∧
    (winCol w + winCols w ≤ 256 → ∃ t : State, exec (.arrayZero m) s = .next t ∧ counts t l ∧ t.mem = s.mem ∧
      ∀ r k, k < 256 → (inWindow w r k → (t.cluster n).cell r k = (0, 0)) ∧ (¬ inWindow w r k → (t.cluster n).cell r k = c.cell r k)) ∧
    (let f := mxFormat (c.slot l.slot).format
     let k := b.toNat % 2 ^ 16 + 1
     let past (w : Word) (width stride : Nat) (int : Bool) (top : Nat) : Prop :=
       let lines := (k - 1) * stride + top
       0x80000 < w.toNat % 2 ^ 20 + lines * 4 * width ∨ (int = false ∧ 0x80000 < w.toNat / 2 ^ 27 % 2 ^ 20 + lines)
     let range : Prop := l.panelA = none ∨ l.panelB = none ∨ ∃ pa pb, l.panelA = some pa ∧ l.panelB = some pb ∧
       (past pa f.wa 128 f.intA (winRow w + winRows w) ∨ past pb f.wb 256 f.intB (winCol w + winCols w))
     (f.invalid = true ∨ range →
       ∃ t : State, exec (.arrayRun m) s = .next t ∧ counts t l ∧ (t.cluster n).cells = c.cells ∧ t.mem = s.mem ∧
         (mxReplies m = true → ∃ r, route r ∈ t.agenda ∧ hidxOf r = mxSel m ∧ r.payload.head? = some 1) ∧
         (l.holder = some (m.src, m.ctx) → m.ctx < 11 → c.parity = [] → s.sameInvocation m.src m.ctx l.inv = true →
           (s.core (coreOfSlot n l.slot)).reportPending = false →
           (t.ctx m.src m.ctx).report = some (.ofNat 64 ((if f.invalid then 3 else 2) + mxCode m % 2 ^ 8 * 2 ^ 36)))) ∧
     (∀ pa pb, f.invalid = false → l.panelA = some pa → l.panelB = some pb → winCol w + winCols w ≤ 256 →
       ¬ past pa f.wa 128 f.intA (winRow w + winRows w) → ¬ past pb f.wb 256 f.intB (winCol w + winCols w) →
       let row (r : Nat) := (List.range k).map (fun x => s.panelBlock (panelQuad (coreOfSlot n 0) pa) pa f.wa 128 f.intA x r)
       let col (q : Nat) := (List.range k).map (fun x => s.panelBlock (panelQuad (coreOfSlot n 0) pb) pb f.wb 256 f.intB x q)
       ∃ t : State, exec (.arrayRun m) s = .next t ∧ counts t l ∧ t.mem = s.mem ∧
         ∀ r q, q < 256 →
           (inWindow w r q → (t.cluster n).cell r q = ((runCell f (c.cell r q) (row r) (col q)).acc, (runCell f (c.cell r q) (row r) (col q)).kb)) ∧
           (¬ inWindow w r q → (t.cluster n).cell r q = c.cell r q))) ∧
    (let half := mxSub m % 2 == 1
     let z := if half then 2 else 4
     let conv (acc : Nat) : FpResult := convertFloat f32 bf16 ⟨0, false⟩ acc
     let elem (r q : Nat) : List Byte := if half then bytesOfNat 2 (conv (c.cell r q).1).1 else bytesOfNat 4 (c.cell r q).1
     let flagged (t : State) : Prop := l.slot < 16 → ∀ k, ((t.cluster n).slot l.slot).flags.getLsbD k = true ↔
       (c.slot l.slot).flags.getLsbD k = true ∨ (half = true ∧ ∃ i j, i < winRows w ∧ j < winCols w ∧ (conv (c.cell (winRow w + i) (winCol w + j)).1).2.getLsbD k = true)
     (mxSub m < 2 →
      let base := localPhys (clusterCore (nodeModule n) (arrayX n) (arrayY n) (b.toNat / 2 ^ 22 % 4) 0) (0x300000 + b.toNat % 2 ^ 20)
      let stride := b.toNat / 2 ^ 24 % 2 ^ 16
      Memory.wf s.mem = true → z * winCols w ≤ stride → anyPoison s base ((winRows w - 1) * stride + z * winCols w) = false →
      ∃ t : State, exec (.arrayDrain m) s = .next t ∧ counts t l ∧ (t.cluster n).cells = c.cells ∧ flagged t ∧
        (∀ i j, i < winRows w → j < winCols w → Memory.readN t.mem (base + i * stride + z * j) z = elem (winRow w + i) (winCol w + j)) ∧
        ∀ a, (∀ i, i < winRows w → a < base + i * stride ∨ base + i * stride + z * winCols w ≤ a) → Memory.read t.mem a = Memory.read s.mem a) ∧
     (let g := winCols w / (if half then 128 else 64)
      2 ≤ mxSub m → mxSub m < 4 → ∃ t : State, exec (.arrayDrain m) s = .next t ∧ counts t l ∧ (t.cluster n).cells = c.cells ∧ flagged t ∧ t.mem = s.mem ∧
      (0 < g → (t.cluster n).finishing.isSome = true ∧ (t.cluster n).awaited = winRows w * g) ∧
      ∀ i x, i < winRows w → x < g →
        route (s.arrayMessage n l.slot (jobOf m) b (mxC m) (i * g + x) 8
          ((List.range (if half then 128 else 64)).flatMap (fun j => elem (winRow w + i) (winCol w + (if half then 128 else 64) * x + j)))) ∈ t.agenda)) ∧
    (∃ t : State, exec (.arrayRaw m) s = .next t ∧ counts t l ∧ (t.cluster n).cells = c.cells ∧ t.mem = s.mem ∧
      (mxSub m = 0 → mxReplies m = true → ∃ r, route r ∈ t.agenda ∧ destOf r = m.src % 2 ^ 22 ∧ hidxOf r = mxSel m ∧
        r.payload.head? = some (.ofNat 64 ((c.cell (w.toNat % 2 ^ 7) (w.toNat / 2 ^ 8 % 2 ^ 8)).1 + (c.cell (w.toNat % 2 ^ 7) (w.toNat / 2 ^ 8 % 2 ^ 8)).2 * 2 ^ 32))) ∧
      (mxSub m = 1 → mxReplies m = true → ∃ r, route r ∈ t.agenda ∧ destOf r = m.src % 2 ^ 22 ∧ hidxOf r = mxSel m ∧
        r.payload.head? = some (.ofNat 64 ((c.slot l.slot).format.toNat % 2 ^ 9 + (c.slot l.slot).flags.toNat * 2 ^ 9))) ∧
      (mxSub m = 1 → mxReplies m = false → l.holder = some (m.src, m.ctx) → (t.core m.src).mxflags = (c.slot l.slot).flags)) ∧
    (let quad := clusterCore (nodeModule n) (arrayX n) (arrayY n) (w.toNat / 2 ^ 22 % 4) 0
     let keys := (List.range (w.toNat / 2 ^ 24 % 2 ^ 8 + 1)).map
       (s.sortKey (localPhys quad (w.toNat / 2 ^ 20 % 4 * 0x100000 + w.toNat % 2 ^ 20)) (mxSub m) (w.toNat / 2 ^ 24 % 2 ^ 8 + 1) (w.toNat / 2 ^ 40 % 2 ^ 16))
     let pairs := ((sortBy SortKey.before (keys.map (·.1))).take (w.toNat / 2 ^ 32 % 2 ^ 8 + 1)).map (fun k => (.ofNat 64 (k.bits + k.index * 2 ^ 32) : Word))
     ∃ t : State, exec (.arraySort m) s = .next t ∧ counts t l ∧ (t.cluster n).cells = [] ∧ t.mem = s.mem ∧
       (t.cluster n).finishing.isSome = true ∧ (t.cluster n).awaited = (w.toNat / 2 ^ 32 % 2 ^ 8 + 1 + 31) / 32 ∧
       ∀ j, j < (w.toNat / 2 ^ 32 % 2 ^ 8 + 1 + 31) / 32 →
         let part := (pairs.drop (32 * j)).take 32
         route (s.arrayMessage n l.slot (jobOf m) b (mxC m) j ((part.length + 3) / 4) (bytesOfWords part)) ∈ t.agenda)

/-! ## Steps of the device: the memory cores -/

namespace Sys2Proof.Machine

/-- The condition of Table 3-3 with a reason holds of the words of a descriptor (R54 to R56, R60); that of reason 4 is about a descriptor that meets reason 1, and reason 7 asks for the direction of its COMP (log 79). -/
def descriptorOk (ws : List Word) (reason : Nat) : Prop :=
  let f (k hi lo : Nat) : Nat := cutBits (ws.getD k 0) hi lo
  let store := f 0 1 0 == 1
  let demand := f 0 2 2 == 1
  let es := 2 ^ f 0 4 3
  let ndim := f 0 6 5
  let comp := f 0 8 7
  let gather := f 0 9 9 == 1
  let dstore := f 0 17 16
  let dist := f 0 19 18
  let n (k : Nat) : Nat := if k ≤ ndim then f (3 + k) 19 0 + 1 else 1
  let stride (k : Nat) : Int := if k ≤ ndim then (BitVec.ofNat 40 (f (3 + k) 59 20)).toInt else 0
  let t0 := f 7 11 0 + 1
  let t1 := f 7 23 12 + 1
  let bytes := t0 * t1 * es
  let quads := (f 9 19 13 + 1) * (f 9 25 20 + 1)
  let tiles := if gather then n 2 else n 0 / t0 * (n 1 / t1) * n 2 * n 3
  let last := if dist = 2 then (tiles - 1) / quads else tiles - 1
  match reason with
  | 1 => f 0 1 0 ≤ 1 ∧ comp ≠ 3 ∧ dstore ≠ 0 ∧ dist ≠ 3 ∧
      (∀ e ∈ [(0, 20), (1, 56), (2, 48), (3, 60), (4, 60), (5, 60), (6, 60), (7, 24), (8, 40), (9, 26), (10, 48), (11, 32), (12, 48), (13, 32), (14, 0), (15, 0)],
        (ws.getD e.1 0).toNat / 2 ^ e.2 = 0) ∧ ∀ k, ndim < k → k < 4 → ws.getD (3 + k) 0 = 0
  | 2 => f 2 47 0 % es = 0 ∧ ∀ k < 4, stride k % (es : Int) = 0
  | 3 => n 0 % t0 = 0 ∧ n 1 % t1 = 0 ∧ (ndim = 0 → t1 = 1) ∧ bytes % 32 = 0 ∧ bytes ≤ 65536
  | 4 => store = true → dstore ≠ 1
  | 5 => f 8 19 0 % 32 = 0 ∧ f 8 39 20 % 32 = 0 ∧ f 8 19 0 + last * f 8 39 20 + bytes ≤ storeSize dstore ∧
      (dist = 0 → quads = 1) ∧ (dist = 1 → store = false)
  | 7 => comp ≠ 0 → ndim = 0 ∧ stride 0 = es ∧ n 0 % 128 = 0 ∧ bytes % (128 * es) = 0 ∧ gather = false ∧ demand = false ∧ (store = true ↔ comp = 2)
  | 8 => gather = true → store = false ∧ ndim = 2 ∧ t0 = n 0 ∧ t1 = n 1 ∧ comp = 0
  | 9 => demand = true → dist = 0 ∧ gather = false
  | _ => True

end Sys2Proof.Machine

open Sys2Proof Sys2Proof.Machine in
/-- R51, R52, R56, R61, R64, R65, R71, R352, R353: at a memory core that is not paused, GO takes a free slot, the lowest (log 112), for a valid descriptor and answers its handle, answers status 2 with the reason for an invalid one: 6 for a poisoned beat before any other, 1 for a wrong layout, and else the first condition of Table 3-3 that fails, in the order 1, 2, 3, 5, 4, 7, 8, 9 (log 79), waits where no slot is free, and answers status 1 when 32 wait. EXT raises LIMIT and lets a stream that overflow parked go on. STOP lets the writes under way end, and then answers the tiles done, sets the key and frees the slot. RESUME lets a parked stream go on, and answers status 1 for another. PULL asks for one more tile, or answers status 1 and sets its key. A wrong layout answers status 2 with detail 1, a stale handle the command's own status. A paused memory core performs no command until it goes on. A PULL of a stream without demand mode is answered as one past the end (log 98). Where the spec leaves a point of it open, it rests on the choices of logs 79, 80, 96, 98 and 112. -/
def Obligations.StreamCommands : Prop :=
  (∀ (s : State) (m : Packet), (s.memCore (destOf m)).paused = true → ∀ i ∈ [Instr.go m, .ext m, .stop m, .resume m, .pull m, .invalidStreamCommand m],
    ∃ t : State, exec i s = .next t ∧ (t.memCore (destOf m)).held = (s.memCore (destOf m)).held ++ [m] ∧
      (t.memCore (destOf m)).slots = (s.memCore (destOf m)).slots ∧ t.agenda = s.agenda ∧ t.mem = s.mem) ∧
  ∀ (s : State) (m : Packet), (s.memCore (destOf m)).paused = false →
    let n := destOf m
    let c := s.memCore n
    let d : Desc := fit 16 0 (m.payload.drop 4)
    let reply (status value detail : Nat) := route (answerTo m 0 [engineWord value status detail] false)
    ((∀ w : Desc, w.fault = none ↔ ∀ r ∈ [1, 2, 3, 5, 4, 7, 8, 9], descriptorOk w r) ∧
     (∀ (w : Desc) (l1 l2 : List Nat) (r : Nat), [1, 2, 3, 5, 4, 7, 8, 9] = l1 ++ r :: l2 → (∀ q ∈ l1, descriptorOk w q) → ¬ descriptorOk w r → w.fault = some r)) ∧
    (c.waiting = [] → (∃ k, k < 16 ∧ c.stream k = none) →
      ((∃ b ∈ m.poison, b = true) → exec (.go m) s = .next (s.streamReply m 2 0 6)) ∧
      ((∀ b ∈ m.poison, b = false) → beatsOf m ≠ 5 ∨ m.payload.take 4 ≠ [1, 0, 0, 0] → exec (.go m) s = .next (s.streamReply m 2 0 1))) ∧
    (c.waiting = [] → m.poison.any (fun b => b) = false → beatsOf m = 5 → m.payload.take 4 = [1, 0, 0, 0] → ∀ k, (List.range 16).find? (fun k => (c.stream k).isNone) = some k →
      (d.fault = none → ∃ t : State, exec (.go m) s = .next t ∧ (t.memCore n).stream k = some { desc := d, limit := d.limit } ∧
        (t.memCore n).gen k = (c.gen k + 1) % 64 ∧ streamHandle n k ((t.memCore n).gen k) = n + k * 2 ^ 22 + (c.gen k + 1) % 64 * 2 ^ 26 ∧
        (∀ j, j ≠ k → (t.memCore n).stream j = c.stream j) ∧ t.agenda = s.agenda ++ [reply 0 (streamHandle n k ((c.gen k + 1) % 64)) 0] ∧ t.mem = s.mem) ∧
      (∀ r, d.fault = some r → exec (.go m) s = .next (s.streamReply m 2 0 r))) ∧
    ((∀ k, k < 16 → (c.stream k).isSome = true) → c.waiting.length < 32 →
      ∃ t : State, exec (.go m) s = .next t ∧ (t.memCore n).waiting = c.waiting ++ [m] ∧ (t.memCore n).slots = c.slots ∧ t.agenda = s.agenda) ∧
    (32 ≤ c.waiting.length → exec (.go m) s = .next (s.streamReply m 1 0 0)) ∧
    exec (.invalidStreamCommand m) s = .next (s.streamReply m 2 0 1) ∧
    (commandOk m true = false → ∀ i ∈ [Instr.ext m, .pull m, .stop m, .resume m], exec i s = .next (s.streamReply m 2 0 1)) ∧
    (commandOk m false = true → s.handleSlot m = none →
      (∀ i ∈ [Instr.ext m, .stop m], exec i s = .next (s.streamReply m 1 0 0)) ∧ ∀ i ∈ [Instr.resume m, .pull m], exec i s = .next (s.streamReply m 2 0 0)) ∧
    (∀ k x, s.handleSlot m = some (k, x) →
      (commandOk m true = true → ∃ t : State, exec (.ext m) s = .next t ∧ t.agenda = s.agenda ++ [reply 0 0 0] ∧ t.mem = s.mem ∧
        (t.memCore n).stream k = some { x with
          limit := min 0xFFFFFFFF (x.limit + fieldOf (m.payload.getD 1 0) 31 0)
          status := if x.status = .parked 5 then .running else x.status }) ∧
      (commandOk m false = true → (∃ w r, x.writes = w :: r ∧ s.pausedAt w.pa = true) → ∃ t : State, exec (.stop m) s = .next t ∧
        (t.memCore n).stream k = some { x with stops := x.stops ++ [m] } ∧ t.agenda = s.agenda ∧ t.mem = s.mem) ∧
      (commandOk m false = true → c.waiting = [] → x.pulls = [] → x.stops = [] → (∀ w ∈ x.writes, s.pausedAt w.pa = false) → ∃ t : State, exec (.stop m) s = .next t ∧ (t.memCore n).stream k = none ∧
        (∀ j, j ≠ k → (t.memCore n).stream j = c.stream j) ∧
        t.agenda = s.agenda ++ [reply 0 (x.done + (x.writes.filter (fun w => w.last)).length) 0, route (keySetTo (Desc.req x.desc) n (Desc.key x.desc))]) ∧
      (commandOk m false = true →
        (∀ r, x.status = .parked r → ∃ t : State, exec (.resume m) s = .next t ∧ t.agenda = s.agenda ++ [reply 0 0 0] ∧
          (t.memCore n).stream k = some { x with status := .running }) ∧
        ((∀ r, x.status ≠ .parked r) → exec (.resume m) s = .next (s.streamReply m 1 0 0))) ∧
      (commandOk m true = true →
        let key := fieldOf (m.payload.getD 1 0) 5 0
        (x.pulled < x.tiles → Desc.demand x.desc = true → ∃ t : State, exec (.pull m) s = .next t ∧ t.agenda = s.agenda ++ [reply 0 0 0] ∧
          (t.memCore n).stream k = some { x with pulled := x.pulled + 1, pulls := x.pulls ++ [(m.src, key)] }) ∧
        (x.tiles ≤ x.pulled ∨ Desc.demand x.desc = false → ∃ t : State, exec (.pull m) s = .next t ∧
          t.agenda = s.agenda ++ [reply 1 0 0, route (pullSetTo m.src n key)] ∧ t.memCores = s.memCores)))

open Sys2Proof Sys2Proof.Machine in
/-- R49, R50, R54, R55, R57, R58, R60, R63, R65, R71, R72, R92, R102, R106, R353, R473: a memory core issues the next request of the first slot after the last one served that may, while its 64 miss entries and the 64 requests of a load's run-ahead last, and one request of a stream in its turn: a load reads contiguous elements, a store reads them at its source quad and puts their write under way; a translation that is not held walks, one to a paused stack is tried again, and one that faults parks the stream with its record. A gather reads its table first, a line to a request; a failed check of it parks the stream, and it is not read again; an entry that it selects past n[2] parks it with the gather-range fault. A decompressing load reads its table entry and its chunk, a line to a request, and takes the 128 elements, or parks with the chunk-format fault (R62); a compressing store forms the encoding of a chunk and writes it and its table entry, a line to a request, or, past LIMIT, writes the marker and parks (R61). A stream without tiles is complete: its key is set and its slot free. A beat of a tile is written at every quad of the tile, as soon as it has arrived; the last beat of a demand tile serves a PULL, that of the last tile completes the stream. A storer's writes are performed in order, and poison goes with them. STRM.GO's command goes again when it was turned away. Where the spec leaves a point of it open, it rests on the choices of logs 16, 82, 96, 97, 98, 107 and 108. -/
def Obligations.StreamWork : Prop :=
  (∀ (s : State) (n : Nat), let c := s.memCore n
    let may (k : Nat) : Prop := ∃ y, c.stream k = some y ∧ y.mayIssue = true ∧ c.inFlight < 64
    let turn (k : Nat) : Nat := (k + 31 - c.last % 16) % 16
    (c.paused = true ∨ c.nextIssue = none → exec (.streamRequestIssue n) s = .next s) ∧
    (∀ k, c.nextIssue = some k ↔ may k ∧ ∀ j, may j → turn k ≤ turn j) ∧ (c.nextIssue = none ↔ ∀ k, ¬ may k) ∧
    (∀ y : Stream, y.mayIssue = true ↔ y.status = .running ∧ y.stops = [] ∧ (y.marked = true → y.staged ≠ [] ∨ y.writes = []) ∧
      ((Desc.gather y.desc = true ∧ y.sel = none) ∨ y.tiles = 0 ∨
        (y.tile < y.tiles ∧ (Desc.store y.desc = true ∨ y.ahead.length + y.fetched.length < 64) ∧
          (Desc.demand y.desc = true → y.tile < y.pulled + (if Desc.store y.desc then 0 else 2))))) ∧
    (∀ (x : Stream) (va len : Nat),
      (∀ l, x.look va len = .ok l ↔ l.length = len ∧ ∀ i, i < len → ∃ line, aget x.fetched ((va + i) % 2 ^ 48 / 64) = some line ∧
        l[i]? = some (line.getD ((va + i) % 2 ^ 48 % 64) (0, false))) ∧
      (∀ a, x.look va len = .error a ↔ ∃ i, i < len ∧ a = (va + i) % 2 ^ 48 ∧ aget x.fetched (a / 64) = none ∧
        ∀ j, j < i → (aget x.fetched ((va + j) % 2 ^ 48 / 64)).isSome = true)) ∧
    (∀ (x : Stream) (t e : Nat),
      let d : Desc := x.desc
      let na := d.count 0 / d.t0
      let nb := d.count 1 / d.t1
      let at_ (a b c f : Nat) : Nat := (((d.base : Int) + ((a * d.t0 + e % d.t0 : Nat) : Int) * d.stride 0 + ((b * d.t1 + e / d.t0 : Nat) : Int) * d.stride 1 +
        (c : Int) * d.stride 2 + (f : Int) * d.stride 3) % 2 ^ 48).toNat
      (x.sel = none → x.elemVa t e = at_ (t % na) (t / na % nb) (t / (na * nb) % d.count 2) (t / (na * nb * d.count 2))) ∧
      (∀ l row, x.sel = some (l, row) → x.elemVa t e = at_ 0 0 (l.getD t 0) 0)) ∧
    (∀ k x, c.paused = false → c.nextIssue = some k → c.stream k = some x →
      let d : Desc := x.desc
      let quiet (y : Stream) : Prop := ∃ t : State, exec (.streamRequestIssue n) s = .next t ∧ t.mem = s.mem ∧ t.agenda = s.agenda ∧ (t.memCore n).stream k = some y
      let parks (y : Stream) (f addr elem tile : Nat) : Prop := ∃ (t : State) (r : Packet), exec (.streamRequestIssue n) s = .next t ∧ t.mem = s.mem ∧
        (t.memCore n).stream k = some { y with status := .parked f } ∧ t.agenda = s.agenda ++ [route r] ∧ destOf r = d.flt % 2 ^ 22 ∧ hidxOf r = 0xE5 ∧
        r.payload = [wordOf (streamHandle n k (c.gen k) + f * 2 ^ 32), wordOf addr, wordOf elem, wordOf (tile % 2 ^ 32 + d.job * 2 ^ 32), 0, 0, 0, 0]
      let line (pa : Nat) : List (Byte × Bool) := (List.range 64).map (fun j => (Memory.read s.mem (pa / 64 * 64 + j), isPoisoned s (pa / 64 * 64 + j)))
      let withLine (a pa : Nat) : Stream := { x with fetched := aset x.fetched (a / 64) (line pa) }
      (d.gather = true → x.sel = none →
        (∀ a, x.tableBad = some a → parks { x with fetched := [] } 4 a d.grow 0) ∧
        (x.tableBad = none →
          let ends (y : Stream) : Prop := (∀ b, y.table = .ok (.error b) → parks { y with tableBad := some b, fetched := [] } 4 b d.grow 0) ∧
            (∀ sel, y.table = .ok (.ok sel) → quiet { y with sel := some sel, fetched := [] })
          ends x ∧
          (∀ a, x.table = .error a →
            (∀ pa, s.memTranslate n d.job a .read = .phys pa → ends (withLine a pa) ∧ ∀ b, (withLine a pa).table = .error b → quiet (withLine a pa)) ∧
            (∀ f, s.memTranslate n d.job a .read = .fail f → parks { x with fetched := [] } f a d.grow 0)))) ∧
      (∀ l row, x.sel = some (l, row) → x.tile < l.length → d.count 2 ≤ l.getD x.tile 0 → parks x 4 (row + l.getD x.tile 0) (l.getD x.tile 0) x.tile) ∧
      (d.gather = false → x.sel = none → x.tiles ≠ 0 → d.comp = 1 →
        let ends (y : Stream) : Prop := (y.expand = .ok none → parks { y with fetched := [] } 6 (d.cot + 4 * x.chunk) x.chunk x.tile) ∧
          (∀ es, y.expand = .ok (some es) → (∀ e ∈ es, e.2 = false) → ∃ (t : State) (z : Stream), exec (.streamRequestIssue n) s = .next t ∧ t.mem = s.mem ∧
            t.agenda = s.agenda ∧ (t.memCore n).stream k = some z ∧ z.fetched = [] ∧ z.first = x.first ∧
            (x.elem + 128 < d.tileElems → z.part = x.part ++ es.flatMap (fun e => e.1) ∧ z.elem = x.elem + 128 ∧ z.tile = x.tile ∧ z.ready = x.ready) ∧
            (d.tileElems ≤ x.elem + 128 → z.part = [] ∧ z.elem = 0 ∧ z.tile = x.tile + 1 ∧
              z.ready = x.ready ++ [{ index := x.tile, data := x.part ++ es.flatMap (fun e => e.1), poison := x.bad, next := x.sent }]))
        ends x ∧
        (∀ a, x.expand = .error a →
          (∀ pa, s.memTranslate n d.job a .read = .phys pa → ends (withLine a pa) ∧ ∀ b, (withLine a pa).expand = .error b → quiet (withLine a pa)) ∧
          (∀ f, s.memTranslate n d.job a .read = .fail f → parks { x with fetched := [] } f a (x.elemIndex x.tile x.elem) x.tile))) ∧
      (d.gather = false → x.sel = none → x.tiles ≠ 0 → d.comp = 2 → d.store = true →
        let src := localPhys ((d.tileQuads (nodeModule n) x.tile).headD 0) (d.tileLocal x.tile + x.elem * d.esize)
        let enc := chunkEncoding d.esize (Memory.readN s.mem src (128 * d.esize))
        let entry := d.cot + 4 * x.chunk
        let ends := x.elem + 128 == d.tileElems
        let issues (y : Stream) : Prop := ∀ w r, y.staged = w :: r →
          (∀ pa, s.memTranslate n d.job w.va .write = .phys pa →
            let z := { y with writes := y.writes ++ [{ pa := pa, data := w.data, bad := w.bad, last := w.last }], staged := r }
            quiet (if r = [] ∧ y.marked = false then { z with tile := if ends then y.tile + 1 else y.tile, elem := if ends then 0 else y.elem + 128 } else z)) ∧
          (∀ f, s.memTranslate n d.job w.va .write = .fail f → parks y f w.va (y.elemIndex y.tile y.elem) y.tile)
        (x.staged ≠ [] → issues x) ∧
        (x.staged = [] → anyPoison s src (128 * d.esize) = false →
          (x.off + enc.length ≤ x.limit → issues { x with
            marked := false, off := x.off + enc.length
            staged := stageWrites (d.base + x.off) enc false ++ endsTile (stageWrites entry (bytesOfNat 4 x.off) false) ends }) ∧
          (x.limit < x.off + enc.length →
            (x.marked = false → issues { x with staged := stageWrites entry (bytesOfNat 4 0xFFFFFFFF) false, marked := true }) ∧
            (x.marked = true → parks { x with marked := false } 5 (x.off + enc.length - x.limit) x.chunk x.tile))))) ∧
    (∀ x : Stream,
      let d : Desc := x.desc
      let num (l : List (Byte × Bool)) (i len : Nat) : Nat := numAt (l.map (·.1)) i len
      let ro := d.btab + 8 + 4 * d.grow
      (∀ a, x.look d.btab 8 = .error a → x.table = .error a) ∧
      (∀ h, x.look d.btab 8 = .ok h →
        (num h 4 4 ≠ 0 ∨ num h 0 2 < d.grow → x.table = .ok (.error d.btab)) ∧
        (num h 4 4 = 0 → d.grow ≤ num h 0 2 →
          (∀ a, x.look ro 8 = .error a → x.table = .error a) ∧
          (∀ o, x.look ro 8 = .ok o →
            let r0 := num o 0 4
            let r1 := num o 4 4
            let bad : Prop := r1 < r0 ∨ num h 2 2 + 1 < r1 - r0 ∨ r0 < 8 + 4 * (num h 0 2 + 2)
            (bad → x.table = .ok (.error ro)) ∧
            (¬ bad → (∀ a, x.look (d.btab + r0) (r1 - r0) = .error a → x.table = .error a) ∧
              (∀ fs, x.look (d.btab + r0) (r1 - r0) = .ok fs →
                x.table = .ok (.ok ((List.range (r1 - r0)).filter (fun j => (((fs.map (fun (e : Byte × Bool) => e.1)).getD j 0).toNat &&& d.gmask) == d.gmatch), d.btab + r0))))))) ∧
      (let c := x.chunk
       let last := c + 1 == d.count 0 / 128
       let cot := x.look (d.cot + 4 * c) (if last then 4 else 8)
       (∀ a, cot = .error a → x.expand = .error a) ∧
       (∀ e, cot = .ok e → num e 0 4 = 0xFFFFFFFF → x.expand = .ok none) ∧
       (∀ e, cot = .ok e → num e 0 4 ≠ 0xFFFFFFFF →
         let map := x.look (d.base + num e 0 4) 16
         (∀ a, map = .error a → x.expand = .error a) ∧
         (∀ b, map = .ok b →
           let full (k : Nat) : Bool := (natOfBytes (b.map (·.1))).testBit k
           let rank (k : Nat) : Nat := ((List.range k).filter full).length
           let size := 16 + rank 128 * d.esize
           (last = false → num e 4 4 < num e 0 4 + size → x.expand = .ok none) ∧
           (last = true ∨ num e 0 4 + size ≤ num e 4 4 →
             (∀ a, x.look (d.base + num e 0 4 + 16) (rank 128 * d.esize) = .error a → x.expand = .error a) ∧
             (∀ vs, x.look (d.base + num e 0 4 + 16) (rank 128 * d.esize) = .ok vs → ∃ es, x.expand = .ok (some es) ∧ es.length = 128 ∧
               ∀ k, k < 128 → (es.getD k ([], false)).1 =
                 (if full k then ((vs.drop (rank k * d.esize)).take d.esize).map (·.1) else List.replicate d.esize 0))))))) ∧
    (∀ (es : Nat) (bs : List Byte), es ∈ [1, 2, 4, 8] → bs.length = 128 * es →
      let el (k : Nat) : List Byte := (bs.drop (k * es)).take es
      let full (k : Nat) : Bool := (el k).any (fun b => b != 0)
      let enc := chunkEncoding es bs
      (∀ k, k < 128 → (natOfBytes (enc.take 16)).testBit k = full k) ∧ enc.drop 16 = ((List.range 128).filter full).flatMap el ∧
      enc.length = 16 + ((List.range 128).filter full).length * es) ∧
    (∀ (va : Nat) (bs : List Byte) (bad : Bool),
      (stageWrites va bs bad).flatMap (fun w => w.data) = bs ∧
      ∀ l1 w l2, stageWrites va bs bad = l1 ++ w :: l2 → w.va = (va + (l1.flatMap (fun x => x.data)).length) % 2 ^ 48 ∧ w.va % 64 + w.data.length ≤ 64 ∧
        w.bad = (if bad then List.range w.data.length else []) ∧ w.last = false) ∧
    (∀ k x, c.paused = false → c.nextIssue = some k → c.stream k = some x →
      (Desc.gather x.desc = false ∧ x.sel = none ∧ Desc.comp x.desc = 0) ∨
        (∃ l row, x.sel = some (l, row) ∧ Desc.store x.desc = false ∧ l.getD x.tile 0 < Desc.count x.desc 2) →
      let d : Desc := x.desc
      let va := x.elemVa x.tile x.elem
      let run := x.runFrom x.tile x.elem 64
      let kind : AccessKind := if d.store then .write else .read
      (x.tiles = 0 → x.first = none → c.waiting = [] → ∃ t : State, exec (.streamRequestIssue n) s = .next t ∧ (t.memCore n).stream k = none ∧ (t.memCore n).last = k ∧
        t.agenda = s.agenda ++ [route (keySetTo d.req n d.key)] ∧ t.mem = s.mem) ∧
      (0 < x.tiles →
        (∀ pa, s.memTranslate n d.job va kind = .phys pa →
          (d.store = false → anyPoison s pa (run * d.esize) = false → ∃ (t : State) (y : Stream), exec (.streamRequestIssue n) s = .next t ∧
            (t.memCore n).stream k = some y ∧ (t.memCore n).last = k ∧ t.mem = s.mem ∧ t.agenda = s.agenda ∧
            y.ahead = x.ahead ++ [(x.tile, (x.elem + run) * d.esize)] ∧
            (x.elem + run < d.tileElems → y.part = x.part ++ Memory.readN s.mem pa (run * d.esize) ∧ y.elem = x.elem + run ∧ y.tile = x.tile ∧ y.ready = x.ready) ∧
            (d.tileElems ≤ x.elem + run → y.part = [] ∧ y.elem = 0 ∧ y.tile = x.tile + 1 ∧
              y.ready = x.ready ++ [{ index := x.tile, data := x.part ++ Memory.readN s.mem pa (run * d.esize), poison := x.bad, next := x.sent }])) ∧
          (d.store = true →
            let src := localPhys ((d.tileQuads (nodeModule n) x.tile).headD 0) (d.tileLocal x.tile + x.elem * d.esize)
            anyPoison s src (run * d.esize) = false → ∃ (t : State) (y : Stream), exec (.streamRequestIssue n) s = .next t ∧
              (t.memCore n).stream k = some y ∧ (t.memCore n).last = k ∧ t.mem = s.mem ∧ t.agenda = s.agenda ∧
              y.writes = x.writes ++ [{ pa := pa, data := Memory.readN s.mem src (run * d.esize), bad := [], last := x.elem + run == d.tileElems }])) ∧
        (s.memTranslate n d.job va kind = .walk →
          let w : Walk := ⟨.memCore n k, d.job, wordOf va, 0, s.ptroot d.job, false⟩
          let waits (t : State) : Prop := exec (.streamRequestIssue n) s = .next t ∧ t.mem = s.mem ∧
            (t.memCore n).stream k = some { x with status := .walking va (x.elemIndex x.tile x.elem) x.tile }
          let known : Prop := ∃ m ∈ c.walks.busy ++ c.walks.queue, m.job = w.job ∧ m.va.toNat / 65536 = w.va.toNat / 65536
          (known → ∃ t : State, waits t ∧ t.agenda = s.agenda) ∧
          (¬ known → c.walks.busy = [] → ∃ t : State, waits t ∧ t.agenda = s.agenda ++ [.pageWalkRead w] ∧ (t.memCore n).walks.busy = [⟨w.job, w.va, [w.who]⟩]) ∧
          (¬ known → c.walks.busy ≠ [] → c.walks.queue.length < 64 → ∃ t : State, waits t ∧ t.agenda = s.agenda ∧
            (t.memCore n).walks.queue = c.walks.queue ++ [⟨w.job, w.va, [w.who]⟩]) ∧
          (¬ known → c.walks.busy ≠ [] → 64 ≤ c.walks.queue.length → ∃ t : State, exec (.streamRequestIssue n) s = .next t ∧ t.mem = s.mem ∧
            t.agenda = s.agenda ∧ (t.memCore n).stream k = some x)) ∧
        (s.memTranslate n d.job va kind = .paused → ∃ t : State, exec (.streamRequestIssue n) s = .next t ∧ t.mem = s.mem ∧ t.agenda = s.agenda ∧
          (t.memCore n).stream k = some x) ∧
        (∀ f, s.memTranslate n d.job va kind = .fail f → ∃ (t : State) (r : Packet), exec (.streamRequestIssue n) s = .next t ∧ t.mem = s.mem ∧
          (t.memCore n).stream k = some { x with status := .parked f } ∧ t.agenda = s.agenda ++ [route r] ∧ destOf r = d.flt % 2 ^ 22 ∧ hidxOf r = 0xE5 ∧
          r.payload = [wordOf (streamHandle n k (c.gen k) + f * 2 ^ 32), wordOf va, wordOf (x.elemIndex x.tile x.elem),
            wordOf (x.tile % 2 ^ 32 + d.job * 2 ^ 32), 0, 0, 0, 0])))) ∧
  (∀ x : Stream,
    (∀ b r, x.ready = b :: r → (Desc.demand x.desc = true → b.index < x.pulled) → x.nextBeat = some b) ∧
    (x.ready = [] → (∀ f, x.status ≠ .parked f) → 32 * (x.sent + 1) ≤ x.part.length → (Desc.demand x.desc = true → x.tile < x.pulled) →
      x.nextBeat = some ⟨x.tile, x.part, x.bad, x.sent⟩)) ∧
  (∀ (s : State) (n k : Nat), (s.memCore n).stream k = none ∨ (∃ x, (s.memCore n).stream k = some x ∧ x.nextBeat = none) → exec (.loaderBeatWrite n k) s = .next s) ∧
  (∀ (s : State) (n k : Nat) (x : Stream) (b : StreamTile),
    (s.memCore n).stream k = some x → x.nextBeat = some b → Memory.wf s.mem = true →
    let d : Desc := x.desc
    let la := d.tileLocal b.index + 32 * b.next
    la % 0x100000 + 32 ≤ 0x100000 → 32 * (b.next + 1) ≤ b.data.length → b.poison.contains b.next = false →
    (∀ q ∈ d.tileQuads (nodeModule n) b.index, anyPoison s (localPhys q la) 32 = false) →
    ∃ t : State, exec (.loaderBeatWrite n k) s = .next t ∧
      (∀ q ∈ d.tileQuads (nodeModule n) b.index, Memory.readN t.mem (localPhys q la) 32 = (b.data.drop (32 * b.next)).take 32) ∧
      (∀ a, (∀ q ∈ d.tileQuads (nodeModule n) b.index, a < localPhys q la ∨ localPhys q la + 32 ≤ a) → Memory.read t.mem a = Memory.read s.mem a) ∧
      (x.ready = [] → (t.memCore n).stream k = some { x with ahead := x.delivered b, sent := b.next + 1 } ∧ t.agenda = s.agenda) ∧
      (∀ r, x.ready = b :: r →
        (32 * (b.next + 1) < b.data.length →
          (t.memCore n).stream k = some { x with ahead := x.delivered b, ready := { b with next := b.next + 1 } :: r } ∧ t.agenda = s.agenda) ∧
        (b.data.length ≤ 32 * (b.next + 1) →
          (x.done + 1 ≠ x.tiles →
            (t.memCore n).stream k = some { x with ahead := x.delivered b, ready := r, done := x.done + 1, pulls := x.pulls.drop 1 } ∧
            (d.demand = false → t.agenda = s.agenda) ∧
            (∀ who key l, d.demand = true → x.pulls = (who, key) :: l → t.agenda = s.agenda ++ [route (pullSetTo who n key)])) ∧
          (d.demand = false → x.done + 1 = x.tiles → x.first = none → (s.memCore n).waiting = [] →
            (t.memCore n).stream k = none ∧ t.agenda = s.agenda ++ [route (keySetTo d.req n d.key)])))) ∧
  (∀ (s : State) (n k : Nat) (x : Stream) (w : StreamWrite) (r : List StreamWrite),
    (s.memCore n).stream k = some x → x.writes = w :: r →
    ((s.memCore n).paused = false → s.pausedAt w.pa = true → exec (.storerWrite n k) s = .next s) ∧
    ((s.memCore n).paused = true ∨ s.pausedAt w.pa = false → anyPoison s w.pa w.data.length = false → Memory.wf s.mem = true →
      ∃ t : State, exec (.storerWrite n k) s = .next t ∧ Memory.readN t.mem w.pa w.data.length = w.data ∧
        (∀ i ∈ w.bad, isPoisoned t ((w.pa + i) / 32 * 32) = true) ∧ (w.bad = [] → t.poison = s.poison) ∧
        (∀ a, a < w.pa ∨ w.pa + w.data.length ≤ a → Memory.read t.mem a = Memory.read s.mem a) ∧
        (Desc.store x.desc = true → x.tiles ≠ 0 → x.done + bitNat w.last = x.tiles → r = [] → x.first = none → x.pulls = [] → x.stops = [] → (s.memCore n).waiting = [] →
          (t.memCore n).stream k = none ∧ t.agenda = s.agenda ++ [route (keySetTo (Desc.req x.desc) n (Desc.key x.desc))]) ∧
        (x.stops ≠ [] → r = [] → x.pulls = [] → (s.memCore n).waiting = [] → (t.memCore n).stream k = none ∧
          t.agenda = s.agenda ++ x.stops.map (fun m => route (answerTo m 0 [engineWord (x.done + bitNat w.last) 0 0] false)) ++
            [route (keySetTo (Desc.req x.desc) n (Desc.key x.desc))]) ∧
        (r ≠ [] ∨ x.stops = [] ∧ x.done + bitNat w.last ≠ x.tiles →
          (t.memCore n).stream k = some { x with writes := r, done := x.done + bitNat w.last, pulls := if w.last then x.pulls.drop 1 else x.pulls } ∧
          (w.last = false ∨ x.pulls = [] → t.agenda = s.agenda) ∧
          (∀ who key l, w.last = true → x.pulls = (who, key) :: l → t.agenda = s.agenda ++ [route (pullSetTo who n key)])))) ∧
  (∀ (s : State) (n : Nat) (m : Packet), exec (.strmGoResend n m) s = .next { s with agenda := s.agenda ++ [route m] })

/-! ## Steps of the device: patch, lattice, watchdog and soft errors -/

open Sys2Proof Sys2Proof.Machine in
/-- R332 to R336, R338, R339: in a clk whose ticks raise no fault every cell whose clock ticks takes its step (q and y by the sums of its edges, z by the increment it makes) and every other cell keeps q, y and z; a crossing latch takes what its producer gives, and a tick of its cell consumes it; each ticking clock counts; an injection register loses the unit that it gives, which its delivery DL holds. A divide-mode clock that runs ticks when its phase counter has reached DIV, which then starts again; an instruction-mode one when a LAT.STEP in performance names it. A fault stops every clock, is recorded, raises its notice, ends a LAT.STEP in performance, and no cell or phase counter moves. No clock moves on a fenced lattice. R336, R339, R343 to R349: the head of the lattice queue that takes part in a clk is performed and leaves the queue: LAT.SET, LAT.INJ, LAT.CLK, LAT.RUN and LAT.STOP change the lattice, LAT.GET, LAT.RDV and LAT.STAT fill their registers, LAT.STEP counts its clk down. A transfer does its work in its first clk, holds the lattice for the time that the spec leaves open (log 3), and then lets its block go on; a bad image fails it with the image-format fault 0x0F, and poison with 0x2A. R343, R346: the fields that LAT.SET writes and LAT.GET gives, and what LAT.CLK, LAT.RUN and LAT.STOP do to each clock. Nothing is performed in a clk that faulted. Where the spec leaves a point of it open, it rests on the choices of logs 3 and 74. -/
def Obligations.LatticeEvents : Prop :=
  (
  ∀ (s : State) (n : Nat),
    let l := (s.core n).lattice
    let mask := match l.headDue s.clk with
      | some o => if o.isStep then fieldOf o.a 3 0 else 0
      | none => 0
    let ticks := l.ticking mask
    (l.clocksMove s.clk = false ∨ l.fenced = true → exec (.latticeClockTick n) s = .next s) ∧
    (∀ k, k ∈ ticks ↔ k < 4 ∧ (l.clock k).run = true ∧ (if (l.clock k).instr then mask.testBit k = true else (l.clock k).divm < (l.clock k).ph + 1)) ∧
    (l.clocksMove s.clk = true → l.firstFault ticks = none → ∃ t : State, exec (.latticeClockTick n) s = .next t ∧
      let v := (t.core n).lattice
      t.mem = s.mem ∧ (t.core n).sysq = (s.core n).sysq ∧ v.queue = l.queue ∧ v.fc = l.fc ∧
      (∀ k c, aget l.cells k = some c → ∃ d, aget v.cells k = some d ∧ d.net = c.net ∧
        (ticks.contains c.clk = true → d.q = (l.newQ c % 2 ^ l.width).toNat ∧ d.y = .ofInt 32 (c.y.toInt + l.dySum c) ∧ d.z = c.z + .ofInt 32 (l.newDz c) ∧ d.dz = l.newDz c) ∧
        (ticks.contains c.clk = false → d.q = c.q ∧ d.y = c.y ∧ d.z = c.z ∧ d.dz = c.dz) ∧
        (∀ i, i < 5 →
          let given := if l.hasLatch c i then l.produced ticks (edgeSource c.net i) else 0
          d.latchAt i = if given ≠ 0 then given else if ticks.contains c.clk then 0 else c.latchAt i)) ∧
      (∀ k, k < 4 → (v.clock k).tk = (if k ∈ ticks then ((l.clock k).tk + 1) % 2 ^ 32 else (l.clock k).tk) ∧ (v.clock k).run = (l.clock k).run ∧
        (v.clock k).ph = (if (l.clock k).run = true ∧ (l.clock k).instr = false then (if k ∈ ticks then 0 else (l.clock k).ph + 1) else (l.clock k).ph)) ∧
      (∀ j, j < 8 → (v.injAt j).n = (if (l.injAt j).clk ∈ ticks then (l.injAt j).n - signOf (l.injAt j).n else (l.injAt j).n) ∧
        (v.injAt j).dl = (if (l.injAt j).clk ∈ ticks then signOf (l.injAt j).n else (l.injAt j).dl))) ∧
    (∀ fc cell k src, l.clocksMove s.clk = true → l.firstFault ticks = some (fc, cell, k, src) → (s.core n).sysFull n = false → ∃ t : State, exec (.latticeClockTick n) s = .next t ∧
      let v := (t.core n).lattice
      v.cells = l.cells ∧ v.inj = l.inj ∧ (∀ j, j < 4 → (v.clock j).run = false ∧ (v.clock j).tk = (l.clock j).tk ∧ (v.clock j).ph = (l.clock j).ph) ∧
      v.queue = (if (l.headDue s.clk).any (fun o => o.isStep) then l.queue.drop 1 else l.queue) ∧
      v.fc = fc ∧ v.fcell = cell ∧ v.fclk = k ∧ v.fsrc = src ∧ v.ftk = (l.clock k).tk ∧ v.faultAt = some s.clk ∧
      (t.core n).sysq = (s.core n).sysq ++ [.notice 0x58 15 0 v.latstat []] ∧ t.mem = s.mem)
  ) ∧
  (
  ∀ (s : State) (n : Nat) (o : LatOp) (r : List LatOp),
    let l := (s.core n).lattice
    l.queue = o :: r → o.issued < s.clk →
    (l.faultAt = some s.clk → exec (.latticeInstructionPerform n) s = .next s) ∧
    (l.faultAt ≠ some s.clk →
      let rest : Lattice := { l with queue := r }
      let into (v : Lattice) := exec (.latticeInstructionPerform n) s = .next (s.setLattice n v)
      let lane (k : Nat) : LatCell := l.cell (fieldOf o.a 7 0 + k)
      let bs := Memory.readN s.mem (localPhys n o.a.toNat) imageSize
      let c := fieldOf o.a 7 0
      let x := l.cell c
      let w := fieldOf o.b 31 0
      let sign (k : Nat) : Int := if k % 4 = 1 then 1 else if k % 4 = 3 then -1 else 0
      let code (i : Int) : Nat := if i = 1 then 1 else if i = -1 then 3 else 0
      (o.op = 0xC1 →
        (o.f = 0 → into (rest.setCell c { x with y := .ofNat 32 w })) ∧ (o.f = 1 → into (rest.setCell c { x with q := w % 2 ^ l.width })) ∧
        (o.f = 2 → into (rest.setCell c { x with z := .ofNat 32 w })) ∧
        (o.f = 3 → ∃ y : Vector Int 5, into (rest.setCell c { x with dz := sign w, latch := y }) ∧
          ∀ i (h : i < 5), (y[i]'h) = if l.hasLatch x i then sign (w / 4 ^ (i + 1)) else x.latchAt i) ∧
        (o.f = 4 → into (rest.setClock (fieldOf o.a 1 0) { l.clock (fieldOf o.a 1 0) with tk := w })) ∧
        (o.f = 5 → into (rest.setInj (fieldOf o.a 2 0) { l.injAt (fieldOf o.a 2 0) with n := (BitVec.ofNat 32 w).toInt }))) ∧
      (∀ y, (rest.setCell c y).cell c = y ∧ (∀ i, i ≠ c → (rest.setCell c y).cell i = l.cell i)) ∧
      (o.op = 0xC4 → into (rest.inject (fieldOf o.a 2 0) (int32 (fieldOf o.b 31 0)))) ∧
      (let j := fieldOf o.a 2 0
       let exact := (l.injAt j).n + (BitVec.setWidth 32 o.b).toInt
       let v := rest.inject j (int32 (fieldOf o.b 31 0))
       (v.injAt j).n = max (-(2 ^ 31)) (min (2 ^ 31 - 1) exact) ∧ v.isat = (l.isat || (v.injAt j).n != exact) ∧
         (∀ i, i ≠ j → v.injAt i = l.injAt i) ∧ v.cells = l.cells ∧ v.clocks = l.clocks ∧
         (o.b.setWidth 32 = 0#32 → -(2 ^ 31) ≤ (l.injAt j).n → (l.injAt j).n ≤ 2 ^ 31 - 1 → v = rest)) ∧
      (o.op = 0xC6 → into (rest.setClock (fieldOf o.a 1 0) { l.clock (fieldOf o.a 1 0) with instr := o.b.getLsbD 0, divm := fieldOf o.b 16 1, ph := 0 })) ∧
      (o.op = 0xC7 → (l.fc ≠ 0 → into rest) ∧ (l.fc = 0 → ∃ y, into { rest with clocks := y } ∧ ∀ k (h : k < 4),
        (y[k]'h) = if o.a.getLsbD k = true ∧ (l.clock k).run = false then { l.clock k with run := true, ph := 0 } else l.clock k)) ∧
      (o.op = 0xC8 → ∃ y, into { rest with clocks := y } ∧ ∀ k (h : k < 4), (y[k]'h) = if o.a.getLsbD k = true then { l.clock k with run := false } else l.clock k) ∧
      (o.op = 0xC5 → into (if o.left ≤ 1 then rest else { l with queue := { o with left := o.left - 1 } :: r })) ∧
      (o.dest.dropped = false → o.dest.ctx < 11 → 0 < o.reg → o.reg < 32 →
        (o.op = 0xC2 → ∃ (t : State) (v : Word), exec (.latticeInstructionPerform n) s = .next t ∧ (t.core n).lattice = rest ∧
          (t.ctx n o.dest.ctx).regs = (s.ctx n o.dest.ctx).regs.setG o.reg v ∧
          (o.f = 0 → v = x.y.signExtend 64) ∧ (o.f = 1 → v = .ofNat 64 x.q) ∧ (o.f = 2 → v = x.z.signExtend 64) ∧
          (o.f = 3 → v.toNat = code x.dz + code (x.latchAt 0) * 4 + code (x.latchAt 1) * 16 + code (x.latchAt 2) * 64 + code (x.latchAt 3) * 256 + code (x.latchAt 4) * 1024) ∧
          (o.f = 4 → v = .ofNat 64 (l.clock (fieldOf o.a 1 0)).tk) ∧ (o.f = 5 → v = .ofInt 64 (l.injAt (fieldOf o.a 2 0)).n)) ∧
        (o.op = 0xCB → ∃ t : State, exec (.latticeInstructionPerform n) s = .next t ∧ (t.core n).lattice = (if o.f = 1 then rest.clearStat else rest) ∧
          (t.ctx n o.dest.ctx).regs = (s.ctx n o.dest.ctx).regs.setG o.reg l.latstat)) ∧
      (rest.clearStat = { rest with isat := false, fc := 0, fcell := 0, fclk := 0, fsrc := 0, ftk := 0 }) ∧
      (o.dest.dropped = false → o.dest.ctx < 11 → o.reg < 16 → o.op = 0xC3 → ∃ t : State, exec (.latticeInstructionPerform n) s = .next t ∧
        (t.core n).lattice = rest ∧ ∀ k (h : k < 32), ((t.ctx n o.dest.ctx).regs.vreg o.reg).lanes[k]'h =
          (if o.f = 0 then (lane k).y else if o.f = 1 then .ofNat 32 (lane k).q else (lane k).z)) ∧
      (o.op = 0xC0 ∨ o.op = 0xC9 ∨ o.op = 0xCA →
        (o.started = true → 1 < o.left → into { l with queue := { o with left := o.left - 1 } :: r }) ∧
        (o.started = true → o.left ≤ 1 → exec (.latticeInstructionPerform n) s = .next ((s.setLattice n rest).endTransfer n o .done)) ∧
        (o.started = false → o.op ≠ 0xC9 → anyPoison s (localPhys n o.a.toNat) imageSize = false →
          (imageFault l bs (o.op == 0xCA) = none → ∃ (t : State) (o1 : LatOp), exec (.latticeInstructionPerform n) s = .next t ∧ t.mem = s.mem ∧
            (t.core n).lattice = { l.ofImage bs (o.op == 0xCA) with queue := o1 :: r } ∧ o1.started = true ∧ o1.id = o.id ∧ o1.op = o.op) ∧
          (∀ why k, imageFault l bs (o.op == 0xCA) = some (why, k) →
            exec (.latticeInstructionPerform n) s = .next ((s.setLattice n rest).endTransfer n o (.failed 0x0F none (some (wordOf (why + o.op * 256 + k * 65536))))))) ∧
        (o.started = false → o.op ≠ 0xC9 → anyPoison s (localPhys n o.a.toNat) imageSize = true →
          exec (.latticeInstructionPerform n) s = .next ((s.setLattice n rest).endTransfer n o (.failed 0x2A none (some 0)))) ∧
        (o.started = false → o.op = 0xC9 → anyPoison s (localPhys n o.a.toNat) imageSize = false → Memory.wf s.mem = true →
          ∃ (t : State) (o1 : LatOp), exec (.latticeInstructionPerform n) s = .next t ∧ (t.core n).lattice = { l with queue := o1 :: r } ∧
            o1.started = true ∧ Memory.readN t.mem (localPhys n o.a.toNat) imageSize = l.image (Config.openWord s.free) ∧
            ∀ a, a < localPhys n o.a.toNat ∨ localPhys n o.a.toNat + imageSize ≤ a → Memory.read t.mem a = Memory.read s.mem a)))
  )

open Sys2Proof Sys2Proof.Machine in
/-- R316: the results of a custom opcode that are due are written: the second with the first, the flags of the graph joined to FPFLAGS, and FPFIRST when an enabled flag is set and it holds no record; one whose context has left is dropped. R42, R45, R48, R206, R376, R390, R391: a Live context whose budget has run out parks with cause 0x68 and its block discarded; the end of a YIELD interval ranks its context last for a clk. The scrubber counts a correctable word, counts one whose second reading is good, and poisons one that stays bad, which its quad's log keeps. A parity error discards the block, which is entered again, and fences the core at the block's third in one invocation; a departure-queue error, or a third event in 2^20 clk, fences the core: it loses its keys, its departures and what waits for answers, and the host is told (0x89). Its entries move to the AUTO target in their order, later arrivals are redirected there, and the target's system queue takes the fenced core's entries and the core-fenced notice. An error in a retire-buffer entry moves the invocation, its retry count raised, or ends it: silently where it has finished, with a checkpoint-loss notice where it has passed a COMMIT, with a retry-exhausted notice where its retries are used up or no core can take it. R392: a parity error in a cell of an array leaves the provenance NaN with ARITH = 1 and POISON = 1 in that cell, and every other cell as it is. Where the spec leaves a point of it open, it rests on the choices of logs 48 and 91. -/
def Obligations.WatchdogErrorsAndPatchResults : Prop :=
  (
  ∀ (s : State) (n : Nat) (r : PatchResult),
    let p := (s.core n).patch
    let x := s.ctx n r.use.ctx
    p.results.filter (fun r => decide (r.due ≤ s.clk)) = [r] → r.use.ctx < 11 → x.status ≠ .draining →
    ∃ t : State, exec (.customOpcodeResult n) s = .next t ∧ t.mem = s.mem ∧
      (t.core n).patch.results = p.results.filter (fun r => decide (s.clk < r.due)) ∧ (t.ctx n r.use.ctx).results = x.results - 1 ∧
      (r.use.dropped = true → (t.ctx n r.use.ctx).regs = x.regs ∧ (t.core n).fpfirst = (s.core n).fpfirst) ∧
      (r.use.dropped = false → r.d < 15 →
        let y := (t.ctx n r.use.ctx).regs
        y.vreg r.d = ⟨r.first, .full⟩ ∧ (∀ l, r.second = some l → y.vreg (r.d + 1) = ⟨l, .full⟩) ∧
        (∀ k, k ≠ r.d → (k ≠ r.d + 1 ∨ r.second = none) → y.vreg k = x.regs.vreg k) ∧
        y.g = x.regs.g ∧ y.q = x.regs.q ∧ y.p = x.regs.p ∧ y.flags = x.regs.flags ||| r.flags ∧
        ((r.flags &&& r.enabled = 0 ∨ flagOf (s.core n).fpfirst 0 = true) → (t.core n).fpfirst = (s.core n).fpfirst) ∧
        (r.flags &&& r.enabled ≠ 0 → flagOf (s.core n).fpfirst 0 = false →
          (t.core n).fpfirst = wordOf (1 + (r.flags &&& r.enabled).toNat * 2 + bits r.header 47 2 * 64 + r.serial.toNat % 4096 * 2 ^ 52)))
  ) ∧
  (
  (∀ (s : State) (n k : Nat), k < 11 →
    let x := s.ctx n k
    (x.status ≠ .live ∨ x.budgetOn = false ∨ x.budgetLeft ≠ 0 → exec (.budgetExpiry n k) s = .next s) ∧
    (x.status = .live → x.budgetOn = true → x.budgetLeft = 0 → ∃ t : State, exec (.budgetExpiry n k) s = .next t ∧
      (t.ctx n k).status = .parked ∧ (t.ctx n k).block = none ∧ (t.ctx n k).trap.cause = trapCause 0x68 k false ∧ t.mem = s.mem ∧
      (∀ b, x.block = some b → (t.ctx n k).trap.blk = wordOf b.header ∧ (t.ctx n k).pc = b.header) ∧
      (∀ c, x.block = none → x.commit = some c → (t.ctx n k).trap.blk = wordOf c.block ∧ (t.ctx n k).commit = some { c with reserved := false }) ∧
      (k ≠ 10 → (t.core n).sysq = (s.core n).sysq ++ [.trap n k])) ∧
    (∀ e, x.yieldEnd = some e → e ≤ s.clk → ∃ t : State, exec (.yieldIntervalEnd n k) s = .next t ∧ t.ctx n k = { x with yieldEnd := none, rankLast := true } ∧ t.mem = s.mem) ∧
    ((∀ e, x.yieldEnd = some e → s.clk < e) → exec (.yieldIntervalEnd n k) s = .next s)) ∧
  (∀ (s : State) (a q sel off : Nat), placeOf a = .store q sel off →
    (∀ f r, isPoisoned s a = true → exec (.scrub a f r) s = .next s) ∧
    (∀ r, exec (.scrub a .clean r) s = .next s) ∧
    (isPoisoned s a = false →
      (∀ e ∈ [(EccState.correctable, EccState.clean), (.correctable, .correctable), (.correctable, .uncorrectable), (.uncorrectable, .clean), (.uncorrectable, .correctable)],
        ∃ t : State, exec (.scrub a e.1 e.2) s = .next t ∧ (t.quad q).corrected = (s.quad q).corrected + 1 ∧ t.poison = s.poison ∧ t.mem = s.mem) ∧
      ∃ t : State, exec (.scrub a .uncorrectable .uncorrectable) s = .next t ∧ t.poison = insertSorted (poisonUnit a) s.poison ∧ t.mem = s.mem ∧
        (t.quad q).corrected = (s.quad q).corrected ∧ (t.quad q).poisonLog = lastEight (s.quad q).poisonLog (sel * 0x100000 + off / 8 * 8))) ∧
  (∀ (s : State) (n k r c : Nat), ∃ t : State, exec (.transientEvent n k (.cellParity r c)) s = .next t ∧ t.mem = s.mem ∧ t.cores = s.cores ∧
    let x := s.cluster (clusterOf n)
    let y := t.cluster (clusterOf n)
    y.lease = x.lease ∧ y.cell (r % 128) (c % 256) = (provNan 1 1 0 (x.cell (r % 128) (c % 256)).2, (x.cell (r % 128) (c % 256)).2) ∧
    ∀ i j, j < 256 → (i, j) ≠ (r % 128, c % 256) → y.cell i j = x.cell i j) ∧
  (∀ (s : State) (n k : Nat), ∀ kind ∈ [Transient.parity, .retireEntry, .departureQueue],
    let recent := (s.core n).transients.filter (fun t => decide (s.clk < t + 2 ^ 20))
    ∃ t : State, exec (.transientEvent n k kind) s = .next t ∧
      (recent.length < 2 → kind = .parity → k < 11 → (s.ctx n k).status = .live →
        let h := ((s.ctx n k).block.map (fun b => b.header)).getD (s.ctx n k).pc
        agetD (s.ctx n k).parity h 0 < 2 → (t.ctx n k).status = .live ∧ (t.ctx n k).pc = h ∧ (t.ctx n k).block = none ∧
          agetD (t.ctx n k).parity h 0 = agetD (s.ctx n k).parity h 0 + 1 ∧ (t.core n).transients = recent ++ [s.clk] ∧ (t.core n).fenced = (s.core n).fenced) ∧
      (kind = .departureQueue ∨ 2 ≤ recent.length → (s.core n).fenced = false →
        (t.core n).fenced = true ∧ (t.core n).keys = Vector.replicate 64 {} ∧ (t.core n).departure = [] ∧ (t.core n).pending = [] ∧ (t.core n).opmap = 0 ∧ (t.core n).itlb = [] ∧ (t.core n).dtlb = []) ∧
      (kind = .parity → k < 11 → (s.ctx n k).status = .live → (s.core n).fenced = false →
        2 ≤ agetD (s.ctx n k).parity (((s.ctx n k).block.map (fun b => b.header)).getD (s.ctx n k).pc) 0 → (t.core n).fenced = true)) ∧
  (∀ (s : State) (n k : Nat), ∀ kind ∈ [Transient.parity, .retireEntry, .departureQueue],
    let c := s.core n
    let x := s.module (nodeModule n)
    let waits (q : CoreQueues) (p : Nat) : List QEntry := q.queueAt p ++ (q.refillAt p).toList ++ q.spillAt p
    (kind = .departureQueue ∨ 2 ≤ (c.transients.filter (fun t => decide (s.clk < t + 2 ^ 20))).length) → c.fenced = false →
    (∀ j, j < 11 → (s.ctx n j).status ≠ .live ∧ (s.ctx n j).status ≠ .parked) → x.completions = [] → x.cpl.isFull = false → Memory.wf s.hostMem = true →
    let told (t : State) : Prop := Memory.readN t.hostMem (x.cpl.base + x.cpl.tail % x.cpl.size * 16) 16 = bytesOfWords [0x89, wordOf (n % 65536)] ∧
      (t.module (nodeModule n)).cpl = { x.cpl with tail := (x.cpl.tail + 1) % 2 ^ 32 } ∧ (t.module (nodeModule n)).interrupts = x.interrupts ++ [0]
    let target := s.retryTarget n ((s.quad n).job.getD 0) 0 true
    (target = none → ∃ t : State, exec (.transientEvent n k kind) s = .next t ∧ told t) ∧
    (∀ z, let d := s.core z
      target = some z → z ≠ n → c.q.moved = [] → d.q.moved = [] → d.q.overflow = [] → d.q.store.length + c.q.store.length + c.q.overflow.length ≤ 256 →
      (∀ p, p < 4 → d.q.spillAt p = [] ∧ d.q.refillAt p = none ∧ (d.q.queueAt p).length + (waits c.q p).length ≤ d.q.depthAt p ∧ ∀ e ∈ waits c.q p, e.pri = p) →
      c.sysHeld = [] → d.sysHeld = [] → ordinaryEntries z (d.sysq ++ c.sysq) < 22 →
      ∃ t : State, exec (.transientEvent n k kind) s = .next t ∧ told t ∧
        (∀ p, p < 4 → (t.core z).q.queueAt p = d.q.queueAt p ++ (waits c.q p).map (fun e => { e with stuck := false }) ∧ waits (t.core n).q p = []) ∧
        (t.core z).q.store = d.q.store ++ c.q.store ++ c.q.overflow ∧ (t.core n).q.store = [] ∧ (t.core n).q.overflow = [] ∧
        aget (t.quad n).redirect n = some z ∧
        (t.core z).sysq = d.sysq ++ c.sysq ++ [.notice 0x6A 15 0 (wordOf (n % 2 ^ 22 + bitNat (!c.departure.isEmpty) * 2 ^ 22)) []])) ∧
  (∀ (s : State) (n k : Nat) (i : Invocation),
    let c := s.core n
    let x := s.ctx n k
    k < 10 → x.status = .live → x.invocation = some i → x.report = none → c.sysFull n = false →
    (c.transients.filter (fun t => decide (s.clk < t + 2 ^ 20))).length < 2 →
    ∃ t : State, exec (.transientEvent n k .retireEntry) s = .next t ∧
      ((t.ctx n k).status = .free ∨ (t.ctx n k).status = .draining) ∧ (t.ctx n k).invocation = none ∧ (t.ctx n k).retire = [] ∧ (t.core n).fenced = c.fenced ∧
      let target := s.retryTarget n x.jobid 0 true
      let told (cause : Nat) (info : Word) : Prop := (t.core n).sysq = c.sysq ++ [.notice cause k 0 info []]
      (i.finished = true → (t.core n).sysq = c.sysq) ∧
      (i.finished = false → i.consumed = true → told 0x33 0) ∧
      (i.finished = false → i.consumed = false → i.retry ≤ i.entry.retries → told 0x69 (wordOf (i.handler % 256))) ∧
      (i.finished = false → i.consumed = false → i.entry.retries < i.retry →
        (target = none → told 0x69 (wordOf (i.handler % 256)) ∧ (i.entry.pri < 4 → (t.core n).q.queueAt i.entry.pri = i.entry :: c.q.queueAt i.entry.pri)) ∧
        (∀ z, target = some z → z ≠ n → (t.core n).sysq = c.sysq ∧
          ((s.core z).q.moved = [] → i.entry.pri < 4 → (s.core z).q.spills i.entry.pri = false →
            (t.core z).q.queueAt i.entry.pri = (s.core z).q.queueAt i.entry.pri ++ [{ i.entry with retries := i.entry.retries + 1, stuck := false }]))))
  )

/-! ## Steps of the device: jobs -/

open Sys2Proof Sys2Proof.Machine in
/-- R142, R143, R395, R400, R404, R406, R432, R433, R468: before the firmware runs every command is answered with status 0xFF. LAUNCH and RESTORE answer the reason of the first check of Table 23-6 that a record fails, each stated by its condition on the record and its three tables, and else hand the record to the placer. PREEMPT arms every core of a resident job; CANCEL clears every mark, raises the notice 0x7A at core 0 of the job's first quad, tells the host port (0x82, status 1) and answers status 0, or answers status 1 where nothing is armed. KILL waits while a context of the job drains; it ends a job of which no context is left and frees its quads; no record of the job waits any longer. A command of another OP is answered with status 0xFF. Where the spec leaves a point of it open, it rests on the choices of logs 21, 23, 31 and 32. -/
def Obligations.JobCommands : Prop :=
  ∀ (s : State) (n : Nat) (cmd : List Word),
    let j := cmdTarget cmd
    let x := s.job j
    exec (.unknownHostCommand n cmd) s = .next (s.complete n (cmdOp cmd) j 0xFF 0 0) ∧
    ((s.module n).running = false → ∀ i ∈ [Instr.launch n cmd, .restore n cmd, .preempt n cmd, .cancel n cmd],
      exec i s = .next (s.complete n (cmdOp cmd) j 0xFF 0 0)) ∧
    ((s.module n).running = false → (s.module n).commands = [] → ∃ t : State, exec (.kill n cmd) s = .next t ∧ t.jobs = s.jobs ∧
      t.hostMem = (s.complete n (cmdOp cmd) j 0xFF 0 0).hostMem ∧ (t.module n).killing = false) ∧
    ((s.module n).running = true →
      let bs := Memory.readN s.hostMem (cmdA cmd).toNat 256
      (∀ e, s.checkRecord n bs none = .error e → exec (.launch n cmd) s = .next (s.complete n 0x01 j 1 e 0)) ∧
      (∀ e, s.checkRecord n bs (some (cmdB cmd).toNat) = .error e → exec (.restore n cmd) s = .next (s.complete n 0x04 j 1 e 0)) ∧
      (∀ y, (s.checkRecord n bs none = .ok y → ∃ t : State, exec (.launch n cmd) s = .next t ∧ aget t.jobs y.record.job = some y ∧
          (t.module n).waiting = (s.module n).waiting ++ [(y.record.job, 0)] ∧ t.agenda = s.agenda ++ [.placement n] ∧ t.mem = s.mem) ∧
        (s.checkRecord n bs (some (cmdB cmd).toNat) = .ok y → ∃ t : State, exec (.restore n cmd) s = .next t ∧ aget t.jobs y.record.job = some y ∧
          (t.module n).waiting = (s.module n).waiting ++ [(y.record.job, 0)] ∧ t.agenda = s.agenda ++ [.placement n] ∧ t.mem = s.mem)) ∧
      (∀ (p : Nat) (image : Option Nat),
        let f (k hi lo : Nat) : Nat := fieldOf (wordAt bs (8 * k)) hi lo
        let nmod := f 0 18 13
        let wx := f 0 25 19
        let wy := f 0 31 26
        let byte (i : Nat) : Nat := numAt bs (96 + i) 1
        let t : State := { s with jobs := aset s.jobs (f 0 11 0) { record := decodeRecord bs } }
        let tumb := t.tableAt (f 0 11 0) (f 7 47 0) (f 11 27 0)
        let chan := t.tableAt (f 0 11 0) (f 8 47 0) (f 0 38 32)
        let live := t.tableAt (f 0 11 0) (f 9 47 0) (f 9 55 48)
        let row (l : Option (List (Word × Word))) (bad : Word → Word → Prop) : Prop := ∃ r, l = some r ∧ ∃ e ∈ r, bad e.1 e.2
        let fails (k : Nat) : Prop := match k with
          | 1 => (∃ z ∈ [(0, 63, 43), (1, 63, 52), (2, 63, 45), (3, 63, 48), (4, 63, 48), (5, 63, 44), (6, 63, 36), (7, 63, 48), (8, 63, 48), (9, 63, 56), (10, 63, 48), (11, 63, 28)],
              f z.1 z.2.1 z.2.2 ≠ 0) ∨ (∃ i, i < 64 ∧ (if i ≤ nmod then 64 ≤ byte i else byte i ≠ 0)) ∨ (∃ b ∈ (bs.drop 160).take 96, b ≠ 0)
          | 2 => f 0 11 0 = 0 ∨ ∃ y, aget s.jobs (f 0 11 0) = some y ∧ y.status ≠ .ended ∧ ¬ (image.isSome = true ∧ y.status = .saved ∧ y.image = none)
          | 3 => ∃ i, i < 4 ∧ (f 5 (25 + 6 * i) (20 + 6 * i) < 4 ∨ 32 < f 5 (25 + 6 * i) (20 + 6 * i))
          | 4 => wkValid (wordAt bs 16) = false
          | 5 => f 0 12 12 = 1 ∧ (wx % 2 = 1 ∨ wy % 2 = 1)
          | 6 => ∃ i j, i < j ∧ j ≤ nmod ∧ byte i = byte j
          | 7 => f 6 11 0 = f 0 11 0
          | 8 => tumb = none ∨ 512 * wx * wy * (nmod + 1) < f 11 27 0 ∨
              row tumb (fun a b => fieldOf a 63 29 ≠ 0 ∨ fieldOf b 63 48 ≠ 0 ∨ wx ≤ fieldOf a 15 9 ∨ wy ≤ fieldOf a 21 16 ∨ nmod < fieldOf a 27 22)
          | 9 => chan = none ∨ row chan (fun a b => fieldOf a 63 42 ≠ 0 ∨ b ≠ 0)
          | 10 => row chan (fun a _ => wx ≤ fieldOf a 6 0 ∨ wy ≤ fieldOf a 12 7 ∨ wx ≤ fieldOf a 27 21 ∨ wy ≤ fieldOf a 33 28)
          | 11 => row chan (fun a _ => nmod < fieldOf a 18 13 ∨ nmod < fieldOf a 39 34)
          | 12 => ∃ r, chan = some r ∧ ∃ (i j : Nat) (a b : Word × Word), i < j ∧ r[i]? = some a ∧ r[j]? = some b ∧ fieldOf a.1 20 0 = fieldOf b.1 20 0 ∧ fieldOf a.1 39 21 = fieldOf b.1 39 21
          | 13 => live = none ∨ row live (fun a b => storeSize (fieldOf a 21 20) < fieldOf a 19 0 + fieldOf b 19 0)
          | 14 => row live (fun a b => fieldOf a 21 20 = 0 ∧ 0x24000 < fieldOf a 19 0 + fieldOf b 19 0)
          | 15 => row live (fun _ b => fieldOf b 19 0 = 0 ∨ fieldOf b 19 0 % 32 ≠ 0)
          | 16 => row live (fun a b => fieldOf a 63 42 ≠ 0 ∨ fieldOf b 63 20 ≠ 0 ∨ fieldOf a 19 0 % 32 ≠ 0 ∨
              (a.getLsbD 22 = true ∧ (fieldOf a 29 23 ≠ 0 ∨ fieldOf a 35 30 ≠ 0 ∨ fieldOf a 41 36 ≠ 0)))
          | 17 => ∃ a, image = some a ∧ s.imageGood a (f 0 11 0) (plWX (Memory.word s.mem (a + 8)) * plWY (Memory.word s.mem (a + 8)) * (nmod + 1)) = false
          | _ => False
        (∀ e, s.checkRecord p bs image = .error e ↔ fails e ∧ ∀ k, k < e → ¬ fails k) ∧
        (∀ a k, fieldOf (Memory.word s.mem a) 11 0 ≠ f 0 11 0 ∨ (Memory.word s.mem a).getLsbD 12 = false → s.imageGood a (f 0 11 0) k = false)) ∧
      (aget s.jobs j = some x → x.status = .resident → x.snapshot = none → ∃ (t : State) (p : Snapshot), exec (.preempt n cmd) s = .next t ∧
        (t.job j).snapshot = some p ∧ p.base = (cmdA cmd).toNat ∧ p.size = (cmdB cmd).toNat ∧ p.violations = 0 ∧
        ∀ q ∈ s.quadsOf j, ∀ c ∈ coresOf q, (t.core c).hinge.arm = true) ∧
      (x.snapshot = none → exec (.cancel n cmd) s = .next (s.complete n 0x03 j 1 0 0)) ∧
      (x.snapshot.isSome = true → ∃ t : State, exec (.cancel n cmd) s = .next t ∧ (t.job j).snapshot = none ∧ (t.job j).status = x.status ∧ t.mem = s.mem ∧
        (∀ q ∈ s.quadsOf j, ∀ c ∈ coresOf q, (t.core c).hinge = {}) ∧
        let first := placedCore x.plbase x.record 0 0 0 0
        let y := s.module x.port
        ((s.core first).sysFull first = false → (t.core first).sysq = (s.core first).sysq ++ [.notice 0x7A 15 0 0 []]) ∧
        (y.completions = [] → y.cpl.isFull = false → { y.cpl with tail := (y.cpl.tail + 1) % 2 ^ 32 : Ring }.isFull = false → x.port = n → Memory.wf s.hostMem = true →
          y.cpl.tail + 1 < 2 ^ 32 → 1 < y.cpl.size →
          let a := y.cpl.base + y.cpl.tail % y.cpl.size * 16
          let b := y.cpl.base + (y.cpl.tail + 1) % y.cpl.size * 16
          Memory.readN t.hostMem a 8 = bytesOfWord (wordOf (0x82 + j * 2 ^ 8 + 2 ^ 20)) ∧ Memory.readN t.hostMem b 16 = bytesOfWords [wordOf (0x03 + j * 2 ^ 8), 0])) ∧
      (aget s.jobs j = some x → x.status ≠ .ended → (s.module n).commands = [] → (∀ q ∈ s.quadsOf j, ∀ c ∈ coresOf q, (s.core c).busy = false) →
        ∃ t : State, exec (.kill n cmd) s = .next t ∧ (t.job j).status = .ended ∧ (t.job j).snapshot = none ∧ (∀ q, (t.quad q).job ≠ some j) ∧
          (∀ k, ∀ w ∈ (t.module k).waiting, w.1 ≠ j) ∧ (t.module n).killing = false) ∧
      (aget s.jobs j = some x → x.status ≠ .ended → (∃ q ∈ s.quadsOf j, (s.ctx q 0).status = .draining) → ∃ t : State, exec (.kill n cmd) s = .next t ∧
        (t.job j).status = .ending ∧ t.later = s.later ++ [(s.clk + 1, .kill n cmd)]))

open Sys2Proof Sys2Proof.Machine in
/-- R18, R139, R144, R168 to R170, R368, R370, R474: the placer gives a waiting record the first origin that fits in ascending BY × 80 + BX, of even coordinates for MX = 1, on quads that are free and unfenced and offer what NEED names on every module, and its cores begin as job load says; where none fits the record waits, and a hot module places nothing. A released job's initial messages go in order, each counted for the job; one that cannot be read is passed over (log 22). A TRIGGER counts, and releases the dependants whose count it completes. Where the spec leaves a point of it open, it rests on the choices of logs 22 and 40. -/
def Obligations.PlacementAndRelease : Prop :=
  (∀ (s : State) (n : Nat), (∀ e ∈ s.jobs, e.2.status ≠ .ending) →
    ((s.module n).hot = true → exec (.placement n) s = .next s) ∧
    ((s.module n).hot = false → ∀ j k x, (s.module n).waiting = [(j, k)] → aget s.jobs j = some x → x.record.job = j →
      (s.findOrigin x.record = none → ∃ t : State, exec (.placement n) s = .next t ∧ t.module n = s.module n ∧ t.jobs = s.jobs ∧ t.quads = s.quads ∧ t.agenda = s.agenda) ∧
      (∀ bx by_, s.findOrigin x.record = some (bx, by_) → x.image = none → ∃ t : State, exec (.placement n) s = .next t ∧
        let pl := plbaseOf bx by_ x.record.wx x.record.wy
        (t.module n).waiting = [] ∧ (t.job j).status = .resident ∧ (t.job j).plbase = pl ∧ (x.record.prod = 0 → (t.job j).released = true) ∧
        ∀ q ∈ jobQuads pl x.record, (t.quad q).job = some j ∧ (t.quad q).restoring = false ∧ ∀ c ∈ coresOf q,
          (t.core c).plbase = pl ∧ (t.core c).wkdesc = x.record.wkd ∧ (t.core c).keys = Vector.replicate 64 {} ∧ (t.core c).sent = 0 ∧ (t.core c).recv = 0 ∧
          (t.core c).fpfirst = 0 ∧ (t.core c).opmap = 0 ∧ (t.core c).opmapAddr = x.record.opmap ∧ (t.core c).hinge = {} ∧
          ∀ i, i < 11 → (t.ctx c i).jobid = j ∧ (t.ctx c i).hasp = .none))) ∧
  (∀ (s : State) (r : JobRecord), r.wx < 128 → r.wy < 64 →
    let need (k : Nat) : Prop := r.need.testBit k = true
    let fits (bx by_ : Nat) : Prop := bx + r.wx ≤ 80 ∧ by_ + r.wy ≤ 60 ∧ (r.mx = true → bx % 2 = 0 ∧ by_ % 2 = 0 ∧ r.wx % 2 = 0 ∧ r.wy % 2 = 0) ∧
      ∀ m ∈ r.modules, s.present.toNat.testBit m = true ∧ (s.module m).hot = false ∧ ∀ i j, i < r.wx → j < r.wy →
        let q := coreNode m (bx + i) (by_ + j) 0
        (s.quad q).job = none ∧ (s.quad q).fenced = false ∧
        (need 0 → ∀ c ∈ coresOf q, (s.core c).fenced = false) ∧ (need 1 ∨ r.mx = true → (s.cluster (clusterOf q)).fenced = false) ∧
        (need 2 → ∀ c ∈ coresOf q, (s.core c).patch.fenced = false) ∧ (need 3 → ∀ c ∈ coresOf q, (s.core c).lattice.fenced = false)
    (s.findOrigin r = none ↔ ∀ bx by_, bx < 80 → by_ < 60 → ¬ fits bx by_) ∧
    (∀ bx by_, s.findOrigin r = some (bx, by_) ↔ bx < 80 ∧ by_ < 60 ∧ fits bx by_ ∧
      ∀ cx cy, cx < 80 → cy * 80 + cx < by_ * 80 + bx → ¬ fits cx cy)) ∧
  (∀ (s : State) (n j : Nat) (x : Job), aget s.jobs j = some x →
    let i := agetD x.initNext n 0
    (x.record.ninit ≤ i ∨ x.released = false ∨ x.status = .ended ∨ x.status = .ending → exec (.initialMessageRelease n j) s = .next s) ∧
    (i < x.record.ninit → x.released = true → x.status ≠ .ended → x.status ≠ .ending → ∀ bs p, s.virtualRead j (x.record.init + 288 * i) 288 = .ok bs →
      let m := slotMessage bs
      (relocModule x.record (nodeModule (destOf m))).getD ((x.record.modmap).getD 0 0) = n → slotGood x.record.wkd m = true →
      s.relocateSlot x { m with poison := s.slotPoison j (x.record.init + 288 * i) (fieldOf m.w0 18 15) } (endNode n 0 5 0) = some p →
      ∃ t : State, exec (.initialMessageRelease n j) s = .next t ∧ t.agenda = s.agenda ++ [route p] ∧ agetD (t.job j).initNext n 0 = i + 1 ∧
        (t.job j).hostSent = x.hostSent + bitNat (decide (hidxOf p < 0xE0)) ∧ t.later = s.later ++ [(s.clk + 1, .initialMessageRelease n j)]) ∧
    (i < x.record.ninit → x.released = true → x.status ≠ .ended → x.status ≠ .ending → ∀ c, s.virtualRead j (x.record.init + 288 * i) 288 = .error c →
      ∃ t : State, exec (.initialMessageRelease n j) s = .next t ∧ t.agenda = s.agenda ++ [.initialMessageRelease n j] ∧ agetD (t.job j).initNext n 0 = i + 1)) ∧
  (∀ (s : State) (m : Packet) (x : Job), aget s.jobs (jobOf m) = some x →
    ∃ (t : State) (l : List Event), exec (.triggerCount m) s = .next t ∧ (t.job (jobOf m)).trigger = x.trigger + 1 ∧
      t.agenda = s.agenda ++ l ++ [route (answerTo m 0 [] false)] ∧
      ∀ d y, aget s.jobs d = some y → y.record.prod = jobOf m → jobOf m ≠ 0 → y.status = .resident → y.record.trign ≤ x.trigger + 1 → (t.job d).released = true)

open Sys2Proof Sys2Proof.Machine in
/-- R171, R172, R338, R381, R396, R397, R399, R400, R405, R465: a sweep gathers the counts of its module, and a round is whole when every module of the job has sent its own; two equal rounds that find every core idle, with every initial message gone, end the job, armed or not, unless it is frozen, and free its quads. Two equal rounds that find every core of an armed job saved complete its snapshot: the job is saved and its quads are free. A landed core that has finished its work saves its record into the image, is saved, and its lattice's clocks stop; where the area has no room the job resumes in place. At restore the recorded arrivals and then the entries of the absent queues go ahead of everything else, and the job is resident once every die has sent its own. Where the spec leaves a point of it open, it rests on the choices of logs 33, 34, 38, 39, 99, 100 and 103. -/
def Obligations.SweepsAndSaves : Prop :=
  (∀ (s : State) (n j : Nat) (x : Job), aget s.jobs j = some x →
    (x.status ≠ .resident → exec (.endOfJobSweep n j) s = .next s) ∧
    (x.status = .resident → (∃ m ∈ x.record.modules, aget (aset x.sweeps n (s.sweepModule j n)) m = none) → ∃ t : State, exec (.endOfJobSweep n j) s = .next t ∧
      t.job j = { x with sweeps := aset x.sweeps n (s.sweepModule j n) } ∧ t.later = s.later ++ [(s.clk + 65536, .endOfJobSweep n j)] ∧ t.quads = s.quads) ∧
    (x.status = .resident → (∀ m ∈ x.record.modules, (aget (aset x.sweeps n (s.sweepModule j n)) m).isSome = true) →
      let w := aset x.sweeps n (s.sweepModule j n)
      let sums := ((w.map (fun e => e.2.sent)).sum + x.hostSent, (w.map (fun e => e.2.recv)).sum + x.hostRecv + s.absentReceived j (fun k => !x.record.modules.contains k))
      let whole := (sums.1, sums.2 + s.taskEntries j)
      let ok := (∀ e ∈ w, e.2.idle = true) ∧ sums.1 = sums.2 ∧ x.launched = true ∧ x.frozen = false
      let saved := x.snapshot.isSome = true ∧ (∀ q ∈ s.quadsOf j, ∀ c ∈ coresOf q, (s.core c).hinge.saved = true) ∧ whole.1 = whole.2
      (saved → x.savedSums = some whole → ∃ u : State, u.mem = s.mem ∧ u.quads = s.quads ∧ u.cores = s.cores ∧ (u.job j).snapshot = x.snapshot ∧
        exec (.endOfJobSweep n j) s = .next (u.completeSnapshot j)) ∧
      (¬ (saved ∧ x.savedSums = some whole) → ok → x.sums = some sums → ∃ t : State, exec (.endOfJobSweep n j) s = .next t ∧
        (t.job j).status = .ended ∧ ∀ q, (t.quad q).job ≠ some j) ∧
      (¬ (saved ∧ x.savedSums = some whole) → ¬ (ok ∧ x.sums = some sums) → ∃ t : State, exec (.endOfJobSweep n j) s = .next t ∧
        t.job j = { x with sweeps := [], sums := (t.job j).sums, savedSums := (t.job j).savedSums } ∧
        (ok → (t.job j).sums = some sums) ∧ (¬ ok → (t.job j).sums = none) ∧ (saved → (t.job j).savedSums = some whole) ∧ (¬ saved → (t.job j).savedSums = none) ∧
        t.later = s.later ++ [(s.clk + 65536, .endOfJobSweep n j)] ∧ t.quads = s.quads))) ∧
  (∀ (s : State) (j : Nat) (x : Job) (p : Snapshot), aget s.jobs j = some x → x.snapshot = some p → s.renewRecords j = some s →
    anyPoison s p.base (x.imageHead p).length = false → Memory.wf s.mem = true →
    ((s.completeSnapshot j).job j).status = .saved ∧ ((s.completeSnapshot j).job j).snapshot = none ∧ (∀ q, ((s.completeSnapshot j).quad q).job ≠ some j) ∧
    Memory.readN (s.completeSnapshot j).mem p.base (x.imageHead p).length = x.imageHead p) ∧
  (∀ (s : State) (c j : Nat) (x : Job) (p : Snapshot), (s.quad c).job = some j → aget s.jobs j = some x → x.snapshot = some p →
    (s.maySave c = false → exec (.coreSave c) s = .next s) ∧
    (s.maySave c = true → p.size < p.next + (s.coreRecord c x.record).length → exec (.coreSave c) s = .next (s.resumeInPlace j)) ∧
    (s.maySave c = true → Memory.wf s.mem = true → (s.core c).replayMode = 0 → (s.core c).dbg.hist = [] →
      (∃ d ∈ coresOf (quadOf c), d ≠ c ∧ (s.core d).hinge.saved = false) →
      let bs := s.coreRecord c x.record
      p.next + bs.length ≤ p.size → anyPoison s (p.base + p.next) bs.length = false →
      ∃ t : State, exec (.coreSave c) s = .next t ∧ (t.core c).hinge.saved = true ∧ Memory.readN t.mem (p.base + p.next) bs.length = bs ∧
        (t.job j).snapshot = some { p with next := p.next + bs.length, cores := aset p.cores c p.next } ∧
        (∀ k, k < 4 → ((t.core c).lattice.clock k).run = false) ∧
        ∀ a, a < p.base + p.next ∨ p.base + p.next + bs.length ≤ a → Memory.read t.mem a = Memory.read s.mem a)) ∧
  (∀ (s : State) (j : Nat) (x : Job), aget s.jobs j = some x →
    ((s.resumeInPlace j).job j).snapshot = none ∧ ((s.resumeInPlace j).job j).status = x.status ∧ (s.resumeInPlace j).mem = s.mem ∧
    ∀ q ∈ s.quadsOf j, ∀ c ∈ coresOf q, ((s.resumeInPlace j).core c).hinge = {}) ∧
  (∀ (s : State) (d j : Nat) (x : Job), aget s.jobs j = some x →
    let q := agetD (s.die d).absent j {}
    (x.status ≠ .restoring → exec (.absentQueueReplay d j) s = .next s) ∧
    (x.status = .restoring → s.replayHeld j = true → exec (.absentQueueReplay d j) s = .next (s.after 1 (.absentQueueReplay d j))) ∧
    (x.status = .restoring → s.replayHeld j = false → ∀ m r, q.entries = m :: r → ∃ (t : State) (e : Packet), exec (.absentQueueReplay d j) s = .next t ∧
      t.agenda = s.agenda ++ [.handlerMessageArrival e, .absentQueueReplay d j] ∧ e.w0 = absoluteHeader x.plbase x.record m.w0 ∧ e.payload = m.payload ∧ e.w1 = m.w1 ∧
      e.counted = true ∧ e.tag = 0 ∧ (agetD (t.die d).absent j {}).entries = r) ∧
    (x.status = .restoring → s.replayHeld j = false → s.absentLeft j = false → (∀ c ∈ s.quadsOf j, dieNode c = d) → ∃ t : State,
      exec (.absentQueueReplay d j) s = .next t ∧ (t.job j).status = .resident ∧ ∀ c ∈ s.quadsOf j, (t.quad c).restoring = false) ∧
    (x.status = .restoring → s.replayHeld j = false → q.entries = [] → s.absentLeft j = true → ∃ t : State, exec (.absentQueueReplay d j) s = .next t ∧
      t.jobs = s.jobs ∧ ∀ c ∈ s.quadsOf j, dieNode c = d → (t.quad c).restoring = false))

/-! ## Steps of the device: the host port -/

open Sys2Proof Sys2Proof.Machine in
/-- R428, R429, R431, R432, R434: a completion entry is written at the tail of its ring, which moves on, with interrupt vector 0; while the ring is full it waits. A write of CMDTAIL takes the commands up to it, in order. A write of INJTAIL consumes slots: a good one is sent and counted, a bad one is dropped and counted. A write of BAR0 changes the register it names, a host index never goes beyond its TAIL, and an offset that names nothing changes nothing. An action of the host waits behind an earlier one that waits, and one that is tried again keeps its place; what it sends comes before every later action. Where the spec leaves a point of it open, it rests on the choices of log 26. -/
def Obligations.HostPortRegisters : Prop :=
  (∀ (s : State) (n op job status reason : Nat) (value : Word),
    let x := s.module n
    let t := s.complete n op job status reason value
    let a := x.cpl.base + x.cpl.tail % x.cpl.size * 16
    let e : List Word := [wordOf (op % 256 + job % 4096 * 2 ^ 8 + status % 256 * 2 ^ 20 + reason % 256 * 2 ^ 28), value]
    x.completions = [] →
    (x.cpl.isFull = false → Memory.wf s.hostMem = true → Memory.readN t.hostMem a 16 = bytesOfWords e ∧
      (∀ b, b < a ∨ a + 16 ≤ b → Memory.read t.hostMem b = Memory.read s.hostMem b) ∧ (t.module n).completions = [] ∧
      (t.module n).cpl = { x.cpl with tail := (x.cpl.tail + 1) % 2 ^ 32 } ∧ (t.module n).interrupts = x.interrupts ++ [0] ∧ t.mem = s.mem ∧ t.agenda = s.agenda) ∧
    (x.cpl.isFull = true → (t.module n).completions = [e] ∧ t.hostMem = s.hostMem ∧ (t.module n).interrupts = x.interrupts)) ∧
  (∀ (s : State) (n off size : Nat) (tail : BitVec 32) (v : Word) (bs : List Byte), (s.module n).hostWait ≠ [] →
    let x := s.module n
    ∀ e ∈ [(Instr.cmdtailWrite n tail, Event.cmdtailWrite n tail), (.injtailWrite n tail, .injtailWrite n tail), (.bar0RegisterWrite n off v, .bar0RegisterWrite n off v),
        (.apertureRead n off size, .apertureRead n off size), (.apertureWrite n off bs, .apertureWrite n off bs)],
      ((e.2, true) ∉ x.hostWait → exec e.1 s = .next (s.setModule n { x with hostWait := x.hostWait ++ [(e.2, false)] })) ∧
      (∀ l r, x.hostWait = l ++ (e.2, true) :: r → l ≠ [] → (e.2, true) ∉ l →
        exec e.1 s = .next (s.setModule n { x with hostWait := l ++ (e.2, false) :: r }))) ∧
  (∀ (s : State) (n : Nat) (tail : BitVec 32),
    let x := s.module n
    let r : Ring := { x.cmd with tail := tail.toNat }
    let k := min r.used r.size
    let l := (List.range k).map (fun i => commandEvent n (wordsOf (Memory.readN s.hostMem (r.base + (r.head + i) % r.size * 64) 64) 8))
    x.hostWait = [] → x.commands = [] → x.killing = false → x.hot = false → (∀ e ∈ l, isKill e = false) →
    ∃ t : State, exec (.cmdtailWrite n tail) s = .next t ∧ t.agenda = l ++ s.agenda ∧ (t.module n).cmd = { r with head := (r.head + k) % 2 ^ 32 } ∧
      (t.module n).commands = [] ∧ t.hostMem = s.hostMem ∧ t.mem = s.mem) ∧
  (∀ (s : State) (n : Nat) (tail : BitVec 32),
    let x := s.module n
    let m := slotMessage (Memory.readN x.inject (0x10000 + 0x200 * (x.injHead % 64)) 288)
    let j := jobOf m
    x.hostWait = [] → (tail.toNat + 2 ^ 32 - x.injHead) % 2 ^ 32 = 1 →
    (s.jobLoaded j = false ∨ slotGood (s.job j).record.wkd m = false ∨ s.relocateSlot (s.job j) m (hostNode n) = none →
      ∃ t : State, exec (.injtailWrite n tail) s = .next t ∧ (t.module n).droppedSlots = x.droppedSlots + 1 ∧ (t.module n).injHead = (x.injHead + 1) % 2 ^ 32 ∧
        (t.module n).injTail = tail.toNat ∧ t.agenda = s.agenda) ∧
    (∀ p, s.jobLoaded j = true → slotGood (s.job j).record.wkd m = true → s.relocateSlot (s.job j) m (hostNode n) = some p →
      ∃ t : State, exec (.injtailWrite n tail) s = .next t ∧ t.agenda = [route p] ++ s.agenda ∧ (t.module n).injHead = (x.injHead + 1) % 2 ^ 32 ∧
        (t.module n).injTail = tail.toNat ∧ (t.module n).droppedSlots = x.droppedSlots ∧
        (t.job j).hostSent = (s.job j).hostSent + bitNat (decide (hidxOf p < 0xE0)))) ∧
  (∀ (s : State) (n o : Nat) (v : Word),
    let x := s.module n
    let puts (off : Nat) (y : Module) := exec (.bar0RegisterWrite n off v) s = .next (s.setModule n y)
    x.hostWait = [] →
    puts 0x40 { x with cmd := { x.cmd with base := v.toNat } } ∧ puts 0x48 { x with cmd := { x.cmd with size := v.toNat } } ∧
    puts 0x60 { x with cpl := { x.cpl with base := v.toNat } } ∧ puts 0x80 { x with rx := { x.rx with base := v.toNat } } ∧
    puts 0xA0 { x with frm := { x.frm with base := v.toNat } } ∧ puts 0xC0 { x with umbase := v.toNat } ∧
    exec (.bar0RegisterWrite n 0x50 v) s = exec (.cmdtailWrite n (.ofNat 32 v.toNat)) s ∧
    exec (.bar0RegisterWrite n 0x100 v) s = exec (.injtailWrite n (.ofNat 32 v.toNat)) s ∧
    (∀ off ∈ [0x68, 0x78, 0x88, 0x98, 0xA8, 0xB8], x.completions = [] → x.held = [] → x.engine.waiting = [] →
      ∃ t : State, exec (.bar0RegisterWrite n off v) s = .next t ∧ t.agenda = s.agenda ∧ t.hostMem = s.hostMem ∧ t.mem = s.mem ∧
        (t.module n).cpl.size = (if off = 0x68 then v.toNat else x.cpl.size) ∧ (t.module n).rx.size = (if off = 0x88 then v.toNat else x.rx.size) ∧
        (t.module n).frm.size = (if off = 0xA8 then v.toNat else x.frm.size) ∧
        (t.module n).cpl.head = (if off = 0x78 ∧ beyond (v.toNat % 2 ^ 32) x.cpl.tail = false then v.toNat % 2 ^ 32 else x.cpl.head) ∧
        (t.module n).rx.head = (if off = 0x98 ∧ beyond (v.toNat % 2 ^ 32) x.rx.tail = false then v.toNat % 2 ^ 32 else x.rx.head) ∧
        (t.module n).frm.head = (if off = 0xB8 ∧ beyond (v.toNat % 2 ^ 32) x.frm.tail = false then v.toNat % 2 ^ 32 else x.frm.head)) ∧
    (o < 1024 → ∃ t : State, exec (.bar0RegisterWrite n (0x1000 + 8 * o) v) s = .next t ∧ (t.module n).window o = winValue v) ∧
    (o + 8 ≤ 0x8000 → Memory.wf x.inject = true → ∃ t : State, exec (.bar0RegisterWrite n (0x10000 + o) v) s = .next t ∧
      Memory.readN (t.module n).inject (0x10000 + o) 8 = bytesOfWord v ∧
      ∀ b, b < 0x10000 + o ∨ 0x10000 + o + 8 ≤ b → Memory.read (t.module n).inject b = Memory.read x.inject b) ∧
    ((o < 0x1000 ∧ o ∉ [0x40, 0x48, 0x50, 0x60, 0x68, 0x78, 0x80, 0x88, 0x98, 0xA0, 0xA8, 0xB8, 0xC0, 0x100]) ∨ (0x3000 ≤ o ∧ o < 0x10000) ∨ 0x18000 ≤ o →
      exec (.bar0RegisterWrite n o v) s = .next (s.setModule n x)))

open Sys2Proof Sys2Proof.Machine in
/-- R430, R431, R435, R440, R444, R473: a host read of the aperture completes with the bytes of its runs, or with a Completer Abort where a part is refused; a host write goes to its runs, or is dropped and counted; an access through a closed window, of a job that is not loaded, with no translation, to a page with HOSTVIS = 0 or without RD or WR, and in sealed-output mode a read outside the opened manifest buffers, is refused; one whose memory lies in a paused stack, or behind an earlier message of the host at the quad, waits. An arrival at the host port is written to the receive ring with interrupt vector 1, counted for its job and answered, and in sealed-output mode with payload leaves an unmarked record; while the ring is full it is held. Where the spec leaves a point of it open, it rests on the choices of logs 27 and 44. -/
def Obligations.HostAccesses : Prop :=
  (∀ (s : State) (n off size : Nat), (s.module n).hostWait = [] →
    let r := s.hostAccess n off size false
    (∀ l, r.1 = some l → r.2.hostWaits n l = true → ∃ t : State, exec (.apertureRead n off size) s = .next t ∧ t.mem = s.mem ∧
      (t.module n).reads = (s.module n).reads ∧ (t.module n).hostWait = [(.apertureRead n off size, false)]) ∧
    (r.1 = none → ∃ t : State, exec (.apertureRead n off size) s = .next t ∧ (t.module n).reads = (s.module n).reads ++ [none] ∧ t.mem = s.mem) ∧
    (∀ l, r.1 = some l → r.2.hostWaits n l = false → (∀ e ∈ l, anyPoison s e.1 e.2 = false) → ∃ t : State, exec (.apertureRead n off size) s = .next t ∧ t.mem = s.mem ∧
      (t.module n).reads = (s.module n).reads ++ [some (l.flatMap (fun e => Memory.readN s.mem e.1 e.2))]) ∧
    (∀ e ∈ runParts off size, flagOf ((s.module n).window (e.1 / 2 ^ 26)) 0 = false → r.1 = none)) ∧
  (∀ (s : State) (n off size : Nat) (write : Bool), 0 < size → off % 65536 + size ≤ 65536 →
    let x := s.module n
    let w := x.window (off / 2 ^ 26)
    let j := fieldOf w 12 1
    let va := fieldOf w 47 26 * 2 ^ 26 + off % 2 ^ 26
    let loaded := match aget s.jobs j with
      | some y => y.status = .resident ∨ y.status = .saved ∨ y.status = .restoring
      | none => False
    let leaf := (tlbPick x.tlb j va).orElse (fun _ => (s.walkAll j va).toOption)
    let opened := ∃ b ∈ x.engine.buffers, b.1 = j ∧ b.2 ≤ va ∧ va + size ≤ b.2 + 0x6000
    let bears (pa : Nat) : Prop := match placeOf pa with
      | .hbm _ => True
      | .store _ sel o => allowed (if write then .remoteWrite else .remoteRead) sel write = true ∧ o + size ≤ storeSize sel
      | .reserved => False
    let r := (s.hostAccess n off size write).1
    (flagOf w 0 = false ∨ ¬ loaded ∨ leaf = none → r = none) ∧
    (∀ e, flagOf w 0 = true → loaded → leaf = some e →
      let good := flagOf e.pte 6 = true ∧ flagOf e.pte (if write then 3 else 2) = true ∧ (write = true ∨ x.sealed = false ∨ opened) ∧ bears (e.phys va)
      (good → r = some [(e.phys va, size)]) ∧ (¬ good → r = none))) ∧
  (∀ (s : State) (n off : Nat) (bs : List Byte), (s.module n).hostWait = [] →
    let r := s.hostAccess n off bs.length true
    (∀ l, r.1 = some l → r.2.hostWaits n l = true → ∃ t : State, exec (.apertureWrite n off bs) s = .next t ∧ t.mem = s.mem ∧
      (t.module n).hostWait = [(.apertureWrite n off bs, false)]) ∧
    (r.1 = none → ∃ t : State, exec (.apertureWrite n off bs) s = .next t ∧ (t.module n).droppedWrites = (s.module n).droppedWrites + 1 ∧ t.mem = s.mem) ∧
    (∀ pa, r.1 = some [(pa, bs.length)] → r.2.hostWaits n [(pa, bs.length)] = false → anyPoison s pa bs.length = false → Memory.wf s.mem = true →
      ∃ t : State, exec (.apertureWrite n off bs) s = .next t ∧ Memory.readN t.mem pa bs.length = bs ∧ (t.module n).droppedWrites = (s.module n).droppedWrites ∧
        ∀ a, a < pa ∨ pa + bs.length ≤ a → Memory.read t.mem a = Memory.read s.mem a)) ∧
  (∀ (s : State) (m : Packet),
    let n := nodeModule (destOf m)
    let x := s.module n
    let a := x.rx.base + x.rx.tail % x.rx.size * 288
    (x.held ≠ [] ∨ x.rx.isFull = true → ∃ t : State, exec (.hostPortReceive m) s = .next t ∧ (t.module n).held = x.held ++ [m] ∧ t.hostMem = s.hostMem ∧ t.agenda = s.agenda) ∧
    (x.held = [] → x.rx.isFull = false → Memory.wf s.hostMem = true → (x.sealed = false ∨ x.engine.records.length < 62) →
      ∃ (t : State) (l : List Event), exec (.hostPortReceive m) s = .next t ∧ Memory.readN t.hostMem a 288 = receiveSlot m ∧
        (∀ b, b < a ∨ a + 288 ≤ b → Memory.read t.hostMem b = Memory.read s.hostMem b) ∧
        (t.module n).rx = { x.rx with tail := (x.rx.tail + 1) % 2 ^ 32 } ∧ (t.module n).interrupts = x.interrupts ++ [1] ∧
        t.agenda = s.agenda ++ l ∧ l = (if m.tag = 0 then [] else [route (answerTo m 0 [] false)]) ∧
        (kindOf m = 0 → hidxOf m < 0xE0 → (aget s.jobs (jobOf m)).isSome = true → (t.job (jobOf m)).hostRecv = (s.job (jobOf m)).hostRecv + 1) ∧
        (t.module n).engine.records = x.engine.records ++ (if x.sealed = true ∧ 0 < beatsOf m then [unmarkedRecord m s.sealTime] else [])))

/-! ## Steps of the device: firmware, service, power and links -/

open Sys2Proof Sys2Proof.Machine in
/-- R467 to R473: before the firmware runs every service command but LOADFW is answered with status 0xFF. LOADFW answers why an image is refused; the first good image brings the module up with its stores clear; a later one goes to the slot that does not run, unless its policy differs. SWAP runs the other slot. ATTEST writes a quote of 512 bytes. FENCE takes a unit out of service when no job is on it, UNFENCE gives it back and every placer with a waiting record looks again. RECAL pauses every memory core of its stack; 131072 clk after their miss entries have drained, what waited at them comes first, each RECAL completes, and the collectives that waited run; the schedule does so for each stack in turn, 2^32 clk apart. HEALTH writes the counts of corrected errors and the logs of poisoned words, at most 65,536 bytes that are the model's free value (log 29), TRACEOUT whole records of the ring; both say how much. Where the spec leaves a point of it open, it rests on the choices of logs 5, 23, 29, 30, 43 and 44. -/
def Obligations.ServiceCommands : Prop :=
  ∀ (s : State) (n : Nat) (cmd : List Word),
    let x := s.module n
    let j := cmdTarget cmd
    let node := n * 65536 + fenceUnit cmd
    let k := (cmdA cmd).toNat
    (x.running = false → ∀ i ∈ [Instr.swap n cmd, .attest n cmd, .serviceFence n cmd, .unfence n cmd, .recal n cmd, .health n cmd, .traceout n cmd],
      exec i s = .next (s.complete n (cmdOp cmd) j 0xFF 0 0)) ∧
    (∀ e, s.readImage n k (cmdB cmd).toNat = .error e → exec (.loadfw n cmd) s = .next (s.complete n 0x20 j e 0 0)) ∧
    (∀ f, s.readImage n k (cmdB cmd).toNat = .ok f →
      (x.running = false → n < 64 → ∃ t : State, exec (.loadfw n cmd) s = .next t ∧ (t.module n).running = true ∧ (t.module n).sealed = f.sealed ∧
        (t.module n).image = some f ∧ t.present = s.present ||| (1#64 <<< n) ∧
        ∀ a, n * 2 ^ 46 + storeWindows ≤ a → a < n * 2 ^ 46 + storeWindows + 4800 * 0x200000 → Memory.read t.mem a = 0) ∧
      (x.running = true → f.sealed ≠ x.sealed → exec (.loadfw n cmd) s = .next (s.complete n 0x20 j 3 0 0)) ∧
      (x.running = true → f.sealed = x.sealed → ∃ t : State, exec (.loadfw n cmd) s = .next t ∧ (t.module n).image = x.image ∧
        (if x.second then (t.module n).slotA else (t.module n).slotB) = some f ∧ t.mem = s.mem)) ∧
    (x.running = true →
      (∀ f, (if x.second then x.slotA else x.slotB) = some f → ∃ t : State, exec (.swap n cmd) s = .next t ∧ (t.module n).image = some f ∧ t.mem = s.mem) ∧
      ((if x.second then x.slotA else x.slotB) = none → exec (.swap n cmd) s = .next (s.complete n 0x21 j 1 0 0)) ∧
      (∃ (t : State) (q : List Byte), exec (.attest n cmd) s = .next (t.complete n 0x22 j 0 0 512) ∧ q.length = 512 ∧
        t.hostMem = Memory.writeN s.hostMem (cmdB cmd).toNat q ∧ t.mem = s.mem ∧
        q.take 128 = quoteBody n x s.present (Memory.readN s.hostMem k 32) ∧ q.drop 128 = s.sign n 1 (q.take 128)) ∧
      (fenceExists cmd = false → exec (.serviceFence n cmd) s = .next (s.complete n 0x23 j 2 0 0) ∧ exec (.unfence n cmd) s = .next (s.complete n 0x24 j 2 0 0)) ∧
      (fenceExists cmd = true →
        (fenceKind cmd ≠ 3 → (∃ q ∈ fencedQuads n cmd, (s.quad q).job.isSome = true) → exec (.serviceFence n cmd) s = .next (s.complete n 0x23 j 1 0 0)) ∧
        (fenceKind cmd ≠ 3 → (∀ q ∈ fencedQuads n cmd, (s.quad q).job = none) → ∃ t : State, exec (.serviceFence n cmd) s = .next t ∧ t.mem = s.mem ∧
          (fenceKind cmd = 0 → (t.core node).fenced = true ∧ (t.core node).itlb = [] ∧ (t.core node).dtlb = []) ∧ (fenceKind cmd = 4 → (t.core node).patch.fenced = true) ∧
          (fenceKind cmd = 5 → (t.core node).lattice.fenced = true) ∧ (fenceKind cmd = 1 → (t.quad node).fenced = true) ∧
          (fenceKind cmd = 2 → (t.cluster (clusterOf node)).fenced = true ∧ ∀ q ∈ clusterQuads node, (t.quad q).fenced = true)) ∧
        (fenceKind cmd ≠ 3 → ∃ t : State, exec (.unfence n cmd) s = .next t ∧ t.mem = s.mem ∧
          t.agenda = s.agenda ++ (s.modules.filter (fun e => !e.2.waiting.isEmpty)).map (fun e => .placement e.1) ∧
          (fenceKind cmd = 0 → (t.core node).fenced = false) ∧ (fenceKind cmd = 4 → (t.core node).patch.fenced = false) ∧
          (fenceKind cmd = 5 → (t.core node).lattice.fenced = false) ∧ (fenceKind cmd = 1 → (t.quad node).fenced = false) ∧
          (fenceKind cmd = 2 → (t.cluster (clusterOf node)).fenced = false ∧ ∀ q ∈ clusterQuads node, (t.quad q).fenced = false)) ∧
        (fenceKind cmd = 3 → (∃ l ∈ x.lanes, l.1 = fencePort cmd) → (fencePort cmd, fenceLane cmd) ∉ x.lanes → exec (.serviceFence n cmd) s = .next (s.complete n 0x23 j 3 0 0)) ∧
        (fenceKind cmd = 3 → (∀ l ∈ x.lanes, l.1 ≠ fencePort cmd) → ∃ t : State, exec (.serviceFence n cmd) s = .next t ∧
          (t.module n).lanes = x.lanes ++ [(fencePort cmd, fenceLane cmd)])) ∧
      (k ≤ 7 → aget x.recal k = none → ∃ t : State, exec (.recal n cmd) s = .next t ∧ (∀ c ∈ stackCores n k, (t.memCore c).paused = true) ∧
        aget (t.module n).recal k = some [j] ∧ t.agenda = s.agenda ++ [.stackRecalibrationPauseEnd n k] ∧ t.later = s.later ∧ t.mem = s.mem) ∧
      (∀ l, k ≤ 7 → aget x.recal k = some l → ∃ t : State, exec (.recal n cmd) s = .next t ∧ aget (t.module n).recal k = some (l ++ [j]) ∧ t.later = s.later ∧ t.agenda = s.agenda) ∧
      (let bs := (Config.healthBytes (s.errorCounts n)).take 65536
       exec (.health n cmd) s = .next ({ s with hostMem := Memory.writeN s.hostMem k bs }.complete n 0x26 j 0 0 (wordOf bs.length))) ∧
      (let q := queueNodeOf n (fieldOf (cmdB cmd) 34 32)
       ∃ (t : State) (bs : List Byte), exec (.traceout n cmd) s = .next (t.complete n 0x27 j 0 0 (wordOf bs.length)) ∧ bs.length ≤ fieldOf (cmdB cmd) 31 0 ∧
        (t.die q).ringOut = (s.die q).ringOut + bs.length ∧ t.hostMem = Memory.writeN s.hostMem k bs ∧ t.mem = s.mem)) ∧
    (∀ q, aget x.recal (q % 8) = none → ∃ t : State, exec (.recalSchedule n q) s = .next t ∧ (∀ c ∈ stackCores n (q % 8), (t.memCore c).paused = true) ∧
      t.agenda = s.agenda ++ [.stackRecalibrationPauseEnd n (q % 8)] ∧ t.later = s.later ++ [(s.clk + 2 ^ 32, .recalSchedule n ((q + 1) % 8))]) ∧
    (∀ q l, aget x.recal (q % 8) = some l → ∃ t : State, exec (.recalSchedule n q) s = .next t ∧ t.agenda = s.agenda ∧
      t.later = s.later ++ [(s.clk + 2 ^ 32, .recalSchedule n ((q + 1) % 8))]) ∧
    (∀ q, let again := Instr.stackRecalibrationPauseEnd n q
      (aget x.recalEnd q = none → aget x.recal q = none → exec again s = .next s) ∧
      (∀ l, aget x.recalEnd q = none → aget x.recal q = some l → s.stackDrained n q = false → exec again s = .next (s.after 1 (.stackRecalibrationPauseEnd n q))) ∧
      (∀ l, aget x.recalEnd q = none → aget x.recal q = some l → s.stackDrained n q = true → ∃ t : State, exec again s = .next t ∧
        aget (t.module n).recalEnd q = some (s.clk + 131072) ∧ t.later = s.later ++ [(s.clk + 131072, .stackRecalibrationPauseEnd n q)] ∧ t.mem = s.mem) ∧
      (∀ e, aget x.recalEnd q = some e → s.clk < e → exec again s = .next s) ∧
      (∀ e, aget x.recalEnd q = some e → e ≤ s.clk → ∃ t : State, exec again s = .next (t.runCollectives (t.colCount + 1)) ∧ aget (t.module n).recal q = none ∧ aget (t.module n).recalEnd q = none ∧ t.mem = s.mem ∧
        (∀ c ∈ stackCores n q, (t.memCore c).paused = false ∧ (t.memCore c).held = [] ∧ (t.memCore c).walkReads = []) ∧
        ((∀ e ∈ s.modules, e.2.engine.waiting = []) → t.agenda =
          (stackCores n q).flatMap (fun c => (s.memCore c).held.map route ++ (s.memCore c).walkReads.map Event.pageWalkRead) ++ s.agenda)))

open Sys2Proof Sys2Proof.Machine in
/-- R388, R427, R436, R446, R447, R463, R465, R468, R474: POWER_UP puts every unit of its module at its reset value and clears its memory; where no segment is open no other memory changes. A function-level reset ends the module's jobs, those that wait for placement too, and resets the port's registers. THROTTLE and OVER_TEMPERATURE tell the host, and the second closes the module to loads until its dies cool: a LAUNCH or RESTORE waits at the head of its commands with no completion (log 40), and no record is placed. A retried flit changes nothing. A skew measurement gives each die an offset that lies within ERR of the true one, or the nearer limit of OFF with ERR 0xFE, and repeats; die 0 does so for each neighbour module that is present. A replay whose entry stays away diverges, unless it has come meanwhile, or the core has diverged and its job is frozen. A parked system context is resumed at its block, abandoned, or ends where TRAP or BKPT left no block. Where the spec leaves a point of it open, it rests on the choices of logs 40, 41, 42, 45, 46 and 105. -/
def Obligations.PowerAndLinks : Prop :=
  (∀ (s : State) (n : Nat), n < 64 →
    (∃ t : State, exec (.powerUp n) s = .next t ∧ t.module n = {} ∧ t.present = s.present &&& ~~~(1#64 <<< n) ∧
      (∀ a, a / 2 ^ 46 = n → Memory.read t.mem a = 0) ∧
      ((∀ e ∈ s.modules, ∀ k, k < 64 → e.2.engine.segment k = none) → ∀ a, a / 2 ^ 46 ≠ n → Memory.read t.mem a = Memory.read s.mem a) ∧
      (∀ c, nodeModule c = n → t.core c = {} ∧ t.memCore c = {} ∧ t.die c = {} ∧ t.cluster c = {}) ∧
      ∀ c, nodeModule c ≠ n → t.core c = s.core c ∧ t.memCore c = s.memCore c ∧ t.die c = s.die c ∧ t.cluster c = s.cluster c) ∧
    ((∀ c, (s.core c).busy = false) → ∃ t : State, exec (.functionLevelReset n) s = .next t ∧
      let x := t.module n
      x.cmd = {} ∧ x.cpl = {} ∧ x.rx = {} ∧ x.frm = {} ∧ x.umbase = 0 ∧ x.injTail = 0 ∧ x.injHead = 0 ∧ x.inject = [] ∧ x.windows = [] ∧ x.tlb = [] ∧
      x.completions = [] ∧ x.commands = [] ∧ x.hostWait = [] ∧ (∀ e ∈ t.modules, ∀ w ∈ e.2.waiting, (s.job w.1).record.modules.contains n = false ∧ (s.job w.1).port ≠ n) ∧
      x.sealed = (s.module n).sealed ∧ x.running = (s.module n).running ∧
      ∀ j y, aget s.jobs j = some y → y.record.modules.contains n = true → y.status = .resident → (t.job j).status = .ended) ∧
    (∀ on, ∃ t : State, exec (.throttle n on) s = .next (t.complete n 0x87 0 0 0 (wordOf (bitNat on))) ∧ (t.module n).throttled = on ∧ t.mem = s.mem ∧ t.cores = s.cores) ∧
    (∀ d, let u := (s.endJobsOf n).complete n 0x88 0 0 0 (wordOf d)
      exec (.overTemperature n d) s = .next ((u.setModule n { u.module n with hot := true }).recallCommands n)) ∧
    (∀ c r cmd, (s.module n).hot = true → (s.module n).killing = false → (s.module n).commands = c :: r → c = .launch n cmd ∨ c = .restore n cmd →
      (s.nextCommands n).module n = s.module n ∧ (s.nextCommands n).agenda = s.agenda ∧ (s.nextCommands n).hostMem = s.hostMem) ∧
    (∀ d, ∃ t : State, exec (.overTemperature n d) s = .next t ∧ (t.module n).hot = true ∧ (∀ e ∈ t.agenda, ∀ cmd, e ≠ .launch n cmd ∧ e ≠ .restore n cmd) ∧
      ((∀ c, (s.core c).busy = false) → ∀ j y, aget s.jobs j = some y → y.record.modules.contains n = true → y.status = .resident → (t.job j).status = .ended)) ∧
    ((s.module n).commands = [] → ∃ t : State, exec (.diesBelow95c n) s = .next t ∧ (t.module n).hot = false ∧
      t.agenda = s.agenda ++ (s.modules.filter (fun e => !e.2.waiting.isEmpty)).map (fun e => .placement e.1) ∧ t.mem = s.mem) ∧
    ∀ p l, exec (.linkRetry n p l) s = .next s) ∧
  (∀ (s : State) (n d : Nat), n < 64 → d < 8 →
    let c := queueNodeOf n d
    ∃ t : State, exec (.skewMeasurement n d) s = .next t ∧ t.later = s.later ++ [(s.clk + 2 ^ 20, .skewMeasurement n d)] ∧
      (t.die c).skews.length = 8 ∧ (t.die c).skews.getD d 1 = 0 ∧ (d ≠ 0 → (t.die c).mskews = (s.die c).mskews) ∧
      let near (w : Word) (most : Int) (exact : Int) : Prop :=
        let off := signExt (fieldOf w 23 0) 24
        let err : Int := fieldOf w 31 24
        (err ≤ most ∧ exact - err ≤ off ∧ off ≤ exact + err) ∨ (err = 0xFE ∧ ((off = 2 ^ 23 - 1 ∧ 2 ^ 23 - 1 - most < exact) ∨ (off = -2 ^ 23 ∧ exact < -2 ^ 23 + most)))
      (∀ k, k < 8 → near ((t.die c).skews.getD k 0) 4 ((s.die c).start - (s.die (queueNodeOf n k)).start)) ∧
      (d = 0 → ∀ p, p < 6 → s.present.toNat.testBit (neighbour n p) = true →
        near ((t.die c).mskews.getD p 0) 16 ((s.die c).start - (s.die (queueNodeOf (neighbour n p) 0)).start))) ∧
  (∀ (s : State) (c stamp : Nat),
    let ended := ((s.quad c).job.map s.frozen).getD false && flagOf (s.core c).dbg.replayctl 3
    let hit := s.replayHit c (s.core c).dbg.replayPos
    ((s.core c).dbg.replayWait ≠ some stamp ∨ (s.core c).replayMode ≠ 2 ∨ hit.isSome = true ∨ ended = true → exec (.replayTimeout c stamp) s = .next s) ∧
    ((s.core c).dbg.replayWait = some stamp → (s.core c).replayMode = 2 → hit = none → ended = false → ∃ t : State, exec (.replayTimeout c stamp) s = .next t ∧
      flagOf (t.core c).dbg.replayctl 3 = true ∧ (t.core c).dbg.replayWait = none ∧ t.mem = s.mem ∧
      (flagOf (s.core c).dbg.replayctl 2 = true → (t.core c).replayMode = 0) ∧
      (flagOf (s.core c).dbg.replayctl 2 = false → ∀ j, (s.quad c).job = some j → (t.job j).frozen = true))) ∧
  (∀ (s : State) (c : Nat) (a : Bool),
    let x := s.ctx c 10
    (x.status ≠ .parked → exec (.systemContextRelease c a) s = .next s) ∧
    (x.status = .parked → ∃ t : State, exec (.systemContextRelease c a) s = .next t ∧
      (a = true → (t.ctx c 10).status = .free ∨ (t.ctx c 10).status = .draining) ∧
      let ends := (x.invocation.map (fun i => i.finished)).getD false = true ∨ ((x.trap.cause.toNat % 256 = 0x70 ∨ x.trap.cause.toNat % 256 = 0x71) ∧ x.trap.blk = 0)
      (a = false → x.commit = none → ends → (t.ctx c 10).status = .free ∨ (t.ctx c 10).status = .draining) ∧
      (a = false → ¬(x.commit = none ∧ ends) → (t.ctx c 10).status = .live ∧ (t.ctx c 10).pc = x.trap.blk.toNat)))

/-! ## Steps of the device: the seal engine and the collective units -/

open Sys2Proof Sys2Proof.Machine in
/-- R111, R362, R363, R441, R443, R444, R473: a command of the seal engine is acknowledged once, when it is accepted. With nothing ahead at the engine, SEAL.OPEN takes the lowest free segment and answers its handle, or answers status 1 for a buffer that is not the host's to read or write, and 2 where no segment is free. SEAL.FRAME answers why it is refused, or records the frame at the tail of the frame ring, enters it in the manifest and answers the count, with the record's header, the marked luma and the chroma of R441 in the ring and the entry of Table 23-5; it waits while the ring has no room or a stack that it reads is paused. SEAL.CLOSE signs the manifest, writes its bytes by Table 23-5 into the segment's buffer, frees the segment and answers its frames; it waits while a stack that it writes is paused. That OPEN takes the lowest free segment is the model's choice (log 112). A command behind another waits. A command without a result register is answered by nothing else; its performance is reported to its core. Unmarked records are signed when 64 are pending or the oldest is 2^20 clk old. Where the spec leaves a point of it open, it rests on the choices of logs 5, 20 and 112. -/
def Obligations.SealEngineEvents : Prop :=
  (∀ (s : State) (m : Packet),
    let n := nodeModule (destOf m)
    let x := s.module n
    let e := x.engine
    let a := if m.counted then s else s.answer { m with w0 := putField m.w0 38 31 0xE0 } 0
    let reply (t : State) (value status : Nat) : State := (if hidxOf m = 0xE0 then t else t.answer m 0 [engineWord value status 0]).reportPerformed m.src m.tag
    (e.waiting ≠ [] → ∀ i ∈ [Instr.sealOpenPerform m, .sealFramePerform m, .sealClosePerform m],
      ∃ t : State, exec i s = .next t ∧ (t.module n).engine = { e with waiting := e.waiting ++ [{ m with counted := true }] } ∧ t.agenda = a.agenda ∧ t.mem = s.mem ∧ t.hostMem = s.hostMem) ∧
    (e.waiting = [] →
      (let va := (m.payload.getD 1 0).toNat
       let good := a.pagesMeet (jobOf m) va 0x6000 .write (fun p => flagOf p 6)
       (good = false → exec (.sealOpenPerform m) s = .next (reply a 0 1)) ∧
       (good = true → (∀ k, k < 64 → (e.segment k).isSome = true) → exec (.sealOpenPerform m) s = .next (reply a 0 2)) ∧
       (∀ k, good = true → k < 64 → e.segment k = none → (∀ i, i < k → (e.segment i).isSome = true) → ∃ t : State,
         exec (.sealOpenPerform m) s = .next (reply t (k + (e.gens[k]?).getD 0 * 64) 0) ∧
         (t.module n).engine.segment k = some { job := jobOf m, va := va, opened := s.sealTime } ∧ (t.module n).engine.buffers = e.buffers ++ [(jobOf m, va)] ∧
         t.agenda = a.agenda ∧ t.mem = s.mem ∧ t.hostMem = s.hostMem)) ∧
      (s.segmentOf m = none → exec (.sealFramePerform m) s = .next (reply a 0 4) ∧ exec (.sealClosePerform m) s = .next (reply a 0 4)) ∧
      (∀ k g, s.segmentOf m = some (k, g) →
        let f := m.payload.drop 4
        (frameOk f = false → exec (.sealFramePerform m) s = .next (reply a 0 5)) ∧
        (frameOk f = true → 256 ≤ g.frames.length → exec (.sealFramePerform m) s = .next (reply a 0 3)) ∧
        (frameOk f = true → g.frames.length < 256 → a.frameSealed g.job f = false → exec (.sealFramePerform m) s = .next (reply a 0 1)) ∧
        (frameOk f = true → g.frames.length < 256 → a.frameSealed g.job f = true →
          (x.frm.size < x.frm.used + recordBytes f ∨ a.framePaused g.job f = true → ∃ t : State, exec (.sealFramePerform m) s = .next t ∧
            (t.module n).engine.waiting = [{ m with counted := true }] ∧ t.agenda = a.agenda) ∧
          (x.frm.used + recordBytes f ≤ x.frm.size → a.framePaused g.job f = false → ∃ t : State,
            let luma := (rowsOf f (frameLuma f) (frameH f)).flatMap (fun r => a.virtualBytes g.job r (frameRow f))
            let chroma := (rowsOf f (frameChroma f) (frameH f / 2)).flatMap (fun r => a.virtualBytes g.job r (frameRow f))
            let mark := (Config.serial n).toNat % 2 ^ 40 * 2 ^ 88 + g.job % 4096 * 2 ^ 76 + frameIdx f * 2 ^ 44 + s.sealTime
            let marked := withSamples (frameD10 f) luma (embed (fit 32 0 (Config.markKey n)) (frameIdx f) mark (if frameD10 f then 1023 else 255) (samplesOf (frameD10 f) luma))
            let h := sha256 (marked ++ chroma)
            let entry := bytesOfNat 4 (frameIdx f) ++ bytesOfNat 4 (fieldOf (f.getD 2 0) 28 0) ++ bytesOfNat 8 s.sealTime ++ bytesOfNat 16 mark ++ h
            let record := bytesOfNat 4 (fieldOf (m.payload.headD 0) 63 32) ++ bytesOfNat 4 (frameIdx f) ++ bytesOfNat 2 g.frames.length ++ bytesOfNat 6 0 ++
              bytesOfWord (f.getD 2 0) ++ bytesOfNat 8 0 ++ h ++ fit (recordBytes f - 64) 0 (marked ++ chroma)
            exec (.sealFramePerform m) s = .next (reply t (g.frames.length + 1) 0) ∧
            (Memory.wf s.hostMem = true → ∀ i, i < recordBytes f → Memory.read t.hostMem (x.frm.base + (x.frm.tail + i) % x.frm.size) = record.getD i 0) ∧
            (t.module n).engine.segment k = some { g with frames := g.frames ++ [entry] } ∧ (t.module n).frm = { x.frm with tail := (x.frm.tail + recordBytes f) % 2 ^ 32 } ∧
            (t.module n).interrupts = x.interrupts ++ [2] ∧ t.mem = s.mem ∧ t.agenda = a.agenda)) ∧
        (a.closePaused n k g = true → ∃ t : State, exec (.sealClosePerform m) s = .next t ∧ (t.module n).engine = { e with waiting := [{ m with counted := true }] } ∧
          t.agenda = a.agenda ∧ t.mem = s.mem) ∧
        (a.closePaused n k g = false → ∃ t : State,
          let body := bytesOfNat 8 (1 + (Config.serial n).toNat % 2 ^ 40 * 2 ^ 8 + g.job % 4096 * 2 ^ 48) ++ bytesOfNat 8 e.seq ++ e.prev ++ bytesOfNat 8 g.opened ++
            bytesOfNat 8 s.sealTime ++ bytesOfNat 4 ((k + (e.gens[k]?).getD 0 * 64) % 65536 + g.frames.length * 65536) ++ bytesOfNat 4 e.records.length ++
            List.replicate 56 0 ++ g.frames.flatten ++ e.records.flatten
          let bs := body ++ s.sign n 0 body
          (∀ pa, s.walkRun g.job g.va bs.length .write = .ok [(pa, bs.length)] → Memory.wf s.mem = true → anyPoison s pa bs.length = false →
            Memory.readN t.mem pa bs.length = bs ∧ ∀ b, b < pa ∨ pa + bs.length ≤ b → Memory.read t.mem b = Memory.read s.mem b) ∧
          (t.module n).engine.prev = sha256 bs ∧
          exec (.sealClosePerform m) s = .next (reply t g.frames.length 0) ∧ (t.module n).engine.segment k = none ∧ (t.module n).engine.seq = e.seq + 1 ∧ (t.module n).engine.records = [] ∧
          (t.module n).engine.gens[k]? = some (((e.gens[k]?).getD 0 + 1) % 1024) ∧ t.agenda = x.held.map .hostPortReceive ++ a.agenda)))) ∧
  (∀ (s : State) (n : Nat),
    let x := s.module n
    let body := manifestBody (Config.serial n).toNat 0 false true x.engine.seq x.engine.prev s.sealTime s.sealTime 0 [] x.engine.records
    (x.engine.records = [] ∨ (x.engine.records.length < 64 ∧ s.clk < x.engine.oldest + 2 ^ 20) → exec (.unmarkedManifestSign n) s = .next s) ∧
    (x.engine.records ≠ [] → (64 ≤ x.engine.records.length ∨ x.engine.oldest + 2 ^ 20 ≤ s.clk) → ∃ t : State, exec (.unmarkedManifestSign n) s = .next t ∧
      (t.module n).engine.records = [] ∧ (t.module n).engine.seq = x.engine.seq + 1 ∧ (t.module n).engine.prev = sha256 (body ++ s.sign n 0 body) ∧
      (t.module n).umNext = x.umNext + 1 ∧ (t.module n).held = [] ∧
      t.agenda = x.held.map .hostPortReceive ++ s.agenda ∧ t.mem = s.mem))

open Sys2Proof Sys2Proof.Machine in
/-- R111, R355, R438, R439: a unit that holds 16 descriptors, or has one waiting, makes one wait. It accepts any other, and acknowledges it; then each collective whose members have all issued it is performed. Where two members disagree, or an access of one is not allowed, every member is answered so, with its key set and no byte written; else each member's DST takes the broadcast or the all-reduce, and each is answered with status 0. Which descriptors run together where members name other groups is the model's choice (log 47). A member whose access does not translate is answered with status 2, and its issuer's system queue takes the collective notice. A collective that runs has, for each module of GROUP in rank order, the descriptor of that module with its job and SEQ, which is its context's first at its unit. R439: the elements are reduced over the ranks by the pairwise tree, each node rounded to nearest even with gradual underflow; a .bf16 sum is taken in .f32 and rounded once. Where the spec leaves a point of it open, it rests on the choices of log 47. -/
def Obligations.Collectives : Prop :=
  (∀ (s : State) (m : Packet),
    let n := nodeModule (destOf m)
    let x := s.module n
    let a := s.colAccept m
    (16 ≤ x.collectives.length ∨ x.colWaiting ≠ [] → exec (.collectivePerform m) s = .next (s.setModule n { x with colWaiting := x.colWaiting ++ [m] })) ∧
    (x.collectives.length < 16 → x.colWaiting = [] →
      (a.module n).collectives = x.collectives ++ [m] ∧
      a.agenda = s.agenda ++ (if m.counted then [] else [route (answerTo { m with w0 := putField m.w0 38 31 0xE0 } 0 [] false)]) ∧
      exec (.collectivePerform m) s = .next (a.runCollectives (s.colCount + 1)) ∧
      (a.colNext = none → exec (.collectivePerform m) s = .next a) ∧
      (∀ l, a.colNext = some (m, l) → ((a.performCollective m l).colRefill).colNext = none →
        exec (.collectivePerform m) s = .next (a.performCollective m l).colRefill))) ∧
  (∀ (s : State) (m : Packet) (l : List Packet),
    let answers (l : List Packet) (status : Packet → Nat) : List Event :=
      l.flatMap (fun e => (if hidxOf e = 0xE0 then [] else [route (answerTo e 0 [engineWord 0 (status e) 0] false)]) ++ [route (keySetTo e.src (destOf e) (colKey (colDesc e)))])
    (∀ e ∈ l, (s.core e.src).draining = []) →
    (l.all (colAgree m) = false → (s.performCollective m l).agenda = s.agenda ++ answers l (fun _ => 1) ∧ (s.performCollective m l).mem = s.mem) ∧
    (l.all (colAgree m) = true → l.all s.colReady = false → (s.performCollective m l).mem = s.mem ∧
      (s.performCollective m l).agenda = s.agenda ++ answers l (fun e => if s.colReady e then 3 else 2) ∧
      (∀ e ∈ l, s.colReady e = false → let c := (s.performCollective m l).core e.src; SysEntry.notice 0x80 e.ctx 0 0 [] ∈ c.sysq ++ c.sysHeld)) ∧
    (l.all (colAgree m) = true → l.all s.colReady = true →
      let d := colDesc m
      let result := if colIsBc m then ((l.find? (fun e => nodeModule (destOf e) == colRoot d)).map s.colBytesOf).getD []
        else reduceBytes (colType d) (colOp d) (colBytes d) (l.map s.colBytesOf)
      (s.performCollective m l).agenda = s.agenda ++ answers l (fun _ => 0) ∧
        ∀ pa : Packet → Nat, Memory.wf s.mem = true → (∀ e ∈ l, s.colRuns e (colDst (colDesc e)) true = some [(pa e, result.length)]) →
          (∀ e ∈ l, anyPoison s (pa e) result.length = false) → (∀ e ∈ l, ∀ f ∈ l, pa e = pa f ∨ pa e + result.length ≤ pa f ∨ pa f + result.length ≤ pa e) →
          (∀ e ∈ l, Memory.readN (s.performCollective m l).mem (pa e) result.length = result) ∧
          ∀ b, (∀ e ∈ l, b < pa e ∨ pa e + result.length ≤ b) → Memory.read (s.performCollective m l).mem b = Memory.read s.mem b)) ∧
  (∀ (s : State) (m : Packet) (l : List Packet), s.colNext = some (m, l) →
    let ms := setBits (colGroup (colDesc m)).toNat 64
    m ∈ l ∧ l.length = ms.length ∧ ∀ (i k : Nat) (e : Packet), ms[i]? = some k → l[i]? = some e →
      e ∈ (s.module k).collectives ∧ jobOf e = jobOf m ∧ colSeq (colDesc e) = colSeq (colDesc m) ∧
      (s.module k).collectives.find? (fun f => f.src == e.src && f.ctx == e.ctx && destOf f == destOf e) = some e) ∧
  (∀ (type op n : Nat) (l : List (List Byte)), type < 4 → op < 3 → l.length ≤ 64 →
    let w := if type = 1 then 2 else 4
    let rne : FpMode := { rm := 0, ftz := false }
    let wide := type = 1 ∧ op = 0
    let node (x y : Nat) : Nat :=
      if op = 0 then (if type < 2 then (f32.add rne false x y).1 else (x + y) % 2 ^ 32)
      else (elementMinMax (if type = 0 then 0 else if type = 1 then 1 else if type = 2 then 3 else 4) (op == 1) x y).1
    let join (x y : Option Nat) : Option Nat := match x, y with
      | some x, some y => some (node x y)
      | none, y => y
      | x, none => x
    ∀ k, k < n / w → ∃ tree : Nat → Nat → Option Nat,
      (∀ r, r < 64 → tree 0 r = (l[r]?).map (fun bs => let v := numAt bs (w * k) w; if wide then (convertElement rne 1 0 v).1 else v)) ∧
      (∀ i j, i < 6 → j < 2 ^ (5 - i) → tree (i + 1) j = join (tree i (2 * j)) (tree i (2 * j + 1))) ∧
      let v := (tree 6 0).getD 0
      ((reduceBytes type op n l).drop (w * k)).take w = bytesOfNat w (if wide then (convertElement rne 0 1 v).1 else v))
end

