-- ==== Sys2Proof/Laws/Issue.lean ====
section
/-! SUPPORT. What the shared course of an instruction does: one lemma for each way it can go. -/

namespace Sys2Proof.Machine

/-- The trap mark of an operand does not name another register. -/
@[simp] theorem stateOf_gsrc (r : Regs) {n : Nat} (x : BitVec n) : r.stateOf (gsrc x) = r.stateOf (rg x) := rfl
@[simp] theorem stateOf_gsrcE (r : Regs) {n : Nat} (x : BitVec n) (e : BitVec 1) : r.stateOf (gsrcE x e) = r.stateOf (rg x) := rfl
@[simp] theorem stateOf_vsrc (r : Regs) {n : Nat} (x : BitVec n) : r.stateOf (vsrc x) = r.stateOf (rv x) := rfl
@[simp] theorem stateOf_vsrcE (r : Regs) {n : Nat} (x : BitVec n) (e : BitVec 1) : r.stateOf (vsrcE x e) = r.stateOf (rv x) := rfl

theorem checkSource_all_full (r : Regs) (op : Nat) (l : List Operand) (h : ∀ o ∈ l, r.stateOf o = .full) :
    l.forM (r.checkSource op) = .ok () := by
  induction l with
  | nil => rfl
  | cons o l ih =>
    have hc : r.checkSource op o = .ok () := by simp [Regs.checkSource, h o (by simp)]
    show (r.checkSource op o >>= fun _ => l.forM (r.checkSource op)) = .ok ()
    rw [hc]
    exact ih (fun o ho => h o (by simp [ho]))

theorem checkSources_of_full (r : Regs) (op : Nat) (l : List Operand) (h : ∀ o ∈ l, r.stateOf o = .full) :
    r.checkSources op l = .ok () := by
  have hf : l.find? (fun o => (r.stateOf o).isOwn) = none := by
    simp only [List.find?_eq_none]; intro o ho; simp [h o ho, RegState.isOwn]
  simp only [Regs.checkSources, hf]
  exact checkSource_all_full r op l h

theorem checkDests_of_ready (r : Regs) (l : List Operand) (h : ∀ o ∈ l, (r.stateOf o).isEmpty = false) :
    r.checkDests l = .ok () := by
  have : l.any (fun o => (r.stateOf o).isEmpty) = false := by
    simp only [List.any_eq_false]; intro o ho; simp [h o ho]
  simp [Regs.checkDests, this]

/-- A qualified-off instruction only advances (R186). -/
theorem issue_off {s : State} {p : BitVec 4} {op : Nat} {srcs dsts : List Operand} {body : State → Res State}
    (h : s.regs.qualified p = false) : s.issue p op srcs dsts body = .next s.advance := by
  simp [State.issue, h]

/-- An instruction whose operands are ready does its own work. -/
theorem issue_on {s : State} {p : BitVec 4} {op : Nat} {srcs dsts : List Operand} {body : State → Res State}
    (h : On s p srcs dsts) : s.issue p op srcs dsts body = .next (s.settle (body s)) := by
  obtain ⟨hq, hs, hd⟩ := h
  simp only [State.issue, hq, if_true, checkSources_of_full _ _ _ hs, checkDests_of_ready _ _ hd]
  cases body s <;> rfl

/-- An instruction with no active lane only advances (R187). -/
theorem issueLanes_off {s : State} {p : BitVec 4} {op : Nat} {srcs dsts : List Operand} {body : Lane → State → Res State}
    (h : s.regs.laneMask p = 0) : s.issueLanes p op srcs dsts body = .next s.advance := by
  simp [State.issueLanes, h]

/-- A lane-masked instruction whose operands are ready does its own work on its active lanes. -/
theorem issueLanes_on {s : State} {p : BitVec 4} {op : Nat} {srcs dsts : List Operand} {body : Lane → State → Res State}
    (h : Lanes s p srcs dsts) : s.issueLanes p op srcs dsts body = .next (s.settle (body (s.regs.laneMask p) s)) := by
  obtain ⟨hq, hs, hd⟩ := h
  simp only [State.issueLanes, hq, if_false, checkSources_of_full _ _ _ hs, checkDests_of_ready _ _ hd]
  cases body (s.regs.laneMask p) s <;> rfl

/-- A privileged instruction of the system context takes the common course (R351). -/
theorem issuePriv_system {s : State} {p : BitVec 4} {op : Nat} {srcs dsts : List Operand} {body : State → Res State}
    (h : s.isSystem = true) : s.issuePriv p op srcs dsts body = s.issue p op srcs dsts body := by
  simp [State.issuePriv, h]

/-- A privileged instruction of a handler context raises the privilege fault (R195, R351). -/
theorem issuePriv_handler {s : State} {p : BitVec 4} {op : Nat} {srcs dsts : List Operand} {body : State → Res State}
    (hq : s.regs.qualified p = true) (h : s.isSystem = false) :
    s.issuePriv p op srcs dsts body = .next (s.settle (.error (.trap 0x02 none none))) := by
  simp [State.issuePriv, h, hq]

/-- What settling answers is a completed instruction for a result. -/
@[simp] theorem settle_ok (s t : State) : s.settle (.ok t) = t.advance := rfl

@[simp] theorem settle_wait (s : State) : s.settle (.error .wait) = s.passOver := rfl

/-- A write of one g register completes (R200). -/
theorem issueG_on {s : State} {p : BitVec 4} {op : Nat} {srcs : List Operand} {d : BitVec 5} {f : State → Word}
    (h : On s p srcs [rg d]) : s.issueG p op srcs d f = .next (s.wroteG d (f s)) := by
  rw [State.issueG, issue_on h]; rfl

/-- A write of one predicate completes (R200). -/
theorem issueP_on {s : State} {p : BitVec 4} {op : Nat} {srcs : List Operand} {d : BitVec 3} {f : State → Bool}
    (h : On s p srcs []) : s.issueP p op srcs d f = .next (s.wroteP d (f s)) := by
  rw [State.issueP, issue_on h]; rfl

/-- A buffered effect for which there is room joins the block (R116). -/
theorem buffer_room {s : State} {e : Effect} (h : Room s e.entries) :
    s.buffer e = .ok (s.onBlock (fun b => { b with effects := b.effects ++ [e] })) := by
  have : ¬ entriesOf s.me.retire + entriesOf s.block.effects + e.entries > 512 := by
    simp only [Room] at h; omega
  simp [State.buffer, this]

theorem checkAcquire_unheld {s : State} (h : Unheld s) : s.me.checkAcquire = .ok () := by
  simp [Ctx.checkAcquire, h]

end Sys2Proof.Machine
end

