-- ==== Sys2Proof/Laws/Maps.lean ====
section
/-! SUPPORT. Sparse maps, and the parts of the state that stand in them: what is read after an update. -/

namespace Sys2Proof.Machine

@[simp] theorem aget_aset_same {α : Type} (m : List (Nat × α)) (n : Nat) (x : α) : aget (aset m n x) n = some x := by
  induction m with
  | nil => simp [aset, aget]
  | cons e r ih =>
    obtain ⟨k, v⟩ := e
    simp only [aset]
    split
    · simp [aget]
    · split
      · simp [aget]
      · next hk => simp [aget, hk, ih]

theorem aget_aset_ne {α : Type} (m : List (Nat × α)) {n k : Nat} (x : α) (h : k ≠ n) : aget (aset m n x) k = aget m k := by
  induction m with
  | nil => simp [aset, aget, Ne.symm h]
  | cons e r ih =>
    obtain ⟨j, v⟩ := e
    simp only [aset]
    split
    · simp [aget, Ne.symm h]
    · split
      · next hj => subst hj; simp [aget, Ne.symm h]
      · simp only [aget, ih]

/-- The later of two updates of one key stands. -/
@[simp] theorem aset_aset {α : Type} (m : List (Nat × α)) (n : Nat) (x y : α) : aset (aset m n x) n y = aset m n y := by
  induction m with
  | nil => simp [aset]
  | cons e r ih =>
    obtain ⟨j, v⟩ := e
    simp only [aset]
    split
    · simp [aset]
    · split
      · simp [aset]
      · next h1 h2 => simp [aset, h1, h2, ih]

@[simp] theorem agetD_aset_same {α : Type} (m : List (Nat × α)) (n : Nat) (x d : α) : agetD (aset m n x) n d = x := by simp [agetD]

theorem agetD_aset_ne {α : Type} (m : List (Nat × α)) {n k : Nat} (x d : α) (h : k ≠ n) : agetD (aset m n x) k d = agetD m k d := by
  simp [agetD, aget_aset_ne m x h]

theorem aget_filter_key {α : Type} (m : List (Nat × α)) (p : Nat → Bool) (k : Nat) :
    aget (m.filter (fun e => p e.1)) k = if p k then aget m k else none := by
  induction m with
  | nil => simp [aget]
  | cons e r ih =>
    obtain ⟨j, v⟩ := e
    simp only [List.filter]
    split
    · next hp =>
      simp only [aget, ih]
      by_cases hj : j = k
      · subst hj; simp [hp]
      · simp [hj]
    · next hp =>
      rw [ih]
      by_cases hj : j = k
      · subst hj; simp [hp]
      · simp [aget, hj]

/-! Cores and contexts. -/

@[simp] theorem core_setCore_same (s : State) (n : Nat) (c : Core) : (s.setCore n c).core n = c := by simp [State.core, State.setCore]

theorem core_setCore_ne (s : State) {n k : Nat} (c : Core) (h : k ≠ n) : (s.setCore n c).core k = s.core k := by
  simp [State.core, State.setCore, agetD_aset_ne _ _ _ h]

@[simp] theorem ctx_setCtx_core (c : Core) {k : Nat} (x : Ctx) (h : k < 11) : (c.setCtx k x).ctx k = x := by
  simp [Core.ctx, Core.setCtx, h]

theorem ctx_setCtx_ne (c : Core) {k j : Nat} (x : Ctx) (h : j ≠ k) : (c.setCtx k x).ctx j = c.ctx j := by
  simp [Core.ctx, Core.setCtx, Ne.symm h]

@[simp] theorem ctx_setCtx_same (s : State) (n : Nat) {k : Nat} (x : Ctx) (h : k < 11) : (s.setCtx n k x).ctx n k = x := by
  simp [State.ctx, State.setCtx, h]

theorem me_setMe (s : State) (x : Ctx) (h : s.curCtx < 11) : (s.setMe x).me = x := by
  show (s.setCtx s.cur s.curCtx x).ctx s.cur s.curCtx = x
  simp [h]

/-! Registers. -/

theorem greg_putReg_same (r : Regs) {n : Nat} (x : Reg) (h : n < 32) : (r.putReg n x).greg n = x := by
  simp [Regs.greg, Regs.putReg, h]

theorem greg_putReg_ne (r : Regs) {n k : Nat} (x : Reg) (h : k ≠ n) : (r.putReg n x).greg k = r.greg k := by
  simp [Regs.greg, Regs.putReg, Ne.symm h]

/-- A g register other than g0 takes what is written (R181). -/
theorem gval_setG_same (r : Regs) {n : Nat} (w : Word) (h0 : n ≠ 0) (h : n < 32) : (r.setG n w).gval n = w := by
  simp [Regs.gval, Regs.setG, h0, greg_putReg_same r _ h]

/-- A write of g0 is discarded (R181). -/
@[simp] theorem setG_zero (r : Regs) (w : Word) : r.setG 0 w = r := rfl

@[simp] theorem gval_zero (r : Regs) : r.gval 0 = 0 := rfl

theorem gval_setG_ne (r : Regs) {n k : Nat} (w : Word) (h : k ≠ n) : (r.setG n w).gval k = r.gval k := by
  by_cases h0 : n = 0
  · subst h0; rfl
  · simp [Regs.gval, Regs.setG, h0, greg_putReg_ne r _ h]

end Sys2Proof.Machine
end

