-- ==== Sys2Proof/Laws/Memory.lean ====
section
/-! SUPPORT. The memory: every operation keeps its canonical form, and what a read gives after a write. -/

namespace Sys2Proof.Machine

/-! The canonical form. -/

theorem Memory.above_mono {m : Memory} {a b : Nat} (h : b ≤ a) (hm : Memory.above a m = true) : Memory.above b m = true := by
  cases m with
  | nil => rfl
  | cons c r =>
    obtain ⟨k, v⟩ := c
    simp only [Memory.above, Bool.and_eq_true, decide_eq_true_eq] at hm ⊢
    exact ⟨⟨by omega, hm.1.2⟩, hm.2⟩

theorem Memory.above_write {m : Memory} {n a : Nat} (b : Byte) (hn : n ≤ a) (hm : Memory.above n m = true) :
    Memory.above n (Memory.write m a b) = true := by
  induction m generalizing n with
  | nil => by_cases hb : b = Memory.unlisted <;> simp [Memory.write, Memory.above, hb, hn]
  | cons c r ih =>
    obtain ⟨k, v⟩ := c
    have h0 := hm
    simp only [Memory.above, Bool.and_eq_true, decide_eq_true_eq] at hm
    obtain ⟨⟨h1, h2⟩, h3⟩ := hm
    simp only [Memory.write]
    split
    · next hk =>
      split
      · exact h0
      · next hb =>
        simp only [Memory.above, Bool.and_eq_true, decide_eq_true_eq, bne_iff_ne, ne_eq]
        exact ⟨⟨hn, hb⟩, ⟨⟨by omega, by simpa using h2⟩, h3⟩⟩
    · split
      · next hk =>
        split
        · exact Memory.above_mono (by omega) h3
        · next hb =>
          subst hk
          simp only [Memory.above, Bool.and_eq_true, decide_eq_true_eq, bne_iff_ne, ne_eq]
          exact ⟨⟨hn, hb⟩, h3⟩
      · simp only [Memory.above, Bool.and_eq_true, decide_eq_true_eq]
        exact ⟨⟨h1, h2⟩, ih (by omega) h3⟩

/-- A write keeps the canonical form. -/
theorem Memory.wf_write {m : Memory} (a : Nat) (b : Byte) (h : Memory.wf m = true) : Memory.wf (Memory.write m a b) = true :=
  Memory.above_write b (Nat.zero_le a) h

/-- A run of writes keeps the canonical form. -/
theorem Memory.wf_writeN {m : Memory} (a : Nat) (l : List Byte) (h : Memory.wf m = true) : Memory.wf (Memory.writeN m a l) = true := by
  induction l generalizing m a with
  | nil => exact h
  | cons b r ih => exact ih (a + 1) (Memory.wf_write a b h)

theorem Memory.wf_writeWord {m : Memory} (a : Nat) (w : Word) (h : Memory.wf m = true) : Memory.wf (Memory.writeWord m a w) = true :=
  Memory.wf_writeN a _ h

theorem Memory.above_filter {m : Memory} {n : Nat} (p : Nat × Byte → Bool) (h : Memory.above n m = true) : Memory.above n (m.filter p) = true := by
  induction m generalizing n with
  | nil => rfl
  | cons c r ih =>
    obtain ⟨k, v⟩ := c
    simp only [Memory.above, Bool.and_eq_true, decide_eq_true_eq] at h
    simp only [List.filter]
    split
    · simp only [Memory.above, Bool.and_eq_true, decide_eq_true_eq]
      exact ⟨h.1, ih h.2⟩
    · exact Memory.above_mono (by omega) (ih h.2)

/-- Clearing a run of bytes keeps the canonical form. -/
theorem Memory.wf_clear {m : Memory} (a n : Nat) (h : Memory.wf m = true) : Memory.wf (Memory.clear m a n) = true :=
  Memory.above_filter _ h

/-- Writes that a fold makes keep the canonical form. -/
theorem Memory.wf_foldl_write {α : Type} (l : List α) (f : α → Nat) (g : α → Byte) {m : Memory} (h : Memory.wf m = true) :
    Memory.wf (l.foldl (fun m k => Memory.write m (f k) (g k)) m) = true := by
  induction l generalizing m with
  | nil => exact h
  | cons a r ih => exact ih (Memory.wf_write _ _ h)

/-! Reads after writes. -/

/-- No byte below the least listed address is listed. -/
theorem Memory.read_below {m : Memory} {n a : Nat} (ha : a < n) (h : Memory.above n m = true) : Memory.read m a = Memory.unlisted := by
  induction m generalizing n with
  | nil => rfl
  | cons c r ih =>
    obtain ⟨k, v⟩ := c
    simp only [Memory.above, Bool.and_eq_true, decide_eq_true_eq] at h
    have hk : k ≠ a := by omega
    simp only [Memory.read, hk, if_false]
    exact ih (by omega) h.2

theorem Memory.read_write_same_above {m : Memory} {n : Nat} (a : Nat) (b : Byte) (h : Memory.above n m = true) :
    Memory.read (Memory.write m a b) a = b := by
  induction m generalizing n with
  | nil => by_cases hb : b = Memory.unlisted <;> simp [Memory.write, Memory.read, hb]
  | cons c r ih =>
    obtain ⟨k, v⟩ := c
    simp only [Memory.above, Bool.and_eq_true, decide_eq_true_eq] at h
    simp only [Memory.write]
    split
    · next hk =>
      split
      · next hb =>
        have hne : k ≠ a := by omega
        simp only [Memory.read, hne, if_false, hb]
        exact Memory.read_below (n := k + 1) (by omega) h.2
      · simp [Memory.read]
    · split
      · next hk =>
        split
        · next hb => rw [hb]; exact Memory.read_below (n := k + 1) (by omega) h.2
        · simp [Memory.read]
      · next hk => simp only [Memory.read, hk, if_false]; exact ih h.2

/-- A byte reads as it was written. -/
theorem Memory.read_write_same {m : Memory} (a : Nat) (b : Byte) (h : Memory.wf m = true) : Memory.read (Memory.write m a b) a = b :=
  Memory.read_write_same_above a b h

/-- A write leaves every other byte alone. -/
theorem Memory.read_write_ne (m : Memory) {a c : Nat} (b : Byte) (h : c ≠ a) : Memory.read (Memory.write m a b) c = Memory.read m c := by
  induction m with
  | nil => by_cases hb : b = Memory.unlisted <;> simp [Memory.write, Memory.read, hb, Ne.symm h]
  | cons e r ih =>
    obtain ⟨k, v⟩ := e
    simp only [Memory.write]
    split
    · split
      · rfl
      · simp [Memory.read, Ne.symm h]
    · split
      · next hk =>
        subst hk
        split <;> simp [Memory.read, Ne.symm h]
      · simp only [Memory.read, ih]

/-- A run of writes leaves every byte outside it alone. -/
theorem Memory.read_writeN_outside (m : Memory) {a c : Nat} (l : List Byte) (h : c < a ∨ a + l.length ≤ c) :
    Memory.read (Memory.writeN m a l) c = Memory.read m c := by
  induction l generalizing m a with
  | nil => rfl
  | cons b r ih =>
    simp only [List.length_cons] at h
    rw [Memory.writeN, ih _ (by omega), Memory.read_write_ne _ _ (by omega)]

/-- A run of bytes reads as it was written. -/
theorem Memory.read_writeN {m : Memory} (a : Nat) (l : List Byte) (h : Memory.wf m = true) {k : Nat} (hk : k < l.length) :
    Memory.read (Memory.writeN m a l) (a + k) = l.getD k 0 := by
  induction l generalizing m a k with
  | nil => simp at hk
  | cons b r ih =>
    rw [Memory.writeN]
    cases k with
    | zero => rw [Memory.read_writeN_outside _ _ (by omega), Nat.add_zero, Memory.read_write_same _ _ h]; rfl
    | succ k =>
      have := ih (m := Memory.write m a b) (a := a + 1) (k := k) (Memory.wf_write _ _ h) (by simpa using hk)
      rw [show a + (k + 1) = a + 1 + k by omega, this]; rfl

theorem Memory.readN_length (m : Memory) (a n : Nat) : (Memory.readN m a n).length = n := by
  induction n generalizing a with
  | zero => rfl
  | succ n ih => simp [Memory.readN, ih]

/-- A run read back after it was written. -/
theorem Memory.readN_writeN {m : Memory} (a : Nat) (l : List Byte) (h : Memory.wf m = true) :
    Memory.readN (Memory.writeN m a l) a l.length = l := by
  induction l generalizing m a with
  | nil => rfl
  | cons b r ih =>
    simp only [List.length_cons, Memory.readN, Memory.writeN]
    rw [ih _ (Memory.wf_write _ _ h), Memory.read_writeN_outside _ _ (by omega), Memory.read_write_same _ _ h]

/-- What a clear leaves. -/
theorem Memory.read_clear (m : Memory) (a n c : Nat) :
    Memory.read (Memory.clear m a n) c = if a ≤ c ∧ c < a + n then Memory.unlisted else Memory.read m c := by
  induction m with
  | nil => simp [Memory.clear, Memory.read]
  | cons e r ih =>
    obtain ⟨k, v⟩ := e
    simp only [Memory.clear] at ih ⊢
    simp only [List.filter]
    split
    · next hp =>
      simp only [Bool.or_eq_true, decide_eq_true_eq] at hp
      simp only [Memory.read, ih]
      by_cases hk : k = c
      · subst hk; simp only [if_true]; rw [if_neg (by omega)]
      · simp [hk]
    · next hp =>
      simp only [Bool.or_eq_false_iff, decide_eq_false_iff_not] at hp
      rw [ih]
      by_cases hk : k = c
      · subst hk; rw [if_pos (by omega), if_pos (by omega)]
      · simp [Memory.read, hk]

end Sys2Proof.Machine
end

