-- ==== Sys2Proof/Laws/PerInstr.lean ====
section
/-! SUPPORT. Laws about every instruction as syntax, one lemma for each constructor. -/

/-- An instruction has a word of 32 bits, or is a step of the device, which has none and which an event names. -/
def Sys2Proof.Laws.Encoding.Statement (i : Sys2Proof.Instr) : Prop :=
  (Sys2Proof.encode i).isSome = true ∨
    (Sys2Proof.encode i = none ∧ ∃ e : Sys2Proof.Machine.Event, ∀ s, Sys2Proof.Machine.perform e s = Sys2Proof.Machine.exec i s)

theorem Sys2Proof.Laws.Encoding.nop (x0) : Sys2Proof.Laws.Encoding.Statement (.nop x0) := .inl rfl
theorem Sys2Proof.Laws.Encoding.exit (x0 x1 x2) : Sys2Proof.Laws.Encoding.Statement (.exit x0 x1 x2) := .inl rfl
theorem Sys2Proof.Laws.Encoding.call (x0 x1 x2) : Sys2Proof.Laws.Encoding.Statement (.call x0 x1 x2) := .inl rfl
theorem Sys2Proof.Laws.Encoding.ret (x0 x1) : Sys2Proof.Laws.Encoding.Statement (.ret x0 x1) := .inl rfl
theorem Sys2Proof.Laws.Encoding.loop (x0 x1 x2) : Sys2Proof.Laws.Encoding.Statement (.loop x0 x1 x2) := .inl rfl
theorem Sys2Proof.Laws.Encoding.done (x0) : Sys2Proof.Laws.Encoding.Statement (.done x0) := .inl rfl
theorem Sys2Proof.Laws.Encoding.commit (x0) : Sys2Proof.Laws.Encoding.Statement (.commit x0) := .inl rfl
theorem Sys2Proof.Laws.Encoding.yield (x0 x1) : Sys2Proof.Laws.Encoding.Statement (.yield x0 x1) := .inl rfl
theorem Sys2Proof.Laws.Encoding.trap (x0 x1 x2) : Sys2Proof.Laws.Encoding.Statement (.trap x0 x1 x2) := .inl rfl
theorem Sys2Proof.Laws.Encoding.bkpt (x0 x1) : Sys2Proof.Laws.Encoding.Statement (.bkpt x0 x1) := .inl rfl
theorem Sys2Proof.Laws.Encoding.waitf (x0 x1 x2) : Sys2Proof.Laws.Encoding.Statement (.waitf x0 x1 x2) := .inl rfl
theorem Sys2Proof.Laws.Encoding.empty (x0 x1 x2 x3) : Sys2Proof.Laws.Encoding.Statement (.empty x0 x1 x2 x3) := .inl rfl
theorem Sys2Proof.Laws.Encoding.exitr (x0 x1 x2) : Sys2Proof.Laws.Encoding.Statement (.exitr x0 x1 x2) := .inl rfl
theorem Sys2Proof.Laws.Encoding.callr (x0 x1 x2) : Sys2Proof.Laws.Encoding.Statement (.callr x0 x1 x2) := .inl rfl
theorem Sys2Proof.Laws.Encoding.add (x0 x1 x2 x3 x4 x5) : Sys2Proof.Laws.Encoding.Statement (.add x0 x1 x2 x3 x4 x5) := .inl rfl
theorem Sys2Proof.Laws.Encoding.addi (x0 x1 x2 x3) : Sys2Proof.Laws.Encoding.Statement (.addi x0 x1 x2 x3) := .inl rfl
theorem Sys2Proof.Laws.Encoding.sub (x0 x1 x2 x3 x4 x5) : Sys2Proof.Laws.Encoding.Statement (.sub x0 x1 x2 x3 x4 x5) := .inl rfl
theorem Sys2Proof.Laws.Encoding.mul (x0 x1 x2 x3 x4 x5) : Sys2Proof.Laws.Encoding.Statement (.mul x0 x1 x2 x3 x4 x5) := .inl rfl
theorem Sys2Proof.Laws.Encoding.muli (x0 x1 x2 x3) : Sys2Proof.Laws.Encoding.Statement (.muli x0 x1 x2 x3) := .inl rfl
theorem Sys2Proof.Laws.Encoding.mulh (x0 x1 x2 x3 x4 x5) : Sys2Proof.Laws.Encoding.Statement (.mulh x0 x1 x2 x3 x4 x5) := .inl rfl
theorem Sys2Proof.Laws.Encoding.mulhn (x0 x1 x2 x3 x4 x5) : Sys2Proof.Laws.Encoding.Statement (.mulhn x0 x1 x2 x3 x4 x5) := .inl rfl
theorem Sys2Proof.Laws.Encoding.div (x0 x1 x2 x3 x4 x5) : Sys2Proof.Laws.Encoding.Statement (.div x0 x1 x2 x3 x4 x5) := .inl rfl
theorem Sys2Proof.Laws.Encoding.divn (x0 x1 x2 x3 x4 x5) : Sys2Proof.Laws.Encoding.Statement (.divn x0 x1 x2 x3 x4 x5) := .inl rfl
theorem Sys2Proof.Laws.Encoding.rem (x0 x1 x2 x3 x4 x5) : Sys2Proof.Laws.Encoding.Statement (.rem x0 x1 x2 x3 x4 x5) := .inl rfl
theorem Sys2Proof.Laws.Encoding.remn (x0 x1 x2 x3 x4 x5) : Sys2Proof.Laws.Encoding.Statement (.remn x0 x1 x2 x3 x4 x5) := .inl rfl
theorem Sys2Proof.Laws.Encoding.and (x0 x1 x2 x3 x4 x5) : Sys2Proof.Laws.Encoding.Statement (.and x0 x1 x2 x3 x4 x5) := .inl rfl
theorem Sys2Proof.Laws.Encoding.andi (x0 x1 x2 x3) : Sys2Proof.Laws.Encoding.Statement (.andi x0 x1 x2 x3) := .inl rfl
theorem Sys2Proof.Laws.Encoding.andn (x0 x1 x2 x3 x4 x5) : Sys2Proof.Laws.Encoding.Statement (.andn x0 x1 x2 x3 x4 x5) := .inl rfl
theorem Sys2Proof.Laws.Encoding.or (x0 x1 x2 x3 x4 x5) : Sys2Proof.Laws.Encoding.Statement (.or x0 x1 x2 x3 x4 x5) := .inl rfl
theorem Sys2Proof.Laws.Encoding.ori (x0 x1 x2 x3) : Sys2Proof.Laws.Encoding.Statement (.ori x0 x1 x2 x3) := .inl rfl
theorem Sys2Proof.Laws.Encoding.xor (x0 x1 x2 x3 x4 x5) : Sys2Proof.Laws.Encoding.Statement (.xor x0 x1 x2 x3 x4 x5) := .inl rfl
theorem Sys2Proof.Laws.Encoding.xori (x0 x1 x2 x3) : Sys2Proof.Laws.Encoding.Statement (.xori x0 x1 x2 x3) := .inl rfl
theorem Sys2Proof.Laws.Encoding.shl (x0 x1 x2 x3 x4 x5) : Sys2Proof.Laws.Encoding.Statement (.shl x0 x1 x2 x3 x4 x5) := .inl rfl
theorem Sys2Proof.Laws.Encoding.shli (x0 x1 x2 x3) : Sys2Proof.Laws.Encoding.Statement (.shli x0 x1 x2 x3) := .inl rfl
theorem Sys2Proof.Laws.Encoding.shr (x0 x1 x2 x3 x4 x5) : Sys2Proof.Laws.Encoding.Statement (.shr x0 x1 x2 x3 x4 x5) := .inl rfl
theorem Sys2Proof.Laws.Encoding.shri (x0 x1 x2 x3) : Sys2Proof.Laws.Encoding.Statement (.shri x0 x1 x2 x3) := .inl rfl
theorem Sys2Proof.Laws.Encoding.sar (x0 x1 x2 x3 x4 x5) : Sys2Proof.Laws.Encoding.Statement (.sar x0 x1 x2 x3 x4 x5) := .inl rfl
theorem Sys2Proof.Laws.Encoding.sari (x0 x1 x2 x3) : Sys2Proof.Laws.Encoding.Statement (.sari x0 x1 x2 x3) := .inl rfl
theorem Sys2Proof.Laws.Encoding.rot (x0 x1 x2 x3 x4 x5) : Sys2Proof.Laws.Encoding.Statement (.rot x0 x1 x2 x3 x4 x5) := .inl rfl
theorem Sys2Proof.Laws.Encoding.min (x0 x1 x2 x3 x4 x5) : Sys2Proof.Laws.Encoding.Statement (.min x0 x1 x2 x3 x4 x5) := .inl rfl
theorem Sys2Proof.Laws.Encoding.max (x0 x1 x2 x3 x4 x5) : Sys2Proof.Laws.Encoding.Statement (.max x0 x1 x2 x3 x4 x5) := .inl rfl
theorem Sys2Proof.Laws.Encoding.minn (x0 x1 x2 x3 x4 x5) : Sys2Proof.Laws.Encoding.Statement (.minn x0 x1 x2 x3 x4 x5) := .inl rfl
theorem Sys2Proof.Laws.Encoding.maxn (x0 x1 x2 x3 x4 x5) : Sys2Proof.Laws.Encoding.Statement (.maxn x0 x1 x2 x3 x4 x5) := .inl rfl
theorem Sys2Proof.Laws.Encoding.abs (x0 x1 x2 x3) : Sys2Proof.Laws.Encoding.Statement (.abs x0 x1 x2 x3) := .inl rfl
theorem Sys2Proof.Laws.Encoding.clz (x0 x1 x2 x3) : Sys2Proof.Laws.Encoding.Statement (.clz x0 x1 x2 x3) := .inl rfl
theorem Sys2Proof.Laws.Encoding.ctz (x0 x1 x2 x3) : Sys2Proof.Laws.Encoding.Statement (.ctz x0 x1 x2 x3) := .inl rfl
theorem Sys2Proof.Laws.Encoding.popc (x0 x1 x2 x3) : Sys2Proof.Laws.Encoding.Statement (.popc x0 x1 x2 x3) := .inl rfl
theorem Sys2Proof.Laws.Encoding.bfx (x0 x1 x2 x3 x4 x5) : Sys2Proof.Laws.Encoding.Statement (.bfx x0 x1 x2 x3 x4 x5) := .inl rfl
theorem Sys2Proof.Laws.Encoding.bfxs (x0 x1 x2 x3 x4 x5) : Sys2Proof.Laws.Encoding.Statement (.bfxs x0 x1 x2 x3 x4 x5) := .inl rfl
theorem Sys2Proof.Laws.Encoding.bfi (x0 x1 x2 x3 x4 x5) : Sys2Proof.Laws.Encoding.Statement (.bfi x0 x1 x2 x3 x4 x5) := .inl rfl
theorem Sys2Proof.Laws.Encoding.mov (x0 x1 x2 x3) : Sys2Proof.Laws.Encoding.Statement (.mov x0 x1 x2 x3) := .inl rfl
theorem Sys2Proof.Laws.Encoding.movl (x0 x1 x2) : Sys2Proof.Laws.Encoding.Statement (.movl x0 x1 x2) := .inl rfl
theorem Sys2Proof.Laws.Encoding.movh (x0 x1 x2) : Sys2Proof.Laws.Encoding.Statement (.movh x0 x1 x2) := .inl rfl
theorem Sys2Proof.Laws.Encoding.sel (x0 x1 x2 x3 x4) : Sys2Proof.Laws.Encoding.Statement (.sel x0 x1 x2 x3 x4) := .inl rfl
theorem Sys2Proof.Laws.Encoding.addx (x0 x1 x2 x3 x4 x5 x6) : Sys2Proof.Laws.Encoding.Statement (.addx x0 x1 x2 x3 x4 x5 x6) := .inl rfl
theorem Sys2Proof.Laws.Encoding.sati (x0 x1 x2 x3) : Sys2Proof.Laws.Encoding.Statement (.sati x0 x1 x2 x3) := .inl rfl
theorem Sys2Proof.Laws.Encoding.wkf (x0 x1 x2 x3) : Sys2Proof.Laws.Encoding.Statement (.wkf x0 x1 x2 x3) := .inl rfl
theorem Sys2Proof.Laws.Encoding.wks (x0 x1 x2 x3 x4) : Sys2Proof.Laws.Encoding.Statement (.wks x0 x1 x2 x3 x4) := .inl rfl
theorem Sys2Proof.Laws.Encoding.node (x0 x1 x2 x3 x4) : Sys2Proof.Laws.Encoding.Statement (.node x0 x1 x2 x3 x4) := .inl rfl
theorem Sys2Proof.Laws.Encoding.movm (x0 x1 x2 x3) : Sys2Proof.Laws.Encoding.Statement (.movm x0 x1 x2 x3) := .inl rfl
theorem Sys2Proof.Laws.Encoding.cmp (x0 x1 x2 x3 x4) : Sys2Proof.Laws.Encoding.Statement (.cmp x0 x1 x2 x3 x4) := .inl rfl
theorem Sys2Proof.Laws.Encoding.cmpi41 (x0 x1 x2 x3 x4) : Sys2Proof.Laws.Encoding.Statement (.cmpi41 x0 x1 x2 x3 x4) := .inl rfl
theorem Sys2Proof.Laws.Encoding.cmpi42 (x0 x1 x2 x3 x4) : Sys2Proof.Laws.Encoding.Statement (.cmpi42 x0 x1 x2 x3 x4) := .inl rfl
theorem Sys2Proof.Laws.Encoding.cmpi43 (x0 x1 x2 x3 x4) : Sys2Proof.Laws.Encoding.Statement (.cmpi43 x0 x1 x2 x3 x4) := .inl rfl
theorem Sys2Proof.Laws.Encoding.pand (x0 x1 x2 x3 x4) : Sys2Proof.Laws.Encoding.Statement (.pand x0 x1 x2 x3 x4) := .inl rfl
theorem Sys2Proof.Laws.Encoding.por (x0 x1 x2 x3 x4) : Sys2Proof.Laws.Encoding.Statement (.por x0 x1 x2 x3 x4) := .inl rfl
theorem Sys2Proof.Laws.Encoding.pxor (x0 x1 x2 x3 x4) : Sys2Proof.Laws.Encoding.Statement (.pxor x0 x1 x2 x3 x4) := .inl rfl
theorem Sys2Proof.Laws.Encoding.pnot (x0 x1 x2) : Sys2Proof.Laws.Encoding.Statement (.pnot x0 x1 x2) := .inl rfl
theorem Sys2Proof.Laws.Encoding.pmov (x0 x1 x2) : Sys2Proof.Laws.Encoding.Statement (.pmov x0 x1 x2) := .inl rfl
theorem Sys2Proof.Laws.Encoding.gpredPack (x0 x1) : Sys2Proof.Laws.Encoding.Statement (.gpredPack x0 x1) := .inl rfl
theorem Sys2Proof.Laws.Encoding.gpredUnpack (x0 x1 x2) : Sys2Proof.Laws.Encoding.Statement (.gpredUnpack x0 x1 x2) := .inl rfl
theorem Sys2Proof.Laws.Encoding.gpredNz (x0 x1 x2 x3) : Sys2Proof.Laws.Encoding.Statement (.gpredNz x0 x1 x2 x3) := .inl rfl
theorem Sys2Proof.Laws.Encoding.ldN8 (x0 x1 x2 x3) : Sys2Proof.Laws.Encoding.Statement (.ldN8 x0 x1 x2 x3) := .inl rfl
theorem Sys2Proof.Laws.Encoding.ldN16 (x0 x1 x2 x3) : Sys2Proof.Laws.Encoding.Statement (.ldN16 x0 x1 x2 x3) := .inl rfl
theorem Sys2Proof.Laws.Encoding.ldN32 (x0 x1 x2 x3) : Sys2Proof.Laws.Encoding.Statement (.ldN32 x0 x1 x2 x3) := .inl rfl
theorem Sys2Proof.Laws.Encoding.ldN64 (x0 x1 x2 x3) : Sys2Proof.Laws.Encoding.Statement (.ldN64 x0 x1 x2 x3) := .inl rfl
theorem Sys2Proof.Laws.Encoding.ldsI8 (x0 x1 x2 x3) : Sys2Proof.Laws.Encoding.Statement (.ldsI8 x0 x1 x2 x3) := .inl rfl
theorem Sys2Proof.Laws.Encoding.ldsI16 (x0 x1 x2 x3) : Sys2Proof.Laws.Encoding.Statement (.ldsI16 x0 x1 x2 x3) := .inl rfl
theorem Sys2Proof.Laws.Encoding.ldsI32 (x0 x1 x2 x3) : Sys2Proof.Laws.Encoding.Statement (.ldsI32 x0 x1 x2 x3) := .inl rfl
theorem Sys2Proof.Laws.Encoding.stN8 (x0 x1 x2 x3) : Sys2Proof.Laws.Encoding.Statement (.stN8 x0 x1 x2 x3) := .inl rfl
theorem Sys2Proof.Laws.Encoding.stN16 (x0 x1 x2 x3) : Sys2Proof.Laws.Encoding.Statement (.stN16 x0 x1 x2 x3) := .inl rfl
theorem Sys2Proof.Laws.Encoding.stN32 (x0 x1 x2 x3) : Sys2Proof.Laws.Encoding.Statement (.stN32 x0 x1 x2 x3) := .inl rfl
theorem Sys2Proof.Laws.Encoding.stN64 (x0 x1 x2 x3) : Sys2Proof.Laws.Encoding.Statement (.stN64 x0 x1 x2 x3) := .inl rfl
theorem Sys2Proof.Laws.Encoding.ldv (x0 x1 x2 x3) : Sys2Proof.Laws.Encoding.Statement (.ldv x0 x1 x2 x3) := .inl rfl
theorem Sys2Proof.Laws.Encoding.stv (x0 x1 x2 x3) : Sys2Proof.Laws.Encoding.Statement (.stv x0 x1 x2 x3) := .inl rfl
theorem Sys2Proof.Laws.Encoding.ldp (x0 x1 x2 x3 x4 x5) : Sys2Proof.Laws.Encoding.Statement (.ldp x0 x1 x2 x3 x4 x5) := .inl rfl
theorem Sys2Proof.Laws.Encoding.stp (x0 x1 x2 x3 x4 x5) : Sys2Proof.Laws.Encoding.Statement (.stp x0 x1 x2 x3 x4 x5) := .inl rfl
theorem Sys2Proof.Laws.Encoding.ldx (x0 x1 x2 x3 x4 x5) : Sys2Proof.Laws.Encoding.Statement (.ldx x0 x1 x2 x3 x4 x5) := .inl rfl
theorem Sys2Proof.Laws.Encoding.stx (x0 x1 x2 x3 x4 x5) : Sys2Proof.Laws.Encoding.Statement (.stx x0 x1 x2 x3 x4 x5) := .inl rfl
theorem Sys2Proof.Laws.Encoding.amo (x0 x1 x2 x3 x4) : Sys2Proof.Laws.Encoding.Statement (.amo x0 x1 x2 x3 x4) := .inl rfl
theorem Sys2Proof.Laws.Encoding.rld (x0 x1 x2 x3 x4 x5 x6) : Sys2Proof.Laws.Encoding.Statement (.rld x0 x1 x2 x3 x4 x5 x6) := .inl rfl
theorem Sys2Proof.Laws.Encoding.rst (x0 x1 x2 x3 x4 x5 x6) : Sys2Proof.Laws.Encoding.Statement (.rst x0 x1 x2 x3 x4 x5 x6) := .inl rfl
theorem Sys2Proof.Laws.Encoding.ramo (x0 x1 x2 x3 x4) : Sys2Proof.Laws.Encoding.Statement (.ramo x0 x1 x2 x3 x4) := .inl rfl
theorem Sys2Proof.Laws.Encoding.rcpy (x0 x1 x2 x3) : Sys2Proof.Laws.Encoding.Statement (.rcpy x0 x1 x2 x3) := .inl rfl
theorem Sys2Proof.Laws.Encoding.vld (x0 x1 x2 x3 x4 x5 x6) : Sys2Proof.Laws.Encoding.Statement (.vld x0 x1 x2 x3 x4 x5 x6) := .inl rfl
theorem Sys2Proof.Laws.Encoding.vst (x0 x1 x2 x3 x4 x5) : Sys2Proof.Laws.Encoding.Statement (.vst x0 x1 x2 x3 x4 x5) := .inl rfl
theorem Sys2Proof.Laws.Encoding.vrecl (x0 x1 x2 x3 x4 x5) : Sys2Proof.Laws.Encoding.Statement (.vrecl x0 x1 x2 x3 x4 x5) := .inl rfl
theorem Sys2Proof.Laws.Encoding.fence (x0 x1) : Sys2Proof.Laws.Encoding.Statement (.fence x0 x1) := .inl rfl
theorem Sys2Proof.Laws.Encoding.qfence (x0 x1) : Sys2Proof.Laws.Encoding.Statement (.qfence x0 x1) := .inl rfl
theorem Sys2Proof.Laws.Encoding.send (x0 x1 x2 x3 x4) : Sys2Proof.Laws.Encoding.Statement (.send x0 x1 x2 x3 x4) := .inl rfl
theorem Sys2Proof.Laws.Encoding.sendv (x0 x1 x2 x3 x4) : Sys2Proof.Laws.Encoding.Statement (.sendv x0 x1 x2 x3 x4) := .inl rfl
theorem Sys2Proof.Laws.Encoding.reply (x0 x1 x2) : Sys2Proof.Laws.Encoding.Statement (.reply x0 x1 x2) := .inl rfl
theorem Sys2Proof.Laws.Encoding.replySt (x0 x1 x2) : Sys2Proof.Laws.Encoding.Statement (.replySt x0 x1 x2) := .inl rfl
theorem Sys2Proof.Laws.Encoding.replyKey (x0 x1 x2) : Sys2Proof.Laws.Encoding.Statement (.replyKey x0 x1 x2) := .inl rfl
theorem Sys2Proof.Laws.Encoding.spawn (x0 x1 x2 x3 x4) : Sys2Proof.Laws.Encoding.Statement (.spawn x0 x1 x2 x3 x4) := .inl rfl
theorem Sys2Proof.Laws.Encoding.tinc (x0 x1 x2) : Sys2Proof.Laws.Encoding.Statement (.tinc x0 x1 x2) := .inl rfl
theorem Sys2Proof.Laws.Encoding.tdec (x0 x1 x2) : Sys2Proof.Laws.Encoding.Statement (.tdec x0 x1 x2) := .inl rfl
theorem Sys2Proof.Laws.Encoding.tarm (x0 x1 x2) : Sys2Proof.Laws.Encoding.Statement (.tarm x0 x1 x2) := .inl rfl
theorem Sys2Proof.Laws.Encoding.trd (x0 x1 x2) : Sys2Proof.Laws.Encoding.Statement (.trd x0 x1 x2) := .inl rfl
theorem Sys2Proof.Laws.Encoding.keya (x0 x1) : Sys2Proof.Laws.Encoding.Statement (.keya x0 x1) := .inl rfl
theorem Sys2Proof.Laws.Encoding.keyaNb (x0 x1 x2) : Sys2Proof.Laws.Encoding.Statement (.keyaNb x0 x1 x2) := .inl rfl
theorem Sys2Proof.Laws.Encoding.keyf (x0 x1 x2) : Sys2Proof.Laws.Encoding.Statement (.keyf x0 x1 x2) := .inl rfl
theorem Sys2Proof.Laws.Encoding.waitany (x0 x1 x2 x3) : Sys2Proof.Laws.Encoding.Statement (.waitany x0 x1 x2 x3) := .inl rfl
theorem Sys2Proof.Laws.Encoding.waitall (x0 x1 x2 x3) : Sys2Proof.Laws.Encoding.Statement (.waitall x0 x1 x2 x3) := .inl rfl
theorem Sys2Proof.Laws.Encoding.ffr (x0 x1 x2 x3) : Sys2Proof.Laws.Encoding.Statement (.ffr x0 x1 x2 x3) := .inl rfl
theorem Sys2Proof.Laws.Encoding.trigger (x0) : Sys2Proof.Laws.Encoding.Statement (.trigger x0) := .inl rfl
theorem Sys2Proof.Laws.Encoding.qpush (x0 x1 x2 x3 x4) : Sys2Proof.Laws.Encoding.Statement (.qpush x0 x1 x2 x3 x4) := .inl rfl
theorem Sys2Proof.Laws.Encoding.qpop (x0 x1 x2 x3) : Sys2Proof.Laws.Encoding.Statement (.qpop x0 x1 x2 x3) := .inl rfl
theorem Sys2Proof.Laws.Encoding.qpopFwd (x0 x1 x2) : Sys2Proof.Laws.Encoding.Statement (.qpopFwd x0 x1 x2) := .inl rfl
theorem Sys2Proof.Laws.Encoding.qpopLen (x0 x1 x2) : Sys2Proof.Laws.Encoding.Statement (.qpopLen x0 x1 x2) := .inl rfl
theorem Sys2Proof.Laws.Encoding.mxLease (x0 x1 x2) : Sys2Proof.Laws.Encoding.Statement (.mxLease x0 x1 x2) := .inl rfl
theorem Sys2Proof.Laws.Encoding.mxRel (x0) : Sys2Proof.Laws.Encoding.Statement (.mxRel x0) := .inl rfl
theorem Sys2Proof.Laws.Encoding.mxCtx (x0 x1) : Sys2Proof.Laws.Encoding.Statement (.mxCtx x0 x1) := .inl rfl
theorem Sys2Proof.Laws.Encoding.mxA (x0 x1 x2) : Sys2Proof.Laws.Encoding.Statement (.mxA x0 x1 x2) := .inl rfl
theorem Sys2Proof.Laws.Encoding.mxB (x0 x1 x2) : Sys2Proof.Laws.Encoding.Statement (.mxB x0 x1 x2) := .inl rfl
theorem Sys2Proof.Laws.Encoding.mxRun (x0 x1 x2 x3) : Sys2Proof.Laws.Encoding.Statement (.mxRun x0 x1 x2 x3) := .inl rfl
theorem Sys2Proof.Laws.Encoding.mxZero (x0 x1 x2) : Sys2Proof.Laws.Encoding.Statement (.mxZero x0 x1 x2) := .inl rfl
theorem Sys2Proof.Laws.Encoding.mxDrain (x0 x1 x2 x3 x4) : Sys2Proof.Laws.Encoding.Statement (.mxDrain x0 x1 x2 x3 x4) := .inl rfl
theorem Sys2Proof.Laws.Encoding.mxDrainMsg (x0 x1 x2 x3 x4) : Sys2Proof.Laws.Encoding.Statement (.mxDrainMsg x0 x1 x2 x3 x4) := .inl rfl
theorem Sys2Proof.Laws.Encoding.mxRawCell (x0 x1 x2) : Sys2Proof.Laws.Encoding.Statement (.mxRawCell x0 x1 x2) := .inl rfl
theorem Sys2Proof.Laws.Encoding.mxRawStat (x0 x1) : Sys2Proof.Laws.Encoding.Statement (.mxRawStat x0 x1) := .inl rfl
theorem Sys2Proof.Laws.Encoding.mxSort (x0 x1 x2 x3 x4) : Sys2Proof.Laws.Encoding.Statement (.mxSort x0 x1 x2 x3 x4) := .inl rfl
theorem Sys2Proof.Laws.Encoding.strmGo (x0 x1 x2 x3 x4) : Sys2Proof.Laws.Encoding.Statement (.strmGo x0 x1 x2 x3 x4) := .inl rfl
theorem Sys2Proof.Laws.Encoding.strmExt (x0 x1 x2 x3) : Sys2Proof.Laws.Encoding.Statement (.strmExt x0 x1 x2 x3) := .inl rfl
theorem Sys2Proof.Laws.Encoding.strmStop (x0 x1 x2) : Sys2Proof.Laws.Encoding.Statement (.strmStop x0 x1 x2) := .inl rfl
theorem Sys2Proof.Laws.Encoding.colRed (x0 x1 x2 x3) : Sys2Proof.Laws.Encoding.Statement (.colRed x0 x1 x2 x3) := .inl rfl
theorem Sys2Proof.Laws.Encoding.colBc (x0 x1 x2 x3) : Sys2Proof.Laws.Encoding.Statement (.colBc x0 x1 x2 x3) := .inl rfl
theorem Sys2Proof.Laws.Encoding.vadd (x0 x1 x2 x3 x4) : Sys2Proof.Laws.Encoding.Statement (.vadd x0 x1 x2 x3 x4) := .inl rfl
theorem Sys2Proof.Laws.Encoding.vsub (x0 x1 x2 x3 x4) : Sys2Proof.Laws.Encoding.Statement (.vsub x0 x1 x2 x3 x4) := .inl rfl
theorem Sys2Proof.Laws.Encoding.vmul (x0 x1 x2 x3 x4) : Sys2Proof.Laws.Encoding.Statement (.vmul x0 x1 x2 x3 x4) := .inl rfl
theorem Sys2Proof.Laws.Encoding.vfma (x0 x1 x2 x3 x4) : Sys2Proof.Laws.Encoding.Statement (.vfma x0 x1 x2 x3 x4) := .inl rfl
theorem Sys2Proof.Laws.Encoding.vfms (x0 x1 x2 x3 x4) : Sys2Proof.Laws.Encoding.Statement (.vfms x0 x1 x2 x3 x4) := .inl rfl
theorem Sys2Proof.Laws.Encoding.vmin (x0 x1 x2 x3 x4) : Sys2Proof.Laws.Encoding.Statement (.vmin x0 x1 x2 x3 x4) := .inl rfl
theorem Sys2Proof.Laws.Encoding.vmax (x0 x1 x2 x3 x4) : Sys2Proof.Laws.Encoding.Statement (.vmax x0 x1 x2 x3 x4) := .inl rfl
theorem Sys2Proof.Laws.Encoding.vabs (x0 x1 x2 x3) : Sys2Proof.Laws.Encoding.Statement (.vabs x0 x1 x2 x3) := .inl rfl
theorem Sys2Proof.Laws.Encoding.vneg (x0 x1 x2 x3) : Sys2Proof.Laws.Encoding.Statement (.vneg x0 x1 x2 x3) := .inl rfl
theorem Sys2Proof.Laws.Encoding.vcmp (x0 x1 x2 x3 x4 x5) : Sys2Proof.Laws.Encoding.Statement (.vcmp x0 x1 x2 x3 x4 x5) := .inl rfl
theorem Sys2Proof.Laws.Encoding.vsel (x0 x1 x2 x3 x4) : Sys2Proof.Laws.Encoding.Statement (.vsel x0 x1 x2 x3 x4) := .inl rfl
theorem Sys2Proof.Laws.Encoding.vcvt (x0 x1 x2 x3 x4 x5) : Sys2Proof.Laws.Encoding.Statement (.vcvt x0 x1 x2 x3 x4 x5) := .inl rfl
theorem Sys2Proof.Laws.Encoding.vpackb (x0 x1 x2 x3) : Sys2Proof.Laws.Encoding.Statement (.vpackb x0 x1 x2 x3) := .inl rfl
theorem Sys2Proof.Laws.Encoding.vunpackb (x0 x1 x2 x3) : Sys2Proof.Laws.Encoding.Statement (.vunpackb x0 x1 x2 x3) := .inl rfl
theorem Sys2Proof.Laws.Encoding.vrcpa (x0 x1 x2) : Sys2Proof.Laws.Encoding.Statement (.vrcpa x0 x1 x2) := .inl rfl
theorem Sys2Proof.Laws.Encoding.vrsqa (x0 x1 x2) : Sys2Proof.Laws.Encoding.Statement (.vrsqa x0 x1 x2) := .inl rfl
theorem Sys2Proof.Laws.Encoding.vexp2a (x0 x1 x2) : Sys2Proof.Laws.Encoding.Statement (.vexp2a x0 x1 x2) := .inl rfl
theorem Sys2Proof.Laws.Encoding.vlog2a (x0 x1 x2) : Sys2Proof.Laws.Encoding.Statement (.vlog2a x0 x1 x2) := .inl rfl
theorem Sys2Proof.Laws.Encoding.vsqrt (x0 x1 x2 x3) : Sys2Proof.Laws.Encoding.Statement (.vsqrt x0 x1 x2 x3) := .inl rfl
theorem Sys2Proof.Laws.Encoding.vred (x0 x1 x2 x3 x4) : Sys2Proof.Laws.Encoding.Statement (.vred x0 x1 x2 x3 x4) := .inl rfl
theorem Sys2Proof.Laws.Encoding.vperm (x0 x1 x2 x3) : Sys2Proof.Laws.Encoding.Statement (.vperm x0 x1 x2 x3) := .inl rfl
theorem Sys2Proof.Laws.Encoding.vbcast (x0 x1 x2 x3) : Sys2Proof.Laws.Encoding.Statement (.vbcast x0 x1 x2 x3) := .inl rfl
theorem Sys2Proof.Laws.Encoding.vidx (x0 x1 x2 x3) : Sys2Proof.Laws.Encoding.Statement (.vidx x0 x1 x2 x3) := .inl rfl
theorem Sys2Proof.Laws.Encoding.vcompact (x0 x1 x2) : Sys2Proof.Laws.Encoding.Statement (.vcompact x0 x1 x2) := .inl rfl
theorem Sys2Proof.Laws.Encoding.vexpand (x0 x1 x2) : Sys2Proof.Laws.Encoding.Statement (.vexpand x0 x1 x2) := .inl rfl
theorem Sys2Proof.Laws.Encoding.vand (x0 x1 x2 x3) : Sys2Proof.Laws.Encoding.Statement (.vand x0 x1 x2 x3) := .inl rfl
theorem Sys2Proof.Laws.Encoding.vor (x0 x1 x2 x3) : Sys2Proof.Laws.Encoding.Statement (.vor x0 x1 x2 x3) := .inl rfl
theorem Sys2Proof.Laws.Encoding.vxor (x0 x1 x2 x3) : Sys2Proof.Laws.Encoding.Statement (.vxor x0 x1 x2 x3) := .inl rfl
theorem Sys2Proof.Laws.Encoding.vshl (x0 x1 x2 x3 x4 x5) : Sys2Proof.Laws.Encoding.Statement (.vshl x0 x1 x2 x3 x4 x5) := .inl rfl
theorem Sys2Proof.Laws.Encoding.vshr (x0 x1 x2 x3 x4 x5) : Sys2Proof.Laws.Encoding.Statement (.vshr x0 x1 x2 x3 x4 x5) := .inl rfl
theorem Sys2Proof.Laws.Encoding.viadd (x0 x1 x2 x3 x4 x5) : Sys2Proof.Laws.Encoding.Statement (.viadd x0 x1 x2 x3 x4 x5) := .inl rfl
theorem Sys2Proof.Laws.Encoding.vimul (x0 x1 x2 x3 x4 x5) : Sys2Proof.Laws.Encoding.Statement (.vimul x0 x1 x2 x3 x4 x5) := .inl rfl
theorem Sys2Proof.Laws.Encoding.vmovg (x0 x1 x2 x3) : Sys2Proof.Laws.Encoding.Statement (.vmovg x0 x1 x2 x3) := .inl rfl
theorem Sys2Proof.Laws.Encoding.vmovgQ (x0 x1 x2) : Sys2Proof.Laws.Encoding.Statement (.vmovgQ x0 x1 x2) := .inl rfl
theorem Sys2Proof.Laws.Encoding.vmovl (x0 x1 x2) : Sys2Proof.Laws.Encoding.Statement (.vmovl x0 x1 x2) := .inl rfl
theorem Sys2Proof.Laws.Encoding.vmovlQ (x0 x1 x2) : Sys2Proof.Laws.Encoding.Statement (.vmovlQ x0 x1 x2) := .inl rfl
theorem Sys2Proof.Laws.Encoding.vldm (x0 x1 x2 x3) : Sys2Proof.Laws.Encoding.Statement (.vldm x0 x1 x2 x3) := .inl rfl
theorem Sys2Proof.Laws.Encoding.vstm (x0 x1 x2) : Sys2Proof.Laws.Encoding.Statement (.vstm x0 x1 x2) := .inl rfl
theorem Sys2Proof.Laws.Encoding.qand (x0 x1 x2 x3) : Sys2Proof.Laws.Encoding.Statement (.qand x0 x1 x2 x3) := .inl rfl
theorem Sys2Proof.Laws.Encoding.qor (x0 x1 x2 x3) : Sys2Proof.Laws.Encoding.Statement (.qor x0 x1 x2 x3) := .inl rfl
theorem Sys2Proof.Laws.Encoding.qnot (x0 x1 x2) : Sys2Proof.Laws.Encoding.Statement (.qnot x0 x1 x2) := .inl rfl
theorem Sys2Proof.Laws.Encoding.qpopc (x0 x1 x2) : Sys2Proof.Laws.Encoding.Statement (.qpopc x0 x1 x2) := .inl rfl
theorem Sys2Proof.Laws.Encoding.latPatch (x0 x1) : Sys2Proof.Laws.Encoding.Statement (.latPatch x0 x1) := .inl rfl
theorem Sys2Proof.Laws.Encoding.latSet (x0 x1 x2 x3) : Sys2Proof.Laws.Encoding.Statement (.latSet x0 x1 x2 x3) := .inl rfl
theorem Sys2Proof.Laws.Encoding.latGet (x0 x1 x2 x3) : Sys2Proof.Laws.Encoding.Statement (.latGet x0 x1 x2 x3) := .inl rfl
theorem Sys2Proof.Laws.Encoding.latRdv (x0 x1 x2 x3) : Sys2Proof.Laws.Encoding.Statement (.latRdv x0 x1 x2 x3) := .inl rfl
theorem Sys2Proof.Laws.Encoding.latInj (x0 x1 x2) : Sys2Proof.Laws.Encoding.Statement (.latInj x0 x1 x2) := .inl rfl
theorem Sys2Proof.Laws.Encoding.latStep (x0 x1 x2) : Sys2Proof.Laws.Encoding.Statement (.latStep x0 x1 x2) := .inl rfl
theorem Sys2Proof.Laws.Encoding.latClk (x0 x1 x2) : Sys2Proof.Laws.Encoding.Statement (.latClk x0 x1 x2) := .inl rfl
theorem Sys2Proof.Laws.Encoding.latRun (x0 x1) : Sys2Proof.Laws.Encoding.Statement (.latRun x0 x1) := .inl rfl
theorem Sys2Proof.Laws.Encoding.latStop (x0 x1) : Sys2Proof.Laws.Encoding.Statement (.latStop x0 x1) := .inl rfl
theorem Sys2Proof.Laws.Encoding.latSave (x0 x1) : Sys2Proof.Laws.Encoding.Statement (.latSave x0 x1) := .inl rfl
theorem Sys2Proof.Laws.Encoding.latRest (x0 x1) : Sys2Proof.Laws.Encoding.Statement (.latRest x0 x1) := .inl rfl
theorem Sys2Proof.Laws.Encoding.latStat (x0 x1) : Sys2Proof.Laws.Encoding.Statement (.latStat x0 x1) := .inl rfl
theorem Sys2Proof.Laws.Encoding.latStatClr (x0 x1) : Sys2Proof.Laws.Encoding.Statement (.latStatClr x0 x1) := .inl rfl
theorem Sys2Proof.Laws.Encoding.mfs (x0 x1 x2) : Sys2Proof.Laws.Encoding.Statement (.mfs x0 x1 x2) := .inl rfl
theorem Sys2Proof.Laws.Encoding.mts (x0 x1 x2) : Sys2Proof.Laws.Encoding.Statement (.mts x0 x1 x2) := .inl rfl
theorem Sys2Proof.Laws.Encoding.tresume (x0 x1 x2) : Sys2Proof.Laws.Encoding.Statement (.tresume x0 x1 x2) := .inl rfl
theorem Sys2Proof.Laws.Encoding.tkill (x0 x1 x2) : Sys2Proof.Laws.Encoding.Statement (.tkill x0 x1 x2) := .inl rfl
theorem Sys2Proof.Laws.Encoding.tretry (x0 x1 x2 x3) : Sys2Proof.Laws.Encoding.Statement (.tretry x0 x1 x2 x3) := .inl rfl
theorem Sys2Proof.Laws.Encoding.tlbi (x0 x1 x2 x3 x4) : Sys2Proof.Laws.Encoding.Statement (.tlbi x0 x1 x2 x3 x4) := .inl rfl
theorem Sys2Proof.Laws.Encoding.tlbp (x0 x1 x2 x3) : Sys2Proof.Laws.Encoding.Statement (.tlbp x0 x1 x2 x3) := .inl rfl
theorem Sys2Proof.Laws.Encoding.sealOpen (x0 x1 x2) : Sys2Proof.Laws.Encoding.Statement (.sealOpen x0 x1 x2) := .inl rfl
theorem Sys2Proof.Laws.Encoding.sealFrame (x0 x1 x2 x3) : Sys2Proof.Laws.Encoding.Statement (.sealFrame x0 x1 x2 x3) := .inl rfl
theorem Sys2Proof.Laws.Encoding.sealClose (x0 x1 x2) : Sys2Proof.Laws.Encoding.Statement (.sealClose x0 x1 x2) := .inl rfl
theorem Sys2Proof.Laws.Encoding.trcMark (x0 x1 x2) : Sys2Proof.Laws.Encoding.Statement (.trcMark x0 x1 x2) := .inl rfl
theorem Sys2Proof.Laws.Encoding.trcCtl (x0 x1 x2) : Sys2Proof.Laws.Encoding.Statement (.trcCtl x0 x1 x2) := .inl rfl
theorem Sys2Proof.Laws.Encoding.watch (x0 x1 x2 x3) : Sys2Proof.Laws.Encoding.Statement (.watch x0 x1 x2 x3) := .inl rfl
theorem Sys2Proof.Laws.Encoding.perfRd (x0 x1 x2) : Sys2Proof.Laws.Encoding.Statement (.perfRd x0 x1 x2) := .inl rfl
theorem Sys2Proof.Laws.Encoding.cfgLd (x0 x1 x2) : Sys2Proof.Laws.Encoding.Statement (.cfgLd x0 x1 x2) := .inl rfl
theorem Sys2Proof.Laws.Encoding.cfgInv (x0 x1) : Sys2Proof.Laws.Encoding.Statement (.cfgInv x0 x1) := .inl rfl
theorem Sys2Proof.Laws.Encoding.cfgInvAll (x0) : Sys2Proof.Laws.Encoding.Statement (.cfgInvAll x0) := .inl rfl
theorem Sys2Proof.Laws.Encoding.cfgInvCb (x0) : Sys2Proof.Laws.Encoding.Statement (.cfgInvCb x0) := .inl rfl
theorem Sys2Proof.Laws.Encoding.cfgBind (x0 x1 x2) : Sys2Proof.Laws.Encoding.Statement (.cfgBind x0 x1 x2) := .inl rfl
theorem Sys2Proof.Laws.Encoding.cfgBindU (x0 x1) : Sys2Proof.Laws.Encoding.Statement (.cfgBindU x0 x1) := .inl rfl
theorem Sys2Proof.Laws.Encoding.cfgQRes (x0 x1) : Sys2Proof.Laws.Encoding.Statement (.cfgQRes x0 x1) := .inl rfl
theorem Sys2Proof.Laws.Encoding.cfgQId (x0 x1 x2) : Sys2Proof.Laws.Encoding.Statement (.cfgQId x0 x1 x2) := .inl rfl
theorem Sys2Proof.Laws.Encoding.cfgQRot (x0 x1 x2) : Sys2Proof.Laws.Encoding.Statement (.cfgQRot x0 x1 x2) := .inl rfl
theorem Sys2Proof.Laws.Encoding.cfgQTag (x0 x1 x2) : Sys2Proof.Laws.Encoding.Statement (.cfgQTag x0 x1 x2) := .inl rfl
theorem Sys2Proof.Laws.Encoding.cfgSave (x0 x1) : Sys2Proof.Laws.Encoding.Statement (.cfgSave x0 x1) := .inl rfl
theorem Sys2Proof.Laws.Encoding.cfgRest (x0 x1) : Sys2Proof.Laws.Encoding.Statement (.cfgRest x0 x1) := .inl rfl
theorem Sys2Proof.Laws.Encoding.xn (x0 x1 x2 x3 x4 x5) : Sys2Proof.Laws.Encoding.Statement (.xn x0 x1 x2 x3 x4 x5) := .inl rfl
theorem Sys2Proof.Laws.Encoding.blockEntry (x0 x1) : Sys2Proof.Laws.Encoding.Statement (.blockEntry x0 x1) := .inr ⟨rfl, (.blockEntry x0 x1), fun _ => rfl⟩
theorem Sys2Proof.Laws.Encoding.blockCommit (x0 x1) : Sys2Proof.Laws.Encoding.Statement (.blockCommit x0 x1) := .inr ⟨rfl, (.blockCommit x0 x1), fun _ => rfl⟩
theorem Sys2Proof.Laws.Encoding.parkingFault (x0 x1 x2 x3 x4) : Sys2Proof.Laws.Encoding.Statement (.parkingFault x0 x1 x2 x3 x4) := .inr ⟨rfl, (.parkingFault x0 x1 x2 x3 x4), fun _ => rfl⟩
theorem Sys2Proof.Laws.Encoding.vstReservation (x0 x1) : Sys2Proof.Laws.Encoding.Statement (.vstReservation x0 x1) := .inr ⟨rfl, (.vstReservation x0 x1), fun _ => rfl⟩
theorem Sys2Proof.Laws.Encoding.invocationCommit (x0 x1) : Sys2Proof.Laws.Encoding.Statement (.invocationCommit x0 x1) := .inr ⟨rfl, (.invocationCommit x0 x1), fun _ => rfl⟩
theorem Sys2Proof.Laws.Encoding.tumblerFire (x0 x1) : Sys2Proof.Laws.Encoding.Statement (.tumblerFire x0 x1) := .inr ⟨rfl, (.tumblerFire x0 x1), fun _ => rfl⟩
theorem Sys2Proof.Laws.Encoding.departure (x0) : Sys2Proof.Laws.Encoding.Statement (.departure x0) := .inr ⟨rfl, (.departure x0), fun _ => rfl⟩
theorem Sys2Proof.Laws.Encoding.handlerMessageArrival (x0) : Sys2Proof.Laws.Encoding.Statement (.handlerMessageArrival x0) := .inr ⟨rfl, (.handlerMessageArrival x0), fun _ => rfl⟩
theorem Sys2Proof.Laws.Encoding.matchOverflowMove (x0) : Sys2Proof.Laws.Encoding.Statement (.matchOverflowMove x0) := .inr ⟨rfl, (.matchOverflowMove x0), fun _ => rfl⟩
theorem Sys2Proof.Laws.Encoding.spillRefill (x0 x1) : Sys2Proof.Laws.Encoding.Statement (.spillRefill x0 x1) := .inr ⟨rfl, (.spillRefill x0 x1), fun _ => rfl⟩
theorem Sys2Proof.Laws.Encoding.dispatch (x0) : Sys2Proof.Laws.Encoding.Statement (.dispatch x0) := .inr ⟨rfl, (.dispatch x0), fun _ => rfl⟩
theorem Sys2Proof.Laws.Encoding.replySlotFill (x0) : Sys2Proof.Laws.Encoding.Statement (.replySlotFill x0) := .inr ⟨rfl, (.replySlotFill x0), fun _ => rfl⟩
theorem Sys2Proof.Laws.Encoding.acknowledgement (x0) : Sys2Proof.Laws.Encoding.Statement (.acknowledgement x0) := .inr ⟨rfl, (.acknowledgement x0), fun _ => rfl⟩
theorem Sys2Proof.Laws.Encoding.keySetReply (x0) : Sys2Proof.Laws.Encoding.Statement (.keySetReply x0) := .inr ⟨rfl, (.keySetReply x0), fun _ => rfl⟩
theorem Sys2Proof.Laws.Encoding.boltArrival (x0) : Sys2Proof.Laws.Encoding.Statement (.boltArrival x0) := .inr ⟨rfl, (.boltArrival x0), fun _ => rfl⟩
theorem Sys2Proof.Laws.Encoding.remoteRead (x0) : Sys2Proof.Laws.Encoding.Statement (.remoteRead x0) := .inr ⟨rfl, (.remoteRead x0), fun _ => rfl⟩
theorem Sys2Proof.Laws.Encoding.remoteWrite (x0) : Sys2Proof.Laws.Encoding.Statement (.remoteWrite x0) := .inr ⟨rfl, (.remoteWrite x0), fun _ => rfl⟩
theorem Sys2Proof.Laws.Encoding.remoteAtomicAdd (x0) : Sys2Proof.Laws.Encoding.Statement (.remoteAtomicAdd x0) := .inr ⟨rfl, (.remoteAtomicAdd x0), fun _ => rfl⟩
theorem Sys2Proof.Laws.Encoding.remoteAtomicAnd (x0) : Sys2Proof.Laws.Encoding.Statement (.remoteAtomicAnd x0) := .inr ⟨rfl, (.remoteAtomicAnd x0), fun _ => rfl⟩
theorem Sys2Proof.Laws.Encoding.remoteAtomicOr (x0) : Sys2Proof.Laws.Encoding.Statement (.remoteAtomicOr x0) := .inr ⟨rfl, (.remoteAtomicOr x0), fun _ => rfl⟩
theorem Sys2Proof.Laws.Encoding.remoteAtomicXor (x0) : Sys2Proof.Laws.Encoding.Statement (.remoteAtomicXor x0) := .inr ⟨rfl, (.remoteAtomicXor x0), fun _ => rfl⟩
theorem Sys2Proof.Laws.Encoding.remoteAtomicMin (x0) : Sys2Proof.Laws.Encoding.Statement (.remoteAtomicMin x0) := .inr ⟨rfl, (.remoteAtomicMin x0), fun _ => rfl⟩
theorem Sys2Proof.Laws.Encoding.remoteAtomicMax (x0) : Sys2Proof.Laws.Encoding.Statement (.remoteAtomicMax x0) := .inr ⟨rfl, (.remoteAtomicMax x0), fun _ => rfl⟩
theorem Sys2Proof.Laws.Encoding.remoteAtomicMinn (x0) : Sys2Proof.Laws.Encoding.Statement (.remoteAtomicMinn x0) := .inr ⟨rfl, (.remoteAtomicMinn x0), fun _ => rfl⟩
theorem Sys2Proof.Laws.Encoding.remoteAtomicMaxn (x0) : Sys2Proof.Laws.Encoding.Statement (.remoteAtomicMaxn x0) := .inr ⟨rfl, (.remoteAtomicMaxn x0), fun _ => rfl⟩
theorem Sys2Proof.Laws.Encoding.remoteAtomicSwap (x0) : Sys2Proof.Laws.Encoding.Statement (.remoteAtomicSwap x0) := .inr ⟨rfl, (.remoteAtomicSwap x0), fun _ => rfl⟩
theorem Sys2Proof.Laws.Encoding.remoteAtomicCas (x0) : Sys2Proof.Laws.Encoding.Statement (.remoteAtomicCas x0) := .inr ⟨rfl, (.remoteAtomicCas x0), fun _ => rfl⟩
theorem Sys2Proof.Laws.Encoding.versionedRead (x0) : Sys2Proof.Laws.Encoding.Statement (.versionedRead x0) := .inr ⟨rfl, (.versionedRead x0), fun _ => rfl⟩
theorem Sys2Proof.Laws.Encoding.versionedWrite (x0) : Sys2Proof.Laws.Encoding.Statement (.versionedWrite x0) := .inr ⟨rfl, (.versionedWrite x0), fun _ => rfl⟩
theorem Sys2Proof.Laws.Encoding.versionRetire (x0) : Sys2Proof.Laws.Encoding.Statement (.versionRetire x0) := .inr ⟨rfl, (.versionRetire x0), fun _ => rfl⟩
theorem Sys2Proof.Laws.Encoding.tumblerIncrement (x0) : Sys2Proof.Laws.Encoding.Statement (.tumblerIncrement x0) := .inr ⟨rfl, (.tumblerIncrement x0), fun _ => rfl⟩
theorem Sys2Proof.Laws.Encoding.tumblerDecrement (x0) : Sys2Proof.Laws.Encoding.Statement (.tumblerDecrement x0) := .inr ⟨rfl, (.tumblerDecrement x0), fun _ => rfl⟩
theorem Sys2Proof.Laws.Encoding.tumblerArm (x0) : Sys2Proof.Laws.Encoding.Statement (.tumblerArm x0) := .inr ⟨rfl, (.tumblerArm x0), fun _ => rfl⟩
theorem Sys2Proof.Laws.Encoding.tumblerRead (x0) : Sys2Proof.Laws.Encoding.Statement (.tumblerRead x0) := .inr ⟨rfl, (.tumblerRead x0), fun _ => rfl⟩
theorem Sys2Proof.Laws.Encoding.copy (x0) : Sys2Proof.Laws.Encoding.Statement (.copy x0) := .inr ⟨rfl, (.copy x0), fun _ => rfl⟩
theorem Sys2Proof.Laws.Encoding.copyBeat (x0) : Sys2Proof.Laws.Encoding.Statement (.copyBeat x0) := .inr ⟨rfl, (.copyBeat x0), fun _ => rfl⟩
theorem Sys2Proof.Laws.Encoding.refusedOperation (x0) : Sys2Proof.Laws.Encoding.Statement (.refusedOperation x0) := .inr ⟨rfl, (.refusedOperation x0), fun _ => rfl⟩
theorem Sys2Proof.Laws.Encoding.go (x0) : Sys2Proof.Laws.Encoding.Statement (.go x0) := .inr ⟨rfl, (.go x0), fun _ => rfl⟩
theorem Sys2Proof.Laws.Encoding.ext (x0) : Sys2Proof.Laws.Encoding.Statement (.ext x0) := .inr ⟨rfl, (.ext x0), fun _ => rfl⟩
theorem Sys2Proof.Laws.Encoding.stop (x0) : Sys2Proof.Laws.Encoding.Statement (.stop x0) := .inr ⟨rfl, (.stop x0), fun _ => rfl⟩
theorem Sys2Proof.Laws.Encoding.resume (x0) : Sys2Proof.Laws.Encoding.Statement (.resume x0) := .inr ⟨rfl, (.resume x0), fun _ => rfl⟩
theorem Sys2Proof.Laws.Encoding.pull (x0) : Sys2Proof.Laws.Encoding.Statement (.pull x0) := .inr ⟨rfl, (.pull x0), fun _ => rfl⟩
theorem Sys2Proof.Laws.Encoding.invalidStreamCommand (x0) : Sys2Proof.Laws.Encoding.Statement (.invalidStreamCommand x0) := .inr ⟨rfl, (.invalidStreamCommand x0), fun _ => rfl⟩
theorem Sys2Proof.Laws.Encoding.streamRequestIssue (x0) : Sys2Proof.Laws.Encoding.Statement (.streamRequestIssue x0) := .inr ⟨rfl, (.streamRequestIssue x0), fun _ => rfl⟩
theorem Sys2Proof.Laws.Encoding.loaderBeatWrite (x0 x1) : Sys2Proof.Laws.Encoding.Statement (.loaderBeatWrite x0 x1) := .inr ⟨rfl, (.loaderBeatWrite x0 x1), fun _ => rfl⟩
theorem Sys2Proof.Laws.Encoding.storerWrite (x0 x1) : Sys2Proof.Laws.Encoding.Statement (.storerWrite x0 x1) := .inr ⟨rfl, (.storerWrite x0 x1), fun _ => rfl⟩
theorem Sys2Proof.Laws.Encoding.strmGoResend (x0 x1) : Sys2Proof.Laws.Encoding.Statement (.strmGoResend x0 x1) := .inr ⟨rfl, (.strmGoResend x0 x1), fun _ => rfl⟩
theorem Sys2Proof.Laws.Encoding.pageWalkRead (x0) : Sys2Proof.Laws.Encoding.Statement (.pageWalkRead x0) := .inr ⟨rfl, (.pageWalkRead x0), fun _ => rfl⟩
theorem Sys2Proof.Laws.Encoding.tlbiReceive (x0 x1) : Sys2Proof.Laws.Encoding.Statement (.tlbiReceive x0 x1) := .inr ⟨rfl, (.tlbiReceive x0 x1), fun _ => rfl⟩
theorem Sys2Proof.Laws.Encoding.tlbiComplete (x0) : Sys2Proof.Laws.Encoding.Statement (.tlbiComplete x0) := .inr ⟨rfl, (.tlbiComplete x0), fun _ => rfl⟩
theorem Sys2Proof.Laws.Encoding.push (x0) : Sys2Proof.Laws.Encoding.Statement (.push x0) := .inr ⟨rfl, (.push x0), fun _ => rfl⟩
theorem Sys2Proof.Laws.Encoding.pop (x0) : Sys2Proof.Laws.Encoding.Statement (.pop x0) := .inr ⟨rfl, (.pop x0), fun _ => rfl⟩
theorem Sys2Proof.Laws.Encoding.len (x0) : Sys2Proof.Laws.Encoding.Statement (.len x0) := .inr ⟨rfl, (.len x0), fun _ => rfl⟩
theorem Sys2Proof.Laws.Encoding.create (x0) : Sys2Proof.Laws.Encoding.Statement (.create x0) := .inr ⟨rfl, (.create x0), fun _ => rfl⟩
theorem Sys2Proof.Laws.Encoding.destroy (x0) : Sys2Proof.Laws.Encoding.Statement (.destroy x0) := .inr ⟨rfl, (.destroy x0), fun _ => rfl⟩
theorem Sys2Proof.Laws.Encoding.invalidQueueCommand (x0) : Sys2Proof.Laws.Encoding.Statement (.invalidQueueCommand x0) := .inr ⟨rfl, (.invalidQueueCommand x0), fun _ => rfl⟩
theorem Sys2Proof.Laws.Encoding.leaseRequest (x0) : Sys2Proof.Laws.Encoding.Statement (.leaseRequest x0) := .inr ⟨rfl, (.leaseRequest x0), fun _ => rfl⟩
theorem Sys2Proof.Laws.Encoding.leaseGrant (x0) : Sys2Proof.Laws.Encoding.Statement (.leaseGrant x0) := .inr ⟨rfl, (.leaseGrant x0), fun _ => rfl⟩
theorem Sys2Proof.Laws.Encoding.leaseIdleTimeout (x0 x1) : Sys2Proof.Laws.Encoding.Statement (.leaseIdleTimeout x0 x1) := .inr ⟨rfl, (.leaseIdleTimeout x0 x1), fun _ => rfl⟩
theorem Sys2Proof.Laws.Encoding.arrayCtx (x0) : Sys2Proof.Laws.Encoding.Statement (.arrayCtx x0) := .inr ⟨rfl, (.arrayCtx x0), fun _ => rfl⟩
theorem Sys2Proof.Laws.Encoding.arrayPanel (x0) : Sys2Proof.Laws.Encoding.Statement (.arrayPanel x0) := .inr ⟨rfl, (.arrayPanel x0), fun _ => rfl⟩
theorem Sys2Proof.Laws.Encoding.arrayZero (x0) : Sys2Proof.Laws.Encoding.Statement (.arrayZero x0) := .inr ⟨rfl, (.arrayZero x0), fun _ => rfl⟩
theorem Sys2Proof.Laws.Encoding.arrayRun (x0) : Sys2Proof.Laws.Encoding.Statement (.arrayRun x0) := .inr ⟨rfl, (.arrayRun x0), fun _ => rfl⟩
theorem Sys2Proof.Laws.Encoding.arrayDrain (x0) : Sys2Proof.Laws.Encoding.Statement (.arrayDrain x0) := .inr ⟨rfl, (.arrayDrain x0), fun _ => rfl⟩
theorem Sys2Proof.Laws.Encoding.arrayRaw (x0) : Sys2Proof.Laws.Encoding.Statement (.arrayRaw x0) := .inr ⟨rfl, (.arrayRaw x0), fun _ => rfl⟩
theorem Sys2Proof.Laws.Encoding.arraySort (x0) : Sys2Proof.Laws.Encoding.Statement (.arraySort x0) := .inr ⟨rfl, (.arraySort x0), fun _ => rfl⟩
theorem Sys2Proof.Laws.Encoding.arrayRel (x0) : Sys2Proof.Laws.Encoding.Statement (.arrayRel x0) := .inr ⟨rfl, (.arrayRel x0), fun _ => rfl⟩
theorem Sys2Proof.Laws.Encoding.customOpcodeResult (x0) : Sys2Proof.Laws.Encoding.Statement (.customOpcodeResult x0) := .inr ⟨rfl, (.customOpcodeResult x0), fun _ => rfl⟩
theorem Sys2Proof.Laws.Encoding.latticeInstructionPerform (x0) : Sys2Proof.Laws.Encoding.Statement (.latticeInstructionPerform x0) := .inr ⟨rfl, (.latticeInstructionPerform x0), fun _ => rfl⟩
theorem Sys2Proof.Laws.Encoding.latticeClockTick (x0) : Sys2Proof.Laws.Encoding.Statement (.latticeClockTick x0) := .inr ⟨rfl, (.latticeClockTick x0), fun _ => rfl⟩
theorem Sys2Proof.Laws.Encoding.budgetExpiry (x0 x1) : Sys2Proof.Laws.Encoding.Statement (.budgetExpiry x0 x1) := .inr ⟨rfl, (.budgetExpiry x0 x1), fun _ => rfl⟩
theorem Sys2Proof.Laws.Encoding.yieldIntervalEnd (x0 x1) : Sys2Proof.Laws.Encoding.Statement (.yieldIntervalEnd x0 x1) := .inr ⟨rfl, (.yieldIntervalEnd x0 x1), fun _ => rfl⟩
theorem Sys2Proof.Laws.Encoding.systemEntryTake (x0) : Sys2Proof.Laws.Encoding.Statement (.systemEntryTake x0) := .inr ⟨rfl, (.systemEntryTake x0), fun _ => rfl⟩
theorem Sys2Proof.Laws.Encoding.transientEvent (x0 x1 x2) : Sys2Proof.Laws.Encoding.Statement (.transientEvent x0 x1 x2) := .inr ⟨rfl, (.transientEvent x0 x1 x2), fun _ => rfl⟩
theorem Sys2Proof.Laws.Encoding.scrub (x0 x1 x2) : Sys2Proof.Laws.Encoding.Statement (.scrub x0 x1 x2) := .inr ⟨rfl, (.scrub x0 x1 x2), fun _ => rfl⟩
theorem Sys2Proof.Laws.Encoding.placement (x0) : Sys2Proof.Laws.Encoding.Statement (.placement x0) := .inr ⟨rfl, (.placement x0), fun _ => rfl⟩
theorem Sys2Proof.Laws.Encoding.initialMessageRelease (x0 x1) : Sys2Proof.Laws.Encoding.Statement (.initialMessageRelease x0 x1) := .inr ⟨rfl, (.initialMessageRelease x0 x1), fun _ => rfl⟩
theorem Sys2Proof.Laws.Encoding.triggerCount (x0) : Sys2Proof.Laws.Encoding.Statement (.triggerCount x0) := .inr ⟨rfl, (.triggerCount x0), fun _ => rfl⟩
theorem Sys2Proof.Laws.Encoding.endOfJobSweep (x0 x1) : Sys2Proof.Laws.Encoding.Statement (.endOfJobSweep x0 x1) := .inr ⟨rfl, (.endOfJobSweep x0 x1), fun _ => rfl⟩
theorem Sys2Proof.Laws.Encoding.coreSave (x0) : Sys2Proof.Laws.Encoding.Statement (.coreSave x0) := .inr ⟨rfl, (.coreSave x0), fun _ => rfl⟩
theorem Sys2Proof.Laws.Encoding.absentQueueReplay (x0 x1) : Sys2Proof.Laws.Encoding.Statement (.absentQueueReplay x0 x1) := .inr ⟨rfl, (.absentQueueReplay x0 x1), fun _ => rfl⟩
theorem Sys2Proof.Laws.Encoding.cmdtailWrite (x0 x1) : Sys2Proof.Laws.Encoding.Statement (.cmdtailWrite x0 x1) := .inr ⟨rfl, (.cmdtailWrite x0 x1), fun _ => rfl⟩
theorem Sys2Proof.Laws.Encoding.injtailWrite (x0 x1) : Sys2Proof.Laws.Encoding.Statement (.injtailWrite x0 x1) := .inr ⟨rfl, (.injtailWrite x0 x1), fun _ => rfl⟩
theorem Sys2Proof.Laws.Encoding.bar0RegisterWrite (x0 x1 x2) : Sys2Proof.Laws.Encoding.Statement (.bar0RegisterWrite x0 x1 x2) := .inr ⟨rfl, (.bar0RegisterWrite x0 x1 x2), fun _ => rfl⟩
theorem Sys2Proof.Laws.Encoding.apertureRead (x0 x1 x2) : Sys2Proof.Laws.Encoding.Statement (.apertureRead x0 x1 x2) := .inr ⟨rfl, (.apertureRead x0 x1 x2), fun _ => rfl⟩
theorem Sys2Proof.Laws.Encoding.apertureWrite (x0 x1 x2) : Sys2Proof.Laws.Encoding.Statement (.apertureWrite x0 x1 x2) := .inr ⟨rfl, (.apertureWrite x0 x1 x2), fun _ => rfl⟩
theorem Sys2Proof.Laws.Encoding.hostPortReceive (x0) : Sys2Proof.Laws.Encoding.Statement (.hostPortReceive x0) := .inr ⟨rfl, (.hostPortReceive x0), fun _ => rfl⟩
theorem Sys2Proof.Laws.Encoding.unmarkedManifestSign (x0) : Sys2Proof.Laws.Encoding.Statement (.unmarkedManifestSign x0) := .inr ⟨rfl, (.unmarkedManifestSign x0), fun _ => rfl⟩
theorem Sys2Proof.Laws.Encoding.launch (x0 x1) : Sys2Proof.Laws.Encoding.Statement (.launch x0 x1) := .inr ⟨rfl, (.launch x0 x1), fun _ => rfl⟩
theorem Sys2Proof.Laws.Encoding.preempt (x0 x1) : Sys2Proof.Laws.Encoding.Statement (.preempt x0 x1) := .inr ⟨rfl, (.preempt x0 x1), fun _ => rfl⟩
theorem Sys2Proof.Laws.Encoding.cancel (x0 x1) : Sys2Proof.Laws.Encoding.Statement (.cancel x0 x1) := .inr ⟨rfl, (.cancel x0 x1), fun _ => rfl⟩
theorem Sys2Proof.Laws.Encoding.restore (x0 x1) : Sys2Proof.Laws.Encoding.Statement (.restore x0 x1) := .inr ⟨rfl, (.restore x0 x1), fun _ => rfl⟩
theorem Sys2Proof.Laws.Encoding.kill (x0 x1) : Sys2Proof.Laws.Encoding.Statement (.kill x0 x1) := .inr ⟨rfl, (.kill x0 x1), fun _ => rfl⟩
theorem Sys2Proof.Laws.Encoding.unknownHostCommand (x0 x1) : Sys2Proof.Laws.Encoding.Statement (.unknownHostCommand x0 x1) := .inr ⟨rfl, (.unknownHostCommand x0 x1), fun _ => rfl⟩
theorem Sys2Proof.Laws.Encoding.loadfw (x0 x1) : Sys2Proof.Laws.Encoding.Statement (.loadfw x0 x1) := .inr ⟨rfl, (.loadfw x0 x1), fun _ => rfl⟩
theorem Sys2Proof.Laws.Encoding.swap (x0 x1) : Sys2Proof.Laws.Encoding.Statement (.swap x0 x1) := .inr ⟨rfl, (.swap x0 x1), fun _ => rfl⟩
theorem Sys2Proof.Laws.Encoding.attest (x0 x1) : Sys2Proof.Laws.Encoding.Statement (.attest x0 x1) := .inr ⟨rfl, (.attest x0 x1), fun _ => rfl⟩
theorem Sys2Proof.Laws.Encoding.serviceFence (x0 x1) : Sys2Proof.Laws.Encoding.Statement (.serviceFence x0 x1) := .inr ⟨rfl, (.serviceFence x0 x1), fun _ => rfl⟩
theorem Sys2Proof.Laws.Encoding.unfence (x0 x1) : Sys2Proof.Laws.Encoding.Statement (.unfence x0 x1) := .inr ⟨rfl, (.unfence x0 x1), fun _ => rfl⟩
theorem Sys2Proof.Laws.Encoding.recal (x0 x1) : Sys2Proof.Laws.Encoding.Statement (.recal x0 x1) := .inr ⟨rfl, (.recal x0 x1), fun _ => rfl⟩
theorem Sys2Proof.Laws.Encoding.recalSchedule (x0 x1) : Sys2Proof.Laws.Encoding.Statement (.recalSchedule x0 x1) := .inr ⟨rfl, (.recalSchedule x0 x1), fun _ => rfl⟩
theorem Sys2Proof.Laws.Encoding.health (x0 x1) : Sys2Proof.Laws.Encoding.Statement (.health x0 x1) := .inr ⟨rfl, (.health x0 x1), fun _ => rfl⟩
theorem Sys2Proof.Laws.Encoding.traceout (x0 x1) : Sys2Proof.Laws.Encoding.Statement (.traceout x0 x1) := .inr ⟨rfl, (.traceout x0 x1), fun _ => rfl⟩
theorem Sys2Proof.Laws.Encoding.sealOpenPerform (x0) : Sys2Proof.Laws.Encoding.Statement (.sealOpenPerform x0) := .inr ⟨rfl, (.sealOpenPerform x0), fun _ => rfl⟩
theorem Sys2Proof.Laws.Encoding.sealFramePerform (x0) : Sys2Proof.Laws.Encoding.Statement (.sealFramePerform x0) := .inr ⟨rfl, (.sealFramePerform x0), fun _ => rfl⟩
theorem Sys2Proof.Laws.Encoding.sealClosePerform (x0) : Sys2Proof.Laws.Encoding.Statement (.sealClosePerform x0) := .inr ⟨rfl, (.sealClosePerform x0), fun _ => rfl⟩
theorem Sys2Proof.Laws.Encoding.collectivePerform (x0) : Sys2Proof.Laws.Encoding.Statement (.collectivePerform x0) := .inr ⟨rfl, (.collectivePerform x0), fun _ => rfl⟩
theorem Sys2Proof.Laws.Encoding.linkRetry (x0 x1 x2) : Sys2Proof.Laws.Encoding.Statement (.linkRetry x0 x1 x2) := .inr ⟨rfl, (.linkRetry x0 x1 x2), fun _ => rfl⟩
theorem Sys2Proof.Laws.Encoding.skewMeasurement (x0 x1) : Sys2Proof.Laws.Encoding.Statement (.skewMeasurement x0 x1) := .inr ⟨rfl, (.skewMeasurement x0 x1), fun _ => rfl⟩
theorem Sys2Proof.Laws.Encoding.replayTimeout (x0 x1) : Sys2Proof.Laws.Encoding.Statement (.replayTimeout x0 x1) := .inr ⟨rfl, (.replayTimeout x0 x1), fun _ => rfl⟩
theorem Sys2Proof.Laws.Encoding.powerUp (x0) : Sys2Proof.Laws.Encoding.Statement (.powerUp x0) := .inr ⟨rfl, (.powerUp x0), fun _ => rfl⟩
theorem Sys2Proof.Laws.Encoding.functionLevelReset (x0) : Sys2Proof.Laws.Encoding.Statement (.functionLevelReset x0) := .inr ⟨rfl, (.functionLevelReset x0), fun _ => rfl⟩
theorem Sys2Proof.Laws.Encoding.throttle (x0 x1) : Sys2Proof.Laws.Encoding.Statement (.throttle x0 x1) := .inr ⟨rfl, (.throttle x0 x1), fun _ => rfl⟩
theorem Sys2Proof.Laws.Encoding.overTemperature (x0 x1) : Sys2Proof.Laws.Encoding.Statement (.overTemperature x0 x1) := .inr ⟨rfl, (.overTemperature x0 x1), fun _ => rfl⟩
theorem Sys2Proof.Laws.Encoding.stackRecalibrationPauseEnd (x0 x1) : Sys2Proof.Laws.Encoding.Statement (.stackRecalibrationPauseEnd x0 x1) := .inr ⟨rfl, (.stackRecalibrationPauseEnd x0 x1), fun _ => rfl⟩
theorem Sys2Proof.Laws.Encoding.systemContextRelease (x0 x1) : Sys2Proof.Laws.Encoding.Statement (.systemContextRelease x0 x1) := .inr ⟨rfl, (.systemContextRelease x0 x1), fun _ => rfl⟩
theorem Sys2Proof.Laws.Encoding.diesBelow95c (x0) : Sys2Proof.Laws.Encoding.Statement (.diesBelow95c x0) := .inr ⟨rfl, (.diesBelow95c x0), fun _ => rfl⟩
end

