-- ==== Sys2Proof/Laws/State.lean ====
section
/-! SUPPORT. What each update of the state does to each field: one lemma for each, so that no proof unfolds an update. -/

namespace Sys2Proof.Machine

@[simp] theorem State.setCore_mem (s : State) (n : Nat) (c : Core) : (s.setCore n c).mem = s.mem := rfl
@[simp] theorem State.setCore_poison (s : State) (n : Nat) (c : Core) : (s.setCore n c).poison = s.poison := rfl
@[simp] theorem State.setCore_hostMem (s : State) (n : Nat) (c : Core) : (s.setCore n c).hostMem = s.hostMem := rfl
@[simp] theorem State.setCore_cores (s : State) (n : Nat) (c : Core) : (s.setCore n c).cores = aset s.cores n c := rfl
@[simp] theorem State.setCore_quads (s : State) (n : Nat) (c : Core) : (s.setCore n c).quads = s.quads := rfl
@[simp] theorem State.setCore_clusters (s : State) (n : Nat) (c : Core) : (s.setCore n c).clusters = s.clusters := rfl
@[simp] theorem State.setCore_memCores (s : State) (n : Nat) (c : Core) : (s.setCore n c).memCores = s.memCores := rfl
@[simp] theorem State.setCore_dies (s : State) (n : Nat) (c : Core) : (s.setCore n c).dies = s.dies := rfl
@[simp] theorem State.setCore_modules (s : State) (n : Nat) (c : Core) : (s.setCore n c).modules = s.modules := rfl
@[simp] theorem State.setCore_present (s : State) (n : Nat) (c : Core) : (s.setCore n c).present = s.present := rfl
@[simp] theorem State.setCore_jobs (s : State) (n : Nat) (c : Core) : (s.setCore n c).jobs = s.jobs := rfl
@[simp] theorem State.setCore_mgmt (s : State) (n : Nat) (c : Core) : (s.setCore n c).mgmt = s.mgmt := rfl
@[simp] theorem State.setCore_agenda (s : State) (n : Nat) (c : Core) : (s.setCore n c).agenda = s.agenda := rfl
@[simp] theorem State.setCore_later (s : State) (n : Nat) (c : Core) : (s.setCore n c).later = s.later := rfl
@[simp] theorem State.setCore_arrivals (s : State) (n : Nat) (c : Core) : (s.setCore n c).arrivals = s.arrivals := rfl
@[simp] theorem State.setCore_copies (s : State) (n : Nat) (c : Core) : (s.setCore n c).copies = s.copies := rfl
@[simp] theorem State.setCore_copyCount (s : State) (n : Nat) (c : Core) : (s.setCore n c).copyCount = s.copyCount := rfl
@[simp] theorem State.setCore_turn (s : State) (n : Nat) (c : Core) : (s.setCore n c).turn = s.turn := rfl
@[simp] theorem State.setCore_picked (s : State) (n : Nat) (c : Core) : (s.setCore n c).picked = s.picked := rfl
@[simp] theorem State.setCore_shootdowns (s : State) (n : Nat) (c : Core) : (s.setCore n c).shootdowns = s.shootdowns := rfl
@[simp] theorem State.setCore_clk (s : State) (n : Nat) (c : Core) : (s.setCore n c).clk = s.clk := rfl
@[simp] theorem State.setCore_cur (s : State) (n : Nat) (c : Core) : (s.setCore n c).cur = s.cur := rfl
@[simp] theorem State.setCore_curCtx (s : State) (n : Nat) (c : Core) : (s.setCore n c).curCtx = s.curCtx := rfl
@[simp] theorem State.setCore_stalled (s : State) (n : Nat) (c : Core) : (s.setCore n c).stalled = s.stalled := rfl
@[simp] theorem State.setCore_free (s : State) (n : Nat) (c : Core) : (s.setCore n c).free = s.free := rfl

@[simp] theorem State.setQuad_mem (s : State) (n : Nat) (q : Quad) : (s.setQuad n q).mem = s.mem := rfl
@[simp] theorem State.setQuad_poison (s : State) (n : Nat) (q : Quad) : (s.setQuad n q).poison = s.poison := rfl
@[simp] theorem State.setQuad_hostMem (s : State) (n : Nat) (q : Quad) : (s.setQuad n q).hostMem = s.hostMem := rfl
@[simp] theorem State.setQuad_cores (s : State) (n : Nat) (q : Quad) : (s.setQuad n q).cores = s.cores := rfl
@[simp] theorem State.setQuad_quads (s : State) (n : Nat) (q : Quad) : (s.setQuad n q).quads = aset s.quads (quadOf n) q := rfl
@[simp] theorem State.setQuad_clusters (s : State) (n : Nat) (q : Quad) : (s.setQuad n q).clusters = s.clusters := rfl
@[simp] theorem State.setQuad_memCores (s : State) (n : Nat) (q : Quad) : (s.setQuad n q).memCores = s.memCores := rfl
@[simp] theorem State.setQuad_dies (s : State) (n : Nat) (q : Quad) : (s.setQuad n q).dies = s.dies := rfl
@[simp] theorem State.setQuad_modules (s : State) (n : Nat) (q : Quad) : (s.setQuad n q).modules = s.modules := rfl
@[simp] theorem State.setQuad_present (s : State) (n : Nat) (q : Quad) : (s.setQuad n q).present = s.present := rfl
@[simp] theorem State.setQuad_jobs (s : State) (n : Nat) (q : Quad) : (s.setQuad n q).jobs = s.jobs := rfl
@[simp] theorem State.setQuad_mgmt (s : State) (n : Nat) (q : Quad) : (s.setQuad n q).mgmt = s.mgmt := rfl
@[simp] theorem State.setQuad_agenda (s : State) (n : Nat) (q : Quad) : (s.setQuad n q).agenda = s.agenda := rfl
@[simp] theorem State.setQuad_later (s : State) (n : Nat) (q : Quad) : (s.setQuad n q).later = s.later := rfl
@[simp] theorem State.setQuad_arrivals (s : State) (n : Nat) (q : Quad) : (s.setQuad n q).arrivals = s.arrivals := rfl
@[simp] theorem State.setQuad_copies (s : State) (n : Nat) (q : Quad) : (s.setQuad n q).copies = s.copies := rfl
@[simp] theorem State.setQuad_copyCount (s : State) (n : Nat) (q : Quad) : (s.setQuad n q).copyCount = s.copyCount := rfl
@[simp] theorem State.setQuad_turn (s : State) (n : Nat) (q : Quad) : (s.setQuad n q).turn = s.turn := rfl
@[simp] theorem State.setQuad_picked (s : State) (n : Nat) (q : Quad) : (s.setQuad n q).picked = s.picked := rfl
@[simp] theorem State.setQuad_shootdowns (s : State) (n : Nat) (q : Quad) : (s.setQuad n q).shootdowns = s.shootdowns := rfl
@[simp] theorem State.setQuad_clk (s : State) (n : Nat) (q : Quad) : (s.setQuad n q).clk = s.clk := rfl
@[simp] theorem State.setQuad_cur (s : State) (n : Nat) (q : Quad) : (s.setQuad n q).cur = s.cur := rfl
@[simp] theorem State.setQuad_curCtx (s : State) (n : Nat) (q : Quad) : (s.setQuad n q).curCtx = s.curCtx := rfl
@[simp] theorem State.setQuad_stalled (s : State) (n : Nat) (q : Quad) : (s.setQuad n q).stalled = s.stalled := rfl
@[simp] theorem State.setQuad_free (s : State) (n : Nat) (q : Quad) : (s.setQuad n q).free = s.free := rfl

@[simp] theorem State.setCluster_mem (s : State) (n : Nat) (c : Cluster) : (s.setCluster n c).mem = s.mem := rfl
@[simp] theorem State.setCluster_poison (s : State) (n : Nat) (c : Cluster) : (s.setCluster n c).poison = s.poison := rfl
@[simp] theorem State.setCluster_hostMem (s : State) (n : Nat) (c : Cluster) : (s.setCluster n c).hostMem = s.hostMem := rfl
@[simp] theorem State.setCluster_cores (s : State) (n : Nat) (c : Cluster) : (s.setCluster n c).cores = s.cores := rfl
@[simp] theorem State.setCluster_quads (s : State) (n : Nat) (c : Cluster) : (s.setCluster n c).quads = s.quads := rfl
@[simp] theorem State.setCluster_clusters (s : State) (n : Nat) (c : Cluster) : (s.setCluster n c).clusters = aset s.clusters n c := rfl
@[simp] theorem State.setCluster_memCores (s : State) (n : Nat) (c : Cluster) : (s.setCluster n c).memCores = s.memCores := rfl
@[simp] theorem State.setCluster_dies (s : State) (n : Nat) (c : Cluster) : (s.setCluster n c).dies = s.dies := rfl
@[simp] theorem State.setCluster_modules (s : State) (n : Nat) (c : Cluster) : (s.setCluster n c).modules = s.modules := rfl
@[simp] theorem State.setCluster_present (s : State) (n : Nat) (c : Cluster) : (s.setCluster n c).present = s.present := rfl
@[simp] theorem State.setCluster_jobs (s : State) (n : Nat) (c : Cluster) : (s.setCluster n c).jobs = s.jobs := rfl
@[simp] theorem State.setCluster_mgmt (s : State) (n : Nat) (c : Cluster) : (s.setCluster n c).mgmt = s.mgmt := rfl
@[simp] theorem State.setCluster_agenda (s : State) (n : Nat) (c : Cluster) : (s.setCluster n c).agenda = s.agenda := rfl
@[simp] theorem State.setCluster_later (s : State) (n : Nat) (c : Cluster) : (s.setCluster n c).later = s.later := rfl
@[simp] theorem State.setCluster_arrivals (s : State) (n : Nat) (c : Cluster) : (s.setCluster n c).arrivals = s.arrivals := rfl
@[simp] theorem State.setCluster_copies (s : State) (n : Nat) (c : Cluster) : (s.setCluster n c).copies = s.copies := rfl
@[simp] theorem State.setCluster_copyCount (s : State) (n : Nat) (c : Cluster) : (s.setCluster n c).copyCount = s.copyCount := rfl
@[simp] theorem State.setCluster_turn (s : State) (n : Nat) (c : Cluster) : (s.setCluster n c).turn = s.turn := rfl
@[simp] theorem State.setCluster_picked (s : State) (n : Nat) (c : Cluster) : (s.setCluster n c).picked = s.picked := rfl
@[simp] theorem State.setCluster_shootdowns (s : State) (n : Nat) (c : Cluster) : (s.setCluster n c).shootdowns = s.shootdowns := rfl
@[simp] theorem State.setCluster_clk (s : State) (n : Nat) (c : Cluster) : (s.setCluster n c).clk = s.clk := rfl
@[simp] theorem State.setCluster_cur (s : State) (n : Nat) (c : Cluster) : (s.setCluster n c).cur = s.cur := rfl
@[simp] theorem State.setCluster_curCtx (s : State) (n : Nat) (c : Cluster) : (s.setCluster n c).curCtx = s.curCtx := rfl
@[simp] theorem State.setCluster_stalled (s : State) (n : Nat) (c : Cluster) : (s.setCluster n c).stalled = s.stalled := rfl
@[simp] theorem State.setCluster_free (s : State) (n : Nat) (c : Cluster) : (s.setCluster n c).free = s.free := rfl

@[simp] theorem State.setMemCore_mem (s : State) (n : Nat) (m : MemCore) : (s.setMemCore n m).mem = s.mem := rfl
@[simp] theorem State.setMemCore_poison (s : State) (n : Nat) (m : MemCore) : (s.setMemCore n m).poison = s.poison := rfl
@[simp] theorem State.setMemCore_hostMem (s : State) (n : Nat) (m : MemCore) : (s.setMemCore n m).hostMem = s.hostMem := rfl
@[simp] theorem State.setMemCore_cores (s : State) (n : Nat) (m : MemCore) : (s.setMemCore n m).cores = s.cores := rfl
@[simp] theorem State.setMemCore_quads (s : State) (n : Nat) (m : MemCore) : (s.setMemCore n m).quads = s.quads := rfl
@[simp] theorem State.setMemCore_clusters (s : State) (n : Nat) (m : MemCore) : (s.setMemCore n m).clusters = s.clusters := rfl
@[simp] theorem State.setMemCore_memCores (s : State) (n : Nat) (m : MemCore) : (s.setMemCore n m).memCores = aset s.memCores n m := rfl
@[simp] theorem State.setMemCore_dies (s : State) (n : Nat) (m : MemCore) : (s.setMemCore n m).dies = s.dies := rfl
@[simp] theorem State.setMemCore_modules (s : State) (n : Nat) (m : MemCore) : (s.setMemCore n m).modules = s.modules := rfl
@[simp] theorem State.setMemCore_present (s : State) (n : Nat) (m : MemCore) : (s.setMemCore n m).present = s.present := rfl
@[simp] theorem State.setMemCore_jobs (s : State) (n : Nat) (m : MemCore) : (s.setMemCore n m).jobs = s.jobs := rfl
@[simp] theorem State.setMemCore_mgmt (s : State) (n : Nat) (m : MemCore) : (s.setMemCore n m).mgmt = s.mgmt := rfl
@[simp] theorem State.setMemCore_agenda (s : State) (n : Nat) (m : MemCore) : (s.setMemCore n m).agenda = s.agenda := rfl
@[simp] theorem State.setMemCore_later (s : State) (n : Nat) (m : MemCore) : (s.setMemCore n m).later = s.later := rfl
@[simp] theorem State.setMemCore_arrivals (s : State) (n : Nat) (m : MemCore) : (s.setMemCore n m).arrivals = s.arrivals := rfl
@[simp] theorem State.setMemCore_copies (s : State) (n : Nat) (m : MemCore) : (s.setMemCore n m).copies = s.copies := rfl
@[simp] theorem State.setMemCore_copyCount (s : State) (n : Nat) (m : MemCore) : (s.setMemCore n m).copyCount = s.copyCount := rfl
@[simp] theorem State.setMemCore_turn (s : State) (n : Nat) (m : MemCore) : (s.setMemCore n m).turn = s.turn := rfl
@[simp] theorem State.setMemCore_picked (s : State) (n : Nat) (m : MemCore) : (s.setMemCore n m).picked = s.picked := rfl
@[simp] theorem State.setMemCore_shootdowns (s : State) (n : Nat) (m : MemCore) : (s.setMemCore n m).shootdowns = s.shootdowns := rfl
@[simp] theorem State.setMemCore_clk (s : State) (n : Nat) (m : MemCore) : (s.setMemCore n m).clk = s.clk := rfl
@[simp] theorem State.setMemCore_cur (s : State) (n : Nat) (m : MemCore) : (s.setMemCore n m).cur = s.cur := rfl
@[simp] theorem State.setMemCore_curCtx (s : State) (n : Nat) (m : MemCore) : (s.setMemCore n m).curCtx = s.curCtx := rfl
@[simp] theorem State.setMemCore_stalled (s : State) (n : Nat) (m : MemCore) : (s.setMemCore n m).stalled = s.stalled := rfl
@[simp] theorem State.setMemCore_free (s : State) (n : Nat) (m : MemCore) : (s.setMemCore n m).free = s.free := rfl

@[simp] theorem State.setDie_mem (s : State) (n : Nat) (d : Die) : (s.setDie n d).mem = s.mem := rfl
@[simp] theorem State.setDie_poison (s : State) (n : Nat) (d : Die) : (s.setDie n d).poison = s.poison := rfl
@[simp] theorem State.setDie_hostMem (s : State) (n : Nat) (d : Die) : (s.setDie n d).hostMem = s.hostMem := rfl
@[simp] theorem State.setDie_cores (s : State) (n : Nat) (d : Die) : (s.setDie n d).cores = s.cores := rfl
@[simp] theorem State.setDie_quads (s : State) (n : Nat) (d : Die) : (s.setDie n d).quads = s.quads := rfl
@[simp] theorem State.setDie_clusters (s : State) (n : Nat) (d : Die) : (s.setDie n d).clusters = s.clusters := rfl
@[simp] theorem State.setDie_memCores (s : State) (n : Nat) (d : Die) : (s.setDie n d).memCores = s.memCores := rfl
@[simp] theorem State.setDie_dies (s : State) (n : Nat) (d : Die) : (s.setDie n d).dies = aset s.dies n { d with noticed := d.noticed && d.room == 0 } := rfl
@[simp] theorem State.setDie_modules (s : State) (n : Nat) (d : Die) : (s.setDie n d).modules = s.modules := rfl
@[simp] theorem State.setDie_present (s : State) (n : Nat) (d : Die) : (s.setDie n d).present = s.present := rfl
@[simp] theorem State.setDie_jobs (s : State) (n : Nat) (d : Die) : (s.setDie n d).jobs = s.jobs := rfl
@[simp] theorem State.setDie_mgmt (s : State) (n : Nat) (d : Die) : (s.setDie n d).mgmt = s.mgmt := rfl
@[simp] theorem State.setDie_agenda (s : State) (n : Nat) (d : Die) : (s.setDie n d).agenda = s.agenda := rfl
@[simp] theorem State.setDie_later (s : State) (n : Nat) (d : Die) : (s.setDie n d).later = s.later := rfl
@[simp] theorem State.setDie_arrivals (s : State) (n : Nat) (d : Die) : (s.setDie n d).arrivals = s.arrivals := rfl
@[simp] theorem State.setDie_copies (s : State) (n : Nat) (d : Die) : (s.setDie n d).copies = s.copies := rfl
@[simp] theorem State.setDie_copyCount (s : State) (n : Nat) (d : Die) : (s.setDie n d).copyCount = s.copyCount := rfl
@[simp] theorem State.setDie_turn (s : State) (n : Nat) (d : Die) : (s.setDie n d).turn = s.turn := rfl
@[simp] theorem State.setDie_picked (s : State) (n : Nat) (d : Die) : (s.setDie n d).picked = s.picked := rfl
@[simp] theorem State.setDie_shootdowns (s : State) (n : Nat) (d : Die) : (s.setDie n d).shootdowns = s.shootdowns := rfl
@[simp] theorem State.setDie_clk (s : State) (n : Nat) (d : Die) : (s.setDie n d).clk = s.clk := rfl
@[simp] theorem State.setDie_cur (s : State) (n : Nat) (d : Die) : (s.setDie n d).cur = s.cur := rfl
@[simp] theorem State.setDie_curCtx (s : State) (n : Nat) (d : Die) : (s.setDie n d).curCtx = s.curCtx := rfl
@[simp] theorem State.setDie_stalled (s : State) (n : Nat) (d : Die) : (s.setDie n d).stalled = s.stalled := rfl
@[simp] theorem State.setDie_free (s : State) (n : Nat) (d : Die) : (s.setDie n d).free = s.free := rfl

@[simp] theorem State.setModule_mem (s : State) (n : Nat) (x : Module) : (s.setModule n x).mem = s.mem := rfl
@[simp] theorem State.setModule_poison (s : State) (n : Nat) (x : Module) : (s.setModule n x).poison = s.poison := rfl
@[simp] theorem State.setModule_hostMem (s : State) (n : Nat) (x : Module) : (s.setModule n x).hostMem = s.hostMem := rfl
@[simp] theorem State.setModule_cores (s : State) (n : Nat) (x : Module) : (s.setModule n x).cores = s.cores := rfl
@[simp] theorem State.setModule_quads (s : State) (n : Nat) (x : Module) : (s.setModule n x).quads = s.quads := rfl
@[simp] theorem State.setModule_clusters (s : State) (n : Nat) (x : Module) : (s.setModule n x).clusters = s.clusters := rfl
@[simp] theorem State.setModule_memCores (s : State) (n : Nat) (x : Module) : (s.setModule n x).memCores = s.memCores := rfl
@[simp] theorem State.setModule_dies (s : State) (n : Nat) (x : Module) : (s.setModule n x).dies = s.dies := rfl
@[simp] theorem State.setModule_modules (s : State) (n : Nat) (x : Module) : (s.setModule n x).modules = aset s.modules n x := rfl
@[simp] theorem State.setModule_present (s : State) (n : Nat) (x : Module) : (s.setModule n x).present = s.present := rfl
@[simp] theorem State.setModule_jobs (s : State) (n : Nat) (x : Module) : (s.setModule n x).jobs = s.jobs := rfl
@[simp] theorem State.setModule_mgmt (s : State) (n : Nat) (x : Module) : (s.setModule n x).mgmt = s.mgmt := rfl
@[simp] theorem State.setModule_agenda (s : State) (n : Nat) (x : Module) : (s.setModule n x).agenda = s.agenda := rfl
@[simp] theorem State.setModule_later (s : State) (n : Nat) (x : Module) : (s.setModule n x).later = s.later := rfl
@[simp] theorem State.setModule_arrivals (s : State) (n : Nat) (x : Module) : (s.setModule n x).arrivals = s.arrivals := rfl
@[simp] theorem State.setModule_copies (s : State) (n : Nat) (x : Module) : (s.setModule n x).copies = s.copies := rfl
@[simp] theorem State.setModule_copyCount (s : State) (n : Nat) (x : Module) : (s.setModule n x).copyCount = s.copyCount := rfl
@[simp] theorem State.setModule_turn (s : State) (n : Nat) (x : Module) : (s.setModule n x).turn = s.turn := rfl
@[simp] theorem State.setModule_picked (s : State) (n : Nat) (x : Module) : (s.setModule n x).picked = s.picked := rfl
@[simp] theorem State.setModule_shootdowns (s : State) (n : Nat) (x : Module) : (s.setModule n x).shootdowns = s.shootdowns := rfl
@[simp] theorem State.setModule_clk (s : State) (n : Nat) (x : Module) : (s.setModule n x).clk = s.clk := rfl
@[simp] theorem State.setModule_cur (s : State) (n : Nat) (x : Module) : (s.setModule n x).cur = s.cur := rfl
@[simp] theorem State.setModule_curCtx (s : State) (n : Nat) (x : Module) : (s.setModule n x).curCtx = s.curCtx := rfl
@[simp] theorem State.setModule_stalled (s : State) (n : Nat) (x : Module) : (s.setModule n x).stalled = s.stalled := rfl
@[simp] theorem State.setModule_free (s : State) (n : Nat) (x : Module) : (s.setModule n x).free = s.free := rfl

@[simp] theorem State.setCtx_mem (s : State) (n k : Nat) (x : Ctx) : (s.setCtx n k x).mem = s.mem := rfl
@[simp] theorem State.setCtx_poison (s : State) (n k : Nat) (x : Ctx) : (s.setCtx n k x).poison = s.poison := rfl
@[simp] theorem State.setCtx_hostMem (s : State) (n k : Nat) (x : Ctx) : (s.setCtx n k x).hostMem = s.hostMem := rfl
@[simp] theorem State.setCtx_cores (s : State) (n k : Nat) (x : Ctx) : (s.setCtx n k x).cores = aset s.cores n ((s.core n).setCtx k x) := rfl
@[simp] theorem State.setCtx_quads (s : State) (n k : Nat) (x : Ctx) : (s.setCtx n k x).quads = s.quads := rfl
@[simp] theorem State.setCtx_clusters (s : State) (n k : Nat) (x : Ctx) : (s.setCtx n k x).clusters = s.clusters := rfl
@[simp] theorem State.setCtx_memCores (s : State) (n k : Nat) (x : Ctx) : (s.setCtx n k x).memCores = s.memCores := rfl
@[simp] theorem State.setCtx_dies (s : State) (n k : Nat) (x : Ctx) : (s.setCtx n k x).dies = s.dies := rfl
@[simp] theorem State.setCtx_modules (s : State) (n k : Nat) (x : Ctx) : (s.setCtx n k x).modules = s.modules := rfl
@[simp] theorem State.setCtx_present (s : State) (n k : Nat) (x : Ctx) : (s.setCtx n k x).present = s.present := rfl
@[simp] theorem State.setCtx_jobs (s : State) (n k : Nat) (x : Ctx) : (s.setCtx n k x).jobs = s.jobs := rfl
@[simp] theorem State.setCtx_mgmt (s : State) (n k : Nat) (x : Ctx) : (s.setCtx n k x).mgmt = s.mgmt := rfl
@[simp] theorem State.setCtx_agenda (s : State) (n k : Nat) (x : Ctx) : (s.setCtx n k x).agenda = s.agenda := rfl
@[simp] theorem State.setCtx_later (s : State) (n k : Nat) (x : Ctx) : (s.setCtx n k x).later = s.later := rfl
@[simp] theorem State.setCtx_arrivals (s : State) (n k : Nat) (x : Ctx) : (s.setCtx n k x).arrivals = s.arrivals := rfl
@[simp] theorem State.setCtx_copies (s : State) (n k : Nat) (x : Ctx) : (s.setCtx n k x).copies = s.copies := rfl
@[simp] theorem State.setCtx_copyCount (s : State) (n k : Nat) (x : Ctx) : (s.setCtx n k x).copyCount = s.copyCount := rfl
@[simp] theorem State.setCtx_turn (s : State) (n k : Nat) (x : Ctx) : (s.setCtx n k x).turn = s.turn := rfl
@[simp] theorem State.setCtx_picked (s : State) (n k : Nat) (x : Ctx) : (s.setCtx n k x).picked = s.picked := rfl
@[simp] theorem State.setCtx_shootdowns (s : State) (n k : Nat) (x : Ctx) : (s.setCtx n k x).shootdowns = s.shootdowns := rfl
@[simp] theorem State.setCtx_clk (s : State) (n k : Nat) (x : Ctx) : (s.setCtx n k x).clk = s.clk := rfl
@[simp] theorem State.setCtx_cur (s : State) (n k : Nat) (x : Ctx) : (s.setCtx n k x).cur = s.cur := rfl
@[simp] theorem State.setCtx_curCtx (s : State) (n k : Nat) (x : Ctx) : (s.setCtx n k x).curCtx = s.curCtx := rfl
@[simp] theorem State.setCtx_stalled (s : State) (n k : Nat) (x : Ctx) : (s.setCtx n k x).stalled = s.stalled := rfl
@[simp] theorem State.setCtx_free (s : State) (n k : Nat) (x : Ctx) : (s.setCtx n k x).free = s.free := rfl

@[simp] theorem State.setMe_mem (s : State) (x : Ctx) : (s.setMe x).mem = s.mem := rfl
@[simp] theorem State.setMe_poison (s : State) (x : Ctx) : (s.setMe x).poison = s.poison := rfl
@[simp] theorem State.setMe_hostMem (s : State) (x : Ctx) : (s.setMe x).hostMem = s.hostMem := rfl
@[simp] theorem State.setMe_cores (s : State) (x : Ctx) : (s.setMe x).cores = aset s.cores s.cur ((s.core s.cur).setCtx s.curCtx x) := rfl
@[simp] theorem State.setMe_quads (s : State) (x : Ctx) : (s.setMe x).quads = s.quads := rfl
@[simp] theorem State.setMe_clusters (s : State) (x : Ctx) : (s.setMe x).clusters = s.clusters := rfl
@[simp] theorem State.setMe_memCores (s : State) (x : Ctx) : (s.setMe x).memCores = s.memCores := rfl
@[simp] theorem State.setMe_dies (s : State) (x : Ctx) : (s.setMe x).dies = s.dies := rfl
@[simp] theorem State.setMe_modules (s : State) (x : Ctx) : (s.setMe x).modules = s.modules := rfl
@[simp] theorem State.setMe_present (s : State) (x : Ctx) : (s.setMe x).present = s.present := rfl
@[simp] theorem State.setMe_jobs (s : State) (x : Ctx) : (s.setMe x).jobs = s.jobs := rfl
@[simp] theorem State.setMe_mgmt (s : State) (x : Ctx) : (s.setMe x).mgmt = s.mgmt := rfl
@[simp] theorem State.setMe_agenda (s : State) (x : Ctx) : (s.setMe x).agenda = s.agenda := rfl
@[simp] theorem State.setMe_later (s : State) (x : Ctx) : (s.setMe x).later = s.later := rfl
@[simp] theorem State.setMe_arrivals (s : State) (x : Ctx) : (s.setMe x).arrivals = s.arrivals := rfl
@[simp] theorem State.setMe_copies (s : State) (x : Ctx) : (s.setMe x).copies = s.copies := rfl
@[simp] theorem State.setMe_copyCount (s : State) (x : Ctx) : (s.setMe x).copyCount = s.copyCount := rfl
@[simp] theorem State.setMe_turn (s : State) (x : Ctx) : (s.setMe x).turn = s.turn := rfl
@[simp] theorem State.setMe_picked (s : State) (x : Ctx) : (s.setMe x).picked = s.picked := rfl
@[simp] theorem State.setMe_shootdowns (s : State) (x : Ctx) : (s.setMe x).shootdowns = s.shootdowns := rfl
@[simp] theorem State.setMe_clk (s : State) (x : Ctx) : (s.setMe x).clk = s.clk := rfl
@[simp] theorem State.setMe_cur (s : State) (x : Ctx) : (s.setMe x).cur = s.cur := rfl
@[simp] theorem State.setMe_curCtx (s : State) (x : Ctx) : (s.setMe x).curCtx = s.curCtx := rfl
@[simp] theorem State.setMe_stalled (s : State) (x : Ctx) : (s.setMe x).stalled = s.stalled := rfl
@[simp] theorem State.setMe_free (s : State) (x : Ctx) : (s.setMe x).free = s.free := rfl

@[simp] theorem State.setRegs_mem (s : State) (r : Regs) : (s.setRegs r).mem = s.mem := rfl
@[simp] theorem State.setRegs_poison (s : State) (r : Regs) : (s.setRegs r).poison = s.poison := rfl
@[simp] theorem State.setRegs_hostMem (s : State) (r : Regs) : (s.setRegs r).hostMem = s.hostMem := rfl
@[simp] theorem State.setRegs_cores (s : State) (r : Regs) : (s.setRegs r).cores = aset s.cores s.cur ((s.core s.cur).setCtx s.curCtx { s.me with regs := r }) := rfl
@[simp] theorem State.setRegs_quads (s : State) (r : Regs) : (s.setRegs r).quads = s.quads := rfl
@[simp] theorem State.setRegs_clusters (s : State) (r : Regs) : (s.setRegs r).clusters = s.clusters := rfl
@[simp] theorem State.setRegs_memCores (s : State) (r : Regs) : (s.setRegs r).memCores = s.memCores := rfl
@[simp] theorem State.setRegs_dies (s : State) (r : Regs) : (s.setRegs r).dies = s.dies := rfl
@[simp] theorem State.setRegs_modules (s : State) (r : Regs) : (s.setRegs r).modules = s.modules := rfl
@[simp] theorem State.setRegs_present (s : State) (r : Regs) : (s.setRegs r).present = s.present := rfl
@[simp] theorem State.setRegs_jobs (s : State) (r : Regs) : (s.setRegs r).jobs = s.jobs := rfl
@[simp] theorem State.setRegs_mgmt (s : State) (r : Regs) : (s.setRegs r).mgmt = s.mgmt := rfl
@[simp] theorem State.setRegs_agenda (s : State) (r : Regs) : (s.setRegs r).agenda = s.agenda := rfl
@[simp] theorem State.setRegs_later (s : State) (r : Regs) : (s.setRegs r).later = s.later := rfl
@[simp] theorem State.setRegs_arrivals (s : State) (r : Regs) : (s.setRegs r).arrivals = s.arrivals := rfl
@[simp] theorem State.setRegs_copies (s : State) (r : Regs) : (s.setRegs r).copies = s.copies := rfl
@[simp] theorem State.setRegs_copyCount (s : State) (r : Regs) : (s.setRegs r).copyCount = s.copyCount := rfl
@[simp] theorem State.setRegs_turn (s : State) (r : Regs) : (s.setRegs r).turn = s.turn := rfl
@[simp] theorem State.setRegs_picked (s : State) (r : Regs) : (s.setRegs r).picked = s.picked := rfl
@[simp] theorem State.setRegs_shootdowns (s : State) (r : Regs) : (s.setRegs r).shootdowns = s.shootdowns := rfl
@[simp] theorem State.setRegs_clk (s : State) (r : Regs) : (s.setRegs r).clk = s.clk := rfl
@[simp] theorem State.setRegs_cur (s : State) (r : Regs) : (s.setRegs r).cur = s.cur := rfl
@[simp] theorem State.setRegs_curCtx (s : State) (r : Regs) : (s.setRegs r).curCtx = s.curCtx := rfl
@[simp] theorem State.setRegs_stalled (s : State) (r : Regs) : (s.setRegs r).stalled = s.stalled := rfl
@[simp] theorem State.setRegs_free (s : State) (r : Regs) : (s.setRegs r).free = s.free := rfl

@[simp] theorem State.due_mem (s : State) (e : Event) : (s.due e).mem = s.mem := rfl
@[simp] theorem State.due_poison (s : State) (e : Event) : (s.due e).poison = s.poison := rfl
@[simp] theorem State.due_hostMem (s : State) (e : Event) : (s.due e).hostMem = s.hostMem := rfl
@[simp] theorem State.due_cores (s : State) (e : Event) : (s.due e).cores = s.cores := rfl
@[simp] theorem State.due_quads (s : State) (e : Event) : (s.due e).quads = s.quads := rfl
@[simp] theorem State.due_clusters (s : State) (e : Event) : (s.due e).clusters = s.clusters := rfl
@[simp] theorem State.due_memCores (s : State) (e : Event) : (s.due e).memCores = s.memCores := rfl
@[simp] theorem State.due_dies (s : State) (e : Event) : (s.due e).dies = s.dies := rfl
@[simp] theorem State.due_modules (s : State) (e : Event) : (s.due e).modules = s.modules := rfl
@[simp] theorem State.due_present (s : State) (e : Event) : (s.due e).present = s.present := rfl
@[simp] theorem State.due_jobs (s : State) (e : Event) : (s.due e).jobs = s.jobs := rfl
@[simp] theorem State.due_mgmt (s : State) (e : Event) : (s.due e).mgmt = s.mgmt := rfl
@[simp] theorem State.due_agenda (s : State) (e : Event) : (s.due e).agenda = s.agenda ++ [e] := rfl
@[simp] theorem State.due_later (s : State) (e : Event) : (s.due e).later = s.later := rfl
@[simp] theorem State.due_arrivals (s : State) (e : Event) : (s.due e).arrivals = s.arrivals := rfl
@[simp] theorem State.due_copies (s : State) (e : Event) : (s.due e).copies = s.copies := rfl
@[simp] theorem State.due_copyCount (s : State) (e : Event) : (s.due e).copyCount = s.copyCount := rfl
@[simp] theorem State.due_turn (s : State) (e : Event) : (s.due e).turn = s.turn := rfl
@[simp] theorem State.due_picked (s : State) (e : Event) : (s.due e).picked = s.picked := rfl
@[simp] theorem State.due_shootdowns (s : State) (e : Event) : (s.due e).shootdowns = s.shootdowns := rfl
@[simp] theorem State.due_clk (s : State) (e : Event) : (s.due e).clk = s.clk := rfl
@[simp] theorem State.due_cur (s : State) (e : Event) : (s.due e).cur = s.cur := rfl
@[simp] theorem State.due_curCtx (s : State) (e : Event) : (s.due e).curCtx = s.curCtx := rfl
@[simp] theorem State.due_stalled (s : State) (e : Event) : (s.due e).stalled = s.stalled := rfl
@[simp] theorem State.due_free (s : State) (e : Event) : (s.due e).free = s.free := rfl

@[simp] theorem State.dueFirst_mem (s : State) (l : List Event) : (s.dueFirst l).mem = s.mem := rfl
@[simp] theorem State.dueFirst_poison (s : State) (l : List Event) : (s.dueFirst l).poison = s.poison := rfl
@[simp] theorem State.dueFirst_hostMem (s : State) (l : List Event) : (s.dueFirst l).hostMem = s.hostMem := rfl
@[simp] theorem State.dueFirst_cores (s : State) (l : List Event) : (s.dueFirst l).cores = s.cores := rfl
@[simp] theorem State.dueFirst_quads (s : State) (l : List Event) : (s.dueFirst l).quads = s.quads := rfl
@[simp] theorem State.dueFirst_clusters (s : State) (l : List Event) : (s.dueFirst l).clusters = s.clusters := rfl
@[simp] theorem State.dueFirst_memCores (s : State) (l : List Event) : (s.dueFirst l).memCores = s.memCores := rfl
@[simp] theorem State.dueFirst_dies (s : State) (l : List Event) : (s.dueFirst l).dies = s.dies := rfl
@[simp] theorem State.dueFirst_modules (s : State) (l : List Event) : (s.dueFirst l).modules = s.modules := rfl
@[simp] theorem State.dueFirst_present (s : State) (l : List Event) : (s.dueFirst l).present = s.present := rfl
@[simp] theorem State.dueFirst_jobs (s : State) (l : List Event) : (s.dueFirst l).jobs = s.jobs := rfl
@[simp] theorem State.dueFirst_mgmt (s : State) (l : List Event) : (s.dueFirst l).mgmt = s.mgmt := rfl
@[simp] theorem State.dueFirst_agenda (s : State) (l : List Event) : (s.dueFirst l).agenda = l ++ s.agenda := rfl
@[simp] theorem State.dueFirst_later (s : State) (l : List Event) : (s.dueFirst l).later = s.later := rfl
@[simp] theorem State.dueFirst_arrivals (s : State) (l : List Event) : (s.dueFirst l).arrivals = s.arrivals := rfl
@[simp] theorem State.dueFirst_copies (s : State) (l : List Event) : (s.dueFirst l).copies = s.copies := rfl
@[simp] theorem State.dueFirst_copyCount (s : State) (l : List Event) : (s.dueFirst l).copyCount = s.copyCount := rfl
@[simp] theorem State.dueFirst_turn (s : State) (l : List Event) : (s.dueFirst l).turn = s.turn := rfl
@[simp] theorem State.dueFirst_picked (s : State) (l : List Event) : (s.dueFirst l).picked = s.picked := rfl
@[simp] theorem State.dueFirst_shootdowns (s : State) (l : List Event) : (s.dueFirst l).shootdowns = s.shootdowns := rfl
@[simp] theorem State.dueFirst_clk (s : State) (l : List Event) : (s.dueFirst l).clk = s.clk := rfl
@[simp] theorem State.dueFirst_cur (s : State) (l : List Event) : (s.dueFirst l).cur = s.cur := rfl
@[simp] theorem State.dueFirst_curCtx (s : State) (l : List Event) : (s.dueFirst l).curCtx = s.curCtx := rfl
@[simp] theorem State.dueFirst_stalled (s : State) (l : List Event) : (s.dueFirst l).stalled = s.stalled := rfl
@[simp] theorem State.dueFirst_free (s : State) (l : List Event) : (s.dueFirst l).free = s.free := rfl

@[simp] theorem State.dueAll_mem (s : State) (l : List Event) : (s.dueAll l).mem = s.mem := rfl
@[simp] theorem State.dueAll_poison (s : State) (l : List Event) : (s.dueAll l).poison = s.poison := rfl
@[simp] theorem State.dueAll_hostMem (s : State) (l : List Event) : (s.dueAll l).hostMem = s.hostMem := rfl
@[simp] theorem State.dueAll_cores (s : State) (l : List Event) : (s.dueAll l).cores = s.cores := rfl
@[simp] theorem State.dueAll_quads (s : State) (l : List Event) : (s.dueAll l).quads = s.quads := rfl
@[simp] theorem State.dueAll_clusters (s : State) (l : List Event) : (s.dueAll l).clusters = s.clusters := rfl
@[simp] theorem State.dueAll_memCores (s : State) (l : List Event) : (s.dueAll l).memCores = s.memCores := rfl
@[simp] theorem State.dueAll_dies (s : State) (l : List Event) : (s.dueAll l).dies = s.dies := rfl
@[simp] theorem State.dueAll_modules (s : State) (l : List Event) : (s.dueAll l).modules = s.modules := rfl
@[simp] theorem State.dueAll_present (s : State) (l : List Event) : (s.dueAll l).present = s.present := rfl
@[simp] theorem State.dueAll_jobs (s : State) (l : List Event) : (s.dueAll l).jobs = s.jobs := rfl
@[simp] theorem State.dueAll_mgmt (s : State) (l : List Event) : (s.dueAll l).mgmt = s.mgmt := rfl
@[simp] theorem State.dueAll_agenda (s : State) (l : List Event) : (s.dueAll l).agenda = s.agenda ++ l := rfl
@[simp] theorem State.dueAll_later (s : State) (l : List Event) : (s.dueAll l).later = s.later := rfl
@[simp] theorem State.dueAll_arrivals (s : State) (l : List Event) : (s.dueAll l).arrivals = s.arrivals := rfl
@[simp] theorem State.dueAll_copies (s : State) (l : List Event) : (s.dueAll l).copies = s.copies := rfl
@[simp] theorem State.dueAll_copyCount (s : State) (l : List Event) : (s.dueAll l).copyCount = s.copyCount := rfl
@[simp] theorem State.dueAll_turn (s : State) (l : List Event) : (s.dueAll l).turn = s.turn := rfl
@[simp] theorem State.dueAll_picked (s : State) (l : List Event) : (s.dueAll l).picked = s.picked := rfl
@[simp] theorem State.dueAll_shootdowns (s : State) (l : List Event) : (s.dueAll l).shootdowns = s.shootdowns := rfl
@[simp] theorem State.dueAll_clk (s : State) (l : List Event) : (s.dueAll l).clk = s.clk := rfl
@[simp] theorem State.dueAll_cur (s : State) (l : List Event) : (s.dueAll l).cur = s.cur := rfl
@[simp] theorem State.dueAll_curCtx (s : State) (l : List Event) : (s.dueAll l).curCtx = s.curCtx := rfl
@[simp] theorem State.dueAll_stalled (s : State) (l : List Event) : (s.dueAll l).stalled = s.stalled := rfl
@[simp] theorem State.dueAll_free (s : State) (l : List Event) : (s.dueAll l).free = s.free := rfl

@[simp] theorem State.after_mem (s : State) (n : Nat) (e : Event) : (s.after n e).mem = s.mem := rfl
@[simp] theorem State.after_poison (s : State) (n : Nat) (e : Event) : (s.after n e).poison = s.poison := rfl
@[simp] theorem State.after_hostMem (s : State) (n : Nat) (e : Event) : (s.after n e).hostMem = s.hostMem := rfl
@[simp] theorem State.after_cores (s : State) (n : Nat) (e : Event) : (s.after n e).cores = s.cores := rfl
@[simp] theorem State.after_quads (s : State) (n : Nat) (e : Event) : (s.after n e).quads = s.quads := rfl
@[simp] theorem State.after_clusters (s : State) (n : Nat) (e : Event) : (s.after n e).clusters = s.clusters := rfl
@[simp] theorem State.after_memCores (s : State) (n : Nat) (e : Event) : (s.after n e).memCores = s.memCores := rfl
@[simp] theorem State.after_dies (s : State) (n : Nat) (e : Event) : (s.after n e).dies = s.dies := rfl
@[simp] theorem State.after_modules (s : State) (n : Nat) (e : Event) : (s.after n e).modules = s.modules := rfl
@[simp] theorem State.after_present (s : State) (n : Nat) (e : Event) : (s.after n e).present = s.present := rfl
@[simp] theorem State.after_jobs (s : State) (n : Nat) (e : Event) : (s.after n e).jobs = s.jobs := rfl
@[simp] theorem State.after_mgmt (s : State) (n : Nat) (e : Event) : (s.after n e).mgmt = s.mgmt := rfl
@[simp] theorem State.after_agenda (s : State) (n : Nat) (e : Event) : (s.after n e).agenda = s.agenda := rfl
@[simp] theorem State.after_later (s : State) (n : Nat) (e : Event) : (s.after n e).later = s.later ++ [(s.clk + n, e)] := rfl
@[simp] theorem State.after_arrivals (s : State) (n : Nat) (e : Event) : (s.after n e).arrivals = s.arrivals := rfl
@[simp] theorem State.after_copies (s : State) (n : Nat) (e : Event) : (s.after n e).copies = s.copies := rfl
@[simp] theorem State.after_copyCount (s : State) (n : Nat) (e : Event) : (s.after n e).copyCount = s.copyCount := rfl
@[simp] theorem State.after_turn (s : State) (n : Nat) (e : Event) : (s.after n e).turn = s.turn := rfl
@[simp] theorem State.after_picked (s : State) (n : Nat) (e : Event) : (s.after n e).picked = s.picked := rfl
@[simp] theorem State.after_shootdowns (s : State) (n : Nat) (e : Event) : (s.after n e).shootdowns = s.shootdowns := rfl
@[simp] theorem State.after_clk (s : State) (n : Nat) (e : Event) : (s.after n e).clk = s.clk := rfl
@[simp] theorem State.after_cur (s : State) (n : Nat) (e : Event) : (s.after n e).cur = s.cur := rfl
@[simp] theorem State.after_curCtx (s : State) (n : Nat) (e : Event) : (s.after n e).curCtx = s.curCtx := rfl
@[simp] theorem State.after_stalled (s : State) (n : Nat) (e : Event) : (s.after n e).stalled = s.stalled := rfl
@[simp] theorem State.after_free (s : State) (n : Nat) (e : Event) : (s.after n e).free = s.free := rfl

@[simp] theorem State.tell_mem (s : State) (n : MgmtNotice) : (s.tell n).mem = s.mem := rfl
@[simp] theorem State.tell_poison (s : State) (n : MgmtNotice) : (s.tell n).poison = s.poison := rfl
@[simp] theorem State.tell_hostMem (s : State) (n : MgmtNotice) : (s.tell n).hostMem = s.hostMem := rfl
@[simp] theorem State.tell_cores (s : State) (n : MgmtNotice) : (s.tell n).cores = s.cores := rfl
@[simp] theorem State.tell_quads (s : State) (n : MgmtNotice) : (s.tell n).quads = s.quads := rfl
@[simp] theorem State.tell_clusters (s : State) (n : MgmtNotice) : (s.tell n).clusters = s.clusters := rfl
@[simp] theorem State.tell_memCores (s : State) (n : MgmtNotice) : (s.tell n).memCores = s.memCores := rfl
@[simp] theorem State.tell_dies (s : State) (n : MgmtNotice) : (s.tell n).dies = s.dies := rfl
@[simp] theorem State.tell_modules (s : State) (n : MgmtNotice) : (s.tell n).modules = s.modules := rfl
@[simp] theorem State.tell_present (s : State) (n : MgmtNotice) : (s.tell n).present = s.present := rfl
@[simp] theorem State.tell_jobs (s : State) (n : MgmtNotice) : (s.tell n).jobs = s.jobs := rfl
@[simp] theorem State.tell_mgmt (s : State) (n : MgmtNotice) : (s.tell n).mgmt = s.mgmt ++ [n] := rfl
@[simp] theorem State.tell_agenda (s : State) (n : MgmtNotice) : (s.tell n).agenda = s.agenda := rfl
@[simp] theorem State.tell_later (s : State) (n : MgmtNotice) : (s.tell n).later = s.later := rfl
@[simp] theorem State.tell_arrivals (s : State) (n : MgmtNotice) : (s.tell n).arrivals = s.arrivals := rfl
@[simp] theorem State.tell_copies (s : State) (n : MgmtNotice) : (s.tell n).copies = s.copies := rfl
@[simp] theorem State.tell_copyCount (s : State) (n : MgmtNotice) : (s.tell n).copyCount = s.copyCount := rfl
@[simp] theorem State.tell_turn (s : State) (n : MgmtNotice) : (s.tell n).turn = s.turn := rfl
@[simp] theorem State.tell_picked (s : State) (n : MgmtNotice) : (s.tell n).picked = s.picked := rfl
@[simp] theorem State.tell_shootdowns (s : State) (n : MgmtNotice) : (s.tell n).shootdowns = s.shootdowns := rfl
@[simp] theorem State.tell_clk (s : State) (n : MgmtNotice) : (s.tell n).clk = s.clk := rfl
@[simp] theorem State.tell_cur (s : State) (n : MgmtNotice) : (s.tell n).cur = s.cur := rfl
@[simp] theorem State.tell_curCtx (s : State) (n : MgmtNotice) : (s.tell n).curCtx = s.curCtx := rfl
@[simp] theorem State.tell_stalled (s : State) (n : MgmtNotice) : (s.tell n).stalled = s.stalled := rfl
@[simp] theorem State.tell_free (s : State) (n : MgmtNotice) : (s.tell n).free = s.free := rfl

@[simp] theorem State.send_mem (s : State) (m : Packet) : (s.send m).mem = s.mem := rfl
@[simp] theorem State.send_poison (s : State) (m : Packet) : (s.send m).poison = s.poison := rfl
@[simp] theorem State.send_hostMem (s : State) (m : Packet) : (s.send m).hostMem = s.hostMem := rfl
@[simp] theorem State.send_cores (s : State) (m : Packet) : (s.send m).cores = s.cores := rfl
@[simp] theorem State.send_quads (s : State) (m : Packet) : (s.send m).quads = s.quads := rfl
@[simp] theorem State.send_clusters (s : State) (m : Packet) : (s.send m).clusters = s.clusters := rfl
@[simp] theorem State.send_memCores (s : State) (m : Packet) : (s.send m).memCores = s.memCores := rfl
@[simp] theorem State.send_dies (s : State) (m : Packet) : (s.send m).dies = s.dies := rfl
@[simp] theorem State.send_modules (s : State) (m : Packet) : (s.send m).modules = s.modules := rfl
@[simp] theorem State.send_present (s : State) (m : Packet) : (s.send m).present = s.present := rfl
@[simp] theorem State.send_jobs (s : State) (m : Packet) : (s.send m).jobs = s.jobs := rfl
@[simp] theorem State.send_mgmt (s : State) (m : Packet) : (s.send m).mgmt = s.mgmt := rfl
@[simp] theorem State.send_agenda (s : State) (m : Packet) : (s.send m).agenda = s.agenda ++ [route m] := rfl
@[simp] theorem State.send_later (s : State) (m : Packet) : (s.send m).later = s.later := rfl
@[simp] theorem State.send_arrivals (s : State) (m : Packet) : (s.send m).arrivals = s.arrivals := rfl
@[simp] theorem State.send_copies (s : State) (m : Packet) : (s.send m).copies = s.copies := rfl
@[simp] theorem State.send_copyCount (s : State) (m : Packet) : (s.send m).copyCount = s.copyCount := rfl
@[simp] theorem State.send_turn (s : State) (m : Packet) : (s.send m).turn = s.turn := rfl
@[simp] theorem State.send_picked (s : State) (m : Packet) : (s.send m).picked = s.picked := rfl
@[simp] theorem State.send_shootdowns (s : State) (m : Packet) : (s.send m).shootdowns = s.shootdowns := rfl
@[simp] theorem State.send_clk (s : State) (m : Packet) : (s.send m).clk = s.clk := rfl
@[simp] theorem State.send_cur (s : State) (m : Packet) : (s.send m).cur = s.cur := rfl
@[simp] theorem State.send_curCtx (s : State) (m : Packet) : (s.send m).curCtx = s.curCtx := rfl
@[simp] theorem State.send_stalled (s : State) (m : Packet) : (s.send m).stalled = s.stalled := rfl
@[simp] theorem State.send_free (s : State) (m : Packet) : (s.send m).free = s.free := rfl

@[simp] theorem State.passOver_mem (s : State) : (s.passOver).mem = s.mem := rfl
@[simp] theorem State.passOver_poison (s : State) : (s.passOver).poison = s.poison := rfl
@[simp] theorem State.passOver_hostMem (s : State) : (s.passOver).hostMem = s.hostMem := rfl
@[simp] theorem State.passOver_cores (s : State) : (s.passOver).cores = s.cores := rfl
@[simp] theorem State.passOver_quads (s : State) : (s.passOver).quads = s.quads := rfl
@[simp] theorem State.passOver_clusters (s : State) : (s.passOver).clusters = s.clusters := rfl
@[simp] theorem State.passOver_memCores (s : State) : (s.passOver).memCores = s.memCores := rfl
@[simp] theorem State.passOver_dies (s : State) : (s.passOver).dies = s.dies := rfl
@[simp] theorem State.passOver_modules (s : State) : (s.passOver).modules = s.modules := rfl
@[simp] theorem State.passOver_present (s : State) : (s.passOver).present = s.present := rfl
@[simp] theorem State.passOver_jobs (s : State) : (s.passOver).jobs = s.jobs := rfl
@[simp] theorem State.passOver_mgmt (s : State) : (s.passOver).mgmt = s.mgmt := rfl
@[simp] theorem State.passOver_agenda (s : State) : (s.passOver).agenda = s.agenda := rfl
@[simp] theorem State.passOver_later (s : State) : (s.passOver).later = s.later := rfl
@[simp] theorem State.passOver_arrivals (s : State) : (s.passOver).arrivals = s.arrivals := rfl
@[simp] theorem State.passOver_copies (s : State) : (s.passOver).copies = s.copies := rfl
@[simp] theorem State.passOver_copyCount (s : State) : (s.passOver).copyCount = s.copyCount := rfl
@[simp] theorem State.passOver_turn (s : State) : (s.passOver).turn = s.turn := rfl
@[simp] theorem State.passOver_picked (s : State) : (s.passOver).picked = s.picked := rfl
@[simp] theorem State.passOver_shootdowns (s : State) : (s.passOver).shootdowns = s.shootdowns := rfl
@[simp] theorem State.passOver_clk (s : State) : (s.passOver).clk = s.clk := rfl
@[simp] theorem State.passOver_cur (s : State) : (s.passOver).cur = s.cur := rfl
@[simp] theorem State.passOver_curCtx (s : State) : (s.passOver).curCtx = s.curCtx := rfl
@[simp] theorem State.passOver_stalled (s : State) : (s.passOver).stalled = true := rfl
@[simp] theorem State.passOver_free (s : State) : (s.passOver).free = s.free := rfl

@[simp] theorem State.useOpen_mem (s : State) : (s.useOpen).mem = s.mem := rfl
@[simp] theorem State.useOpen_poison (s : State) : (s.useOpen).poison = s.poison := rfl
@[simp] theorem State.useOpen_hostMem (s : State) : (s.useOpen).hostMem = s.hostMem := rfl
@[simp] theorem State.useOpen_cores (s : State) : (s.useOpen).cores = s.cores := rfl
@[simp] theorem State.useOpen_quads (s : State) : (s.useOpen).quads = s.quads := rfl
@[simp] theorem State.useOpen_clusters (s : State) : (s.useOpen).clusters = s.clusters := rfl
@[simp] theorem State.useOpen_memCores (s : State) : (s.useOpen).memCores = s.memCores := rfl
@[simp] theorem State.useOpen_dies (s : State) : (s.useOpen).dies = s.dies := rfl
@[simp] theorem State.useOpen_modules (s : State) : (s.useOpen).modules = s.modules := rfl
@[simp] theorem State.useOpen_present (s : State) : (s.useOpen).present = s.present := rfl
@[simp] theorem State.useOpen_jobs (s : State) : (s.useOpen).jobs = s.jobs := rfl
@[simp] theorem State.useOpen_mgmt (s : State) : (s.useOpen).mgmt = s.mgmt := rfl
@[simp] theorem State.useOpen_agenda (s : State) : (s.useOpen).agenda = s.agenda := rfl
@[simp] theorem State.useOpen_later (s : State) : (s.useOpen).later = s.later := rfl
@[simp] theorem State.useOpen_arrivals (s : State) : (s.useOpen).arrivals = s.arrivals := rfl
@[simp] theorem State.useOpen_copies (s : State) : (s.useOpen).copies = s.copies := rfl
@[simp] theorem State.useOpen_copyCount (s : State) : (s.useOpen).copyCount = s.copyCount := rfl
@[simp] theorem State.useOpen_turn (s : State) : (s.useOpen).turn = s.turn := rfl
@[simp] theorem State.useOpen_picked (s : State) : (s.useOpen).picked = s.picked := rfl
@[simp] theorem State.useOpen_shootdowns (s : State) : (s.useOpen).shootdowns = s.shootdowns := rfl
@[simp] theorem State.useOpen_clk (s : State) : (s.useOpen).clk = s.clk := rfl
@[simp] theorem State.useOpen_cur (s : State) : (s.useOpen).cur = s.cur := rfl
@[simp] theorem State.useOpen_curCtx (s : State) : (s.useOpen).curCtx = s.curCtx := rfl
@[simp] theorem State.useOpen_stalled (s : State) : (s.useOpen).stalled = s.stalled := rfl
@[simp] theorem State.useOpen_free (s : State) : (s.useOpen).free = s.free + 1 := rfl

end Sys2Proof.Machine
end

