-- ==== Sys2Proof/Laws/Shared.lean ====
section
/-! SUPPORT. What each shared operation can do: one lemma for each, to be cited in place of the definition. -/

namespace Sys2Proof.Machine

/-! The course of an instruction. -/

/-- An instruction that is qualified off only advances; one that is on is settled with the result of its own work, after its checks (R186, R200). -/
theorem issue_cases (s : State) (p : BitVec 4) (op : Nat) (srcs dsts : List Operand) (body : State → Res State) :
    (s.regs.qualified p = false ∧ s.issue p op srcs dsts body = .next s.advance) ∨
    (s.regs.qualified p = true ∧ ∃ r : Res State, s.issue p op srcs dsts body = .next (s.settle r) ∧ ∀ t, r = .ok t → body s = .ok t) := by
  unfold State.issue
  cases hq : s.regs.qualified p
  · exact .inl ⟨rfl, by simp⟩
  · refine .inr ⟨rfl, _, by simp only [if_true]; rfl, ?_⟩
    intro t ht
    cases h1 : s.regs.checkSources op srcs with
    | error e => rw [h1] at ht; cases ht
    | ok u =>
      rw [h1] at ht
      cases h2 : body s with
      | error e => rw [h2] at ht; cases ht
      | ok v =>
        rw [h2] at ht
        cases h3 : s.regs.checkDests dsts with
        | error e =>
          have ht' : (s.regs.checkDests dsts >>= fun _ => pure v) = Except.ok t := ht
          rw [h3] at ht'; cases ht'
        | ok w =>
          have ht' : (s.regs.checkDests dsts >>= fun _ => pure v) = Except.ok t := ht
          rw [h3] at ht'; exact ht'

/-- No instruction stops the machine in the common course. -/
theorem issue_next (s : State) (p : BitVec 4) (op : Nat) (srcs dsts : List Operand) (body : State → Res State) :
    ∃ t, s.issue p op srcs dsts body = .next t := by
  obtain ⟨-, h⟩ | ⟨-, r, h, -⟩ := issue_cases s p op srcs dsts body
  · exact ⟨_, h⟩
  · exact ⟨_, h⟩

/-- A parking fault takes the context as R384 gives, with two open values used for what its rule does not state (log 6). -/
theorem settle_trap (s : State) (c : Nat) (a i : Option Word) :
    s.settle (.error (.trap c a i)) = { s with free := s.free + 2 }.takeFault s.cur s.curCtx c (s.given 0 a) (s.given 1 i) := rfl

/-- A missed translation that a walk of the cluster serves, or a slot of its queue holds: the context waits for the walk and is passed over (R102). -/
theorem settle_walk {s t : State} {w : Walk} (h : s.coreMiss s.cur w = some t) :
    s.settle (.error (.walk w)) = (t.setMe { t.me with miss := some (.walking w.job w.va) }).passOver := by
  simp [State.settle, State.stop, h]

/-- A missed translation that the full queue of the cluster refuses: the context is passed over, and asks again (R102). -/
theorem settle_walk_full {s : State} {w : Walk} (h : s.coreMiss s.cur w = none) : s.settle (.error (.walk w)) = s.passOver := by
  simp [State.settle, State.stop, h]

/-- An effect joins the block's buffered effects, or the buffer overflows with cause 0x12 (R116). -/
theorem buffer_cases (s : State) (e : Effect) :
    (Room s e.entries ∧ s.buffer e = .ok (s.onBlock (fun b => { b with effects := b.effects ++ [e] }))) ∨
    (¬ Room s e.entries ∧ s.buffer e = .error (.trap 0x12 none none)) := by
  unfold State.buffer
  by_cases h : entriesOf s.me.retire + entriesOf s.block.effects + e.entries > 512
  · exact .inr ⟨by simp only [Room]; omega, by simp [h]⟩
  · exact .inl ⟨by simp only [Room]; omega, by simp [h]⟩

/-! The step. -/

/-- What a step is: an event that is due, the turn of a context, the order of a clk, or its beginning (R175, R374). -/
theorem step_cases (s : State) :
    (∃ e r, s.agenda = e :: r ∧ step s = perform e { s with agenda := r }) ∨
    (s.agenda = [] ∧ ∃ t r, s.turn = t :: r ∧ step s = takeTurn t (s.select t r)) ∨
    (s.agenda = [] ∧ s.turn = [] ∧ s.picked = false ∧ step s = .next s.pick) ∨
    (s.agenda = [] ∧ s.turn = [] ∧ s.picked = true ∧ step s = .next s.tick) := by
  cases ha : s.agenda with
  | cons e r => exact .inl ⟨e, r, rfl, by simp [step, ha]⟩
  | nil =>
    cases ht : s.turn with
    | cons t r => exact .inr (.inl ⟨rfl, t, r, rfl, by simp [step, ha, ht]⟩)
    | nil =>
      cases hp : s.picked
      · exact .inr (.inr (.inl ⟨rfl, rfl, rfl, by simp [step, ha, ht, hp]⟩))
      · exact .inr (.inr (.inr ⟨rfl, rfl, rfl, by simp [step, ha, ht, hp]⟩))

/-! Memory of the state. -/

/-- A unit's write on memory without poison is a plain write (R33, R44). -/
theorem writeUnits_clean {s : State} {pa : Nat} {bs : List Byte} (h : anyPoison s pa bs.length = false) :
    writeUnits s pa bs = ({ s with mem := Memory.writeN s.mem pa bs }, []) := by
  simp [writeUnits, h]

/-- A unit's write keeps the canonical form. -/
theorem wf_writeUnits {s : State} (pa : Nat) (bs : List Byte) (h : Memory.wf s.mem = true) : Memory.wf (writeUnits s pa bs).1.mem = true := by
  unfold writeUnits
  split
  · exact Memory.wf_foldl_write _ _ _ h
  · exact Memory.wf_writeN _ _ h

/-- A unit's write leaves every byte outside its run alone. -/
theorem read_writeUnits_outside (s : State) {pa a : Nat} (bs : List Byte) (h : a < pa ∨ pa + bs.length ≤ a) :
    Memory.read (writeUnits s pa bs).1.mem a = Memory.read s.mem a := by
  unfold writeUnits
  split
  · have : ∀ (l : List Nat) (m : Memory), (∀ k ∈ l, k < bs.length) →
        Memory.read (l.foldl (fun m k => Memory.write m (pa + k) (bs.getD k 0)) m) a = Memory.read m a := by
      intro l
      induction l with
      | nil => intro m _; rfl
      | cons k r ih =>
        intro m hl
        have hk := hl k (by simp)
        rw [List.foldl_cons, ih _ (fun j hj => hl j (by simp [hj])), Memory.read_write_ne _ _ (by omega)]
    exact this _ _ (fun k hk => by simpa using (List.mem_filter.mp hk).1)
  · exact Memory.read_writeN_outside _ _ h

end Sys2Proof.Machine
end

