-- ==== Sys2Proof/Tests/Slice0.lean ====
section
/-! SUPPORT. The model's own tests: ill-formed terms that the check refuses, words written out from the encodings of the spec, single results of the spec's own examples, and a state that meets the hypotheses of each statement. -/

namespace Sys2Proof.Tests

/-! Each theorem is checked before the next: their evaluations together ask for more threads than memory holds. -/
set_option Elab.async false

open Sys2Proof Sys2Proof.Machine

/-! ## States to test on -/

/-- Context 0 of core 0 is Live in an open block. -/
def here : State := State.reset.withFetchWord 32 0

/-- The same with its context, its block or its g registers changed. -/
def ctx (f : Ctx → Ctx) : State := here.setMe (f here.me)
def blk (f : OpenBlock → OpenBlock) : State := here.onBlock f
def g (l : List (Nat × Word)) : State := here.setRegs (l.foldl (fun r e => r.setG e.1 e.2) here.regs)
def core (f : Core → Core) : State := here.setMyCore (f here.myCore)

/-- The same in the system context. -/
def sys : State := { State.reset.setCtx 0 10 { status := .live, block := some { header := 0, words := [0] } } with curCtx := 10 }

/-- Registers set in any state. -/
def withG (s : State) (l : List (Nat × Word)) : State := s.setRegs (l.foldl (fun r e => r.setG e.1 e.2) s.regs)

/-- A page of 64 KiB at virtual address 0x10000, on the G store of quad 0, with every right. -/
def page : TlbEntry := ⟨0, 0x10000, 3, .ofNat 64 (localPhys 0 0 + 0x1F)⟩

/-- Registers set in the open block, whose core's data TLB holds the page. -/
def paged (l : List (Nat × Word)) : State := (g l).setMyCore { (g l).myCore with dtlb := [page] }

/-- A result is there and has a property. -/
def holds {α : Type} (r : Res α) (f : α → Bool) : Bool :=
  match r with
  | .ok a => f a
  | .error _ => false

/-- A state after an outcome. -/
def after : Out → State
  | .next s => s
  | _ => State.reset

/-- The value of a g register after an instruction. -/
def gAfter (n : Nat) (o : Out) : Word := (after o).regs.gval n

/-! ## Ill-formed terms: one for each check (R174, R194) -/

theorem test_wf_control_and_integer : ∀ i ∈ [Instr.waitf 0 0 2, .empty 0 0 0 4, .shli 0 0 0 64, .shri 0 0 0 64, .sari 0 0 0 64, .wkf 0 0 0 6, .wkf 0 0 0 14,
    .wks 0 0 0 0 6, .movm 0 0 4 0, .movm 0 0 0 34, .cmp 0 0 0 0 10], i.check = some .undefinedValue := by decide

theorem test_wf_memory_and_messages : ∀ i ∈ [Instr.ldp 0 1 0 0 0 0, .stp 0 1 0 0 0 0, .amo 0 0 0 0 10, .rld 0 0 0 0 0 0 7, .ramo 0 0 0 0 26, .vst 0 0 0 0 0 6, .fence 0 3,
    .send 0 0 0 0 1, .send 0 0 0 0 2, .send 0 0 0 0 7, .send 0 0 0 0 12, .qpush 0 0 0 0 0, .qpush 0 0 0 0 9], i.check = some .undefinedValue := by decide

theorem test_wf_vector : ∀ i ∈ [Instr.vadd 0 0 0 0 3, .vsub 0 0 0 0 3, .vmul 0 0 0 0 3, .vfma 0 0 0 0 3, .vfms 0 0 0 0 3, .vmin 0 0 0 0 7, .vmax 0 0 0 0 7, .vabs 0 0 0 4, .vabs 0 0 0 7,
    .vneg 0 0 0 4, .vneg 0 0 0 7, .vcmp 0 0 0 0 7 0, .vcmp 0 0 0 0 2 8, .vcmp 0 0 0 0 3 6, .vcvt 0 0 0 0 0 0, .vcvt 0 0 0 0 7 0, .vpackb 0 0 0 7, .vunpackb 0 0 0 7, .vsqrt 0 0 0 3,
    .vred 0 0 0 1 0, .vred 0 0 0 0 3, .vshl 0 0 0 0 0 0, .vshr 0 0 0 0 5 0, .viadd 0 0 0 0 2 0, .viadd 0 0 0 0 7 0, .vimul 0 0 0 0 2 0, .vmovg 0 0 0 0, .vldm 0 0 4 0, .vldm 0 0 0 2],
    i.check = some .undefinedValue := by decide

theorem test_wf_units_and_system : ∀ i ∈ [Instr.latSet 0 0 0 6, .latGet 0 0 0 6, .latRdv 0 0 0 3, .mfs 0 0 26, .mts 0 0 26, .perfRd 0 0 10],
    i.check = some .undefinedValue := by decide

/-- Bit 4 of a register field that names a v register, and fields that a form does not use, must be zero (R189, R200). -/
theorem test_wf_reserved : ∀ i ∈ [Instr.waitf 0 16 1, .empty 0 0 16 1, .send 0 1 0 0 0, .sendv 0 1 0 0 0, .vcvt 0 0 0 1 0 3, .vcvt 0 0 0 0 0 9, .vcvt 0 0 0 0 3 16, .vshl 0 0 0 1 3 1, .vshr 0 0 0 1 4 1],
    i.check = some .reserved := by decide

theorem test_wf_accepts : ∀ i ∈ [Instr.waitf 0 31 0, .shli 0 0 0 63, .wks 0 0 0 0 5, .movm 0 0 3 33, .cmp 0 0 0 0 9, .ldp 0 30 0 0 0 0, .amo 0 0 0 0 25, .rld 0 0 0 0 0 0 6, .send 0 1 0 0 8,
    .send 0 0 0 0 3, .qpush 0 0 0 0 8, .vcmp 0 0 0 0 0 7, .vcvt 0 0 0 1 0 1, .vcvt 0 0 0 0 1 8, .vshl 0 0 0 1 3 0, .viadd 0 0 0 0 6 3, .latSet 0 0 0 5, .mfs 0 0 25, .perfRd 0 0 9],
    i.check = none := by decide


/-! ## Words written out from the encodings (Tables 8-4 and 8-7): opcode in [31:24], then the operand fields of the row -/

theorem test_decode_control : decode 0x04020000 = .ok (.loop 0 1 0) := rfl
theorem test_decode_add : decode 0x100318E0 = .ok (.add 0 6 6 7 0 0) := rfl
theorem test_decode_movl : decode 0x3502A000 = .ok (.movl 0 5 0x2000) := rfl
theorem test_decode_movh : decode 0x36055678 = .ok (.movh 0 10 0x5678) := rfl
theorem test_decode_wkf : decode 0x3A049409 = .ok (.wkf 0 9 5 9) := rfl
theorem test_decode_node : decode 0x3C01814B = .ok (.node 0 3 0 10 11) := rfl
theorem test_decode_movm : decode 0x3D028020 = .ok (.movm 0 5 0 32) := rfl
theorem test_decode_compare : decode 0x43051064 = .ok (.cmpi43 0 1 2 4 100) := rfl
theorem test_decode_keys : decode 0x78020000 = .ok (.keya 0 4) ∧ decode 0x7B02B000 = .ok (.waitall 0 5 12 0) ∧ decode 0x79003000 = .ok (.keyf 0 12 0) := ⟨rfl, rfl, rfl⟩
theorem test_decode_matrix : decode 0x80020000 = .ok (.mxLease 0 4 0) ∧ decode 0x85002900 = .ok (.mxRun 0 0 10 8) ∧ decode 0x8704A960 = .ok (.mxDrain 0 9 10 11 0) ∧
    decode 0x81000000 = .ok (.mxRel 0) := ⟨rfl, rfl, rfl, rfl⟩
theorem test_decode_stream : decode 0x8A030860 = .ok (.strmGo 0 6 2 3 0) := rfl
theorem test_decode_vector : decode 0x9C0210E2 = .ok (.vpackb 0 2 1 2) ∧ decode 0xB3102003 = .ok (.vstm 1 2 3) := ⟨rfl, rfl⟩
theorem test_decode_lattice : decode 0xC0001400 = .ok (.latPatch 0 5) ∧ decode 0xC7001800 = .ok (.latRun 0 6) ∧ decode 0xC203A000 = .ok (.latGet 0 7 8 0) := ⟨rfl, rfl, rfl⟩
theorem test_decode_patch : decode 0xE0001401 = .ok (.cfgLd 0 5 1) ∧ decode 0xF3020440 = .ok (.xn 3 0 4 1 2 0) ∧ decode 0xE303A002 = .ok (.cfgQRot 0 7 8) := ⟨rfl, rfl, rfl⟩
theorem test_decode_refuses : decode 0x0E000000 = .error .unassigned ∧ decode 0x00000001 = .error .reserved := ⟨rfl, rfl⟩


/-! ## Results of the spec's own tables and examples -/

/-- The cases of R212. -/
theorem test_division :
    gAfter 3 (exec (.div 0 3 1 2 0 0) (g [(1, 7)])) = 0 ∧ gAfter 3 (exec (.remn 0 3 1 2 0 0) (g [(1, 7)])) = 7 ∧
    gAfter 3 (exec (.div 0 3 1 2 0 0) (g [(1, 0x8000000000000000), (2, 0xFFFFFFFFFFFFFFFF)])) = 0x8000000000000000 ∧
    gAfter 3 (exec (.rem 0 3 1 2 0 0) (g [(1, 0x8000000000000000), (2, 0xFFFFFFFFFFFFFFFF)])) = 0 ∧
    gAfter 3 (exec (.div 0 3 1 2 0 0) (g [(1, 0xFFFFFFFFFFFFFFF9), (2, 2)])) = 0xFFFFFFFFFFFFFFFD ∧
    gAfter 3 (exec (.rem 0 3 1 2 0 0) (g [(1, 0xFFFFFFFFFFFFFFF9), (2, 2)])) = 0xFFFFFFFFFFFFFFFF ∧
    gAfter 3 (exec (.divn 0 3 1 2 0 0) (g [(1, 0xFFFFFFFFFFFFFFF9), (2, 2)])) = 0x7FFFFFFFFFFFFFFC ∧
    gAfter 3 (exec (.remn 0 3 1 2 0 0) (g [(1, 0xFFFFFFFFFFFFFFF9), (2, 2)])) = 1 := by decide +kernel

/-- The example of R221: CMPI.gen p2, g4, #100. -/
theorem test_compare : (after (exec (.cmpi43 0 1 2 4 100) (g [(4, 0xFFFFFFFFFFFFFF9C)]))).regs.pred 2 = true ∧
    (after (exec (.cmpi42 0 2 2 4 100) (g [(4, 0xFFFFFFFFFFFFFF9C)]))).regs.pred 2 = false := by decide +kernel

/-- The example after R219: the levels of a work key with widths 8, 16 and 12. -/
theorem test_work_keys :
    (let s := (g [(5, 0x30007050), (8, 0x51)]).setMyCore { (g [(5, 0x30007050), (8, 0x51)]).myCore with wkdesc := .ofNat 64 (8 + 16 * 2 ^ 7 + 12 * 2 ^ 14 + 2 * 2 ^ 42) }
     gAfter 6 (exec (.wkf 0 6 5 1) s) = 7 ∧ gAfter 7 (exec (.wks 0 7 5 8 2) s) = 0x30007051 ∧ gAfter 9 (exec (.wkf 0 9 5 9) s) = 0x30007000) := by decide +kernel

/-- The register file with lanes set in one v register. -/
def vec (n : Nat) (l : List Nat) : Regs := here.regs.setV n (Vector.ofFn (fun k : Fin 32 => .ofNat 32 (l.getD k.val 0)))

/-- The example of R270: a sum over four lanes, pairwise. -/
theorem test_reduction :
    (let r := vec 1 [0x4B800000, 0x3F800000, 0x3F800000, 0xCB800000]
     let t := after (exec (.vred 1 2 1 0 0) (here.setRegs { r with q := r.q.set 1 0xF }))
     t.regs.lane 2 0 = 0x3F800000 ∧ t.regs.flags = flagNX) := by decide +kernel

/-- Table 11-5. -/
theorem test_approximations :
    approxRecip false 0x40400000 = (0x3EAA7000, 0) ∧ (approxRecip false 0x80000000).1 = 0xFF800000 ∧ (approxRecip false 1).1 = 0x7F800000 ∧ (approxRecip false 0x7F000000).1 = 0 ∧
    (approxRoot false 0x40000000).1 = 0x3F34B000 ∧ (approxRoot false 0xBF800000).1 = 0x7FC00000 ∧ (approxExp false 0x3FC00000).1 = 0x40354000 ∧
    (approxExp false 0xC3480000).1 = 0 ∧ (approxLog false 0x40400000).1 = 0x3FCB1D80 ∧ (approxLog false 0).1 = 0xFF800000 := by decide +kernel

/-- The examples of R81, R87 and R88: a NaN conversion, a packed block, a chunk. -/
theorem test_formats :
    convertFloat f32 bf16 ⟨0, false⟩ 0xFF812345 = (0xFFC1, flagNV) ∧ (convertFloat bf16 f32 ⟨0, false⟩ 0xFFC1).1 = 0xFFC10000 ∧
    (packBlock false 4 ([0x40400000, 0x3FC00000, 0xBE99999A, 0x3DCCCCCD, 0x40700000] ++ List.replicate 27 0)).1 = 0x80 ∧
    (packBlock false 4 ([0x40400000, 0x3FC00000, 0xBE99999A, 0x3DCCCCCD, 0x40700000] ++ List.replicate 27 0)).2.1.take 4 = [6, 3, -1, 0] ∧
    (let bs := (List.range 128).flatMap (fun k => if k = 0 ∨ k = 5 ∨ k = 127 then [(1 : Byte), 0] else [0, 0])
     (chunkEncoding 2 bs).length = 22 ∧ (chunkEncoding 2 bs).head? = some 0x21 ∧ (chunkEncoding 2 bs)[15]? = some 0x80) := by decide +kernel

/-- The example of R37: the stack of context 7 of core 2. -/
theorem test_stack : stackBase 2 7 = 0x38800 ∧ coreNode 9 43 35 2 = 0x92B8E := by decide +kernel

/-- The example of R293: one block of width 4. -/
theorem test_array_run :
    (let a : MxBlock := ⟨[6, 3, -1, 0, 7] ++ List.replicate 27 0, 0x80, false⟩
     let b : MxBlock := ⟨List.replicate 5 2 ++ List.replicate 27 0, 0x7F, false⟩
     let r := runCell (mxFormat 0x22) (0, 0) [a] [b]
     r.acc = 0x40700000 ∧ r.kb = 1 ∧ r.flags = 0 ∧ (runCell (mxFormat 0x22) (0, 0) [a] [{ b with bad := true }]).acc = 0x7FC70000) := by decide +kernel

/-- The example of R296: four keys in descending order. -/
theorem test_sort :
    (let s : State := { State.reset with mem := Memory.writeN [] 0 (bytesOfWords [0x400000003F000000, 0xBF8000003F000000]) }
     (sortBy SortKey.before ((List.range 4).map (fun i => (s.sortKey 0 1 4 100 i).1))).map (fun k => (k.bits, k.index)) =
       [(0x40000000, 101), (0x3F000000, 100), (0x3F000000, 102), (0xBF800000, 103)]) := by decide +kernel

/-- The example of R439: a sum over four ranks, and over three. -/
theorem test_all_reduce : reduceRanks 0 0 [0x4B800000, 0x3F800000, 0x3F800000, 0xCB800000] = 0x3F800000 ∧ reduceRanks 0 0 [0x4B800000, 0x3F800000, 0xCB800000] = 0 := by
  decide +kernel

/-- CRC-32C of the digits 1 to 9, the value by which that polynomial is known. -/
theorem test_crc : crc32c ((List.range 9).map (fun k => .ofNat 8 (0x31 + k))) = 0xE3069283 := by decide +kernel

/-- R224, R385: an unaligned load parks its context with cause 0x08, in the system queue of its core. -/
theorem test_alignment_fault :
    (let t := after (exec (.ldN64 0 3 1 0) (g [(1, 4)]))
     t.me.status = .parked ∧ t.me.trap.cause = 0x08 ∧ t.me.block = none ∧ t.myCore.sysq = [.trap 0 0]) := by decide +kernel

/-! ## States and operands that meet the hypotheses of the statements about single instructions -/

/-- IntegerResults: every register is full after reset; a predicate that is off, negated, is on. -/
theorem witness_IntegerResults : On here 0 [rg (31 : BitVec 5), rg (0 : BitVec 5)] [rg (31 : BitVec 5)] ∧
    On (g [(1, 5), (2, 0)]) 9 [rg (1 : BitVec 5), rg (2 : BitVec 5)] [rg (0 : BitVec 5)] := by decide +kernel

/-- FieldAndConstantResults. -/
theorem witness_FieldAndConstantResults : On here 0 [rg (1 : BitVec 5), rg (2 : BitVec 5), rg (31 : BitVec 5)] [rg (31 : BitVec 5)] := by decide +kernel

/-- A job of ten modules in a rectangle of 8 by 12 quads at (40, 30). -/
def placed : State :=
  let s := core (fun c => { c with plbase := 0x0C081E28 })
  { s with present := 0x3FF, jobs := [(0, { record := { nmod := 9, modmap := List.range 10 } })] }

/-- A message of two beats. -/
def mail : Packet := { w0 := msgHeader 0 0 0 0 2 false 0 false 0 0, w1 := 0x1234, payload := [1, 2, 3, 4, 5, 6, 7, 8], poison := [false, true] }

/-- The invocation in context 0 holds that message. -/
def received : State := ctx (fun x => { x with invocation := some { entry := { inputs := [mail], head := 0 }, handler := 0 } })

/-- NodeAndPayloadReads: a node that exists and one that does not; the last word of an input, a poisoned word, its key and its header; no input. -/
theorem witness_NodeAndPayloadReads :
    (On placed 0 [rg (1 : BitVec 5), rg (2 : BitVec 5), rg (3 : BitVec 5)] [rg (4 : BitVec 5)] ∧
      (match placed.formNode 7 11 0x903 with | .error _ => false | .ok n => goodNode placed.present n) = true ∧
      (match placed.formNode 8 11 0 with | .error _ => true | .ok _ => false) = true) ∧
    On received 0 [] [rg (4 : BitVec 5)] ∧ received.input 0 = some mail ∧ payloadPoison mail 31 = false ∧ payloadPoison mail 4 = true ∧
    received.input (31 : BitVec 5).toNat = none ∧
    (received.me.invocation.map (fun v => v.keyless)) = some false ∧ received.isSystem = false := by decide +kernel

/-- PredicateResults: the last condition of each compare. -/
theorem witness_PredicateResults : On here 0 [rg (1 : BitVec 5), rg (2 : BitVec 5)] [] ∧ On here 0 [] [rg (31 : BitVec 5)] ∧
    [true, false, true, false, true, false, true, false, true, false][(9 : BitVec 5).toNat]? = some false := by decide +kernel

/-- ExitsAndMarks: no exit is taken, with a good target and a loop count of 2, 1 and 0. -/
theorem witness_exits : here.block.taken = none ∧ On (g [(31, 2), (30, 8)]) 0 [rg (30 : BitVec 5)] [] ∧ goodTarget ((g [(30, 8)]).regs.gval 30) ∧
    On (g [(31, 2)]) 0 [.g 31 false] [] ∧ 1 < ((g [(31, 2)]).regs.gval 31).toNat ∧ goodTarget (here.relTarget 0x1FFFF) = False ∧ goodTarget (here.relTarget 1) ∧
    (g [(31, 1)]).regs.gval 31 = 1 ∧ here.regs.gval 31 = 0 := by
  refine ⟨by decide +kernel, by decide +kernel, by decide +kernel, by decide +kernel, by decide +kernel, ?_, by decide +kernel, by decide +kernel, by decide +kernel⟩
  simp only [eq_iff_iff, iff_false]
  decide +kernel

/-- ExitsAndMarks: an exit is taken; a target beyond the canonical addresses and one off its alignment; a mark is set; the breakpoints are on and off. -/
theorem witness_ExitsAndMarks : (blk (fun b => { b with taken := some .done })).block.taken.isSome = true ∧
    On (blk (fun b => { b with taken := some .done })) 0 [rg (1 : BitVec 5)] [] ∧
    2 ^ 48 ≤ ((g [(1, 0x1000000000000)]).val (1 : BitVec 5)).toNat ∧ ((g [(1, 2)]).val (1 : BitVec 5)).toNat % 4 ≠ 0 ∧
    here.block.trap = none ∧ here.regs.stateOf (rg (1 : BitVec 5)) = .full ∧
    (blk (fun b => { b with traceCtl := 2 })).block.traceCtl.getLsbD 1 = true ∧ here.block.traceCtl.getLsbD 1 = false ∧
    (blk (fun b => { b with trap := some ⟨0x70, 0, 0⟩ })).block.trap.isSome = true ∧
    (∀ r ∈ targetTable here 0 7 0x1FFFE 1, On here 0 r.2.1 []) ∧ 2 ^ 48 ≤ (here.relTarget 0x1FFFE).toNat ∧
    (here.relTarget 1).toNat % 4 = 0 ∧ ((blk (fun b => { b with header := 2 })).relTarget 1).toNat % 4 ≠ 0 ∧
    (here.regs.stateOf (rv (15 : BitVec 4))).isEmpty = false := by decide +kernel

/-- An effect on a cell of the own quad. -/
def own : Effect := .mem { op := 1, addr := 0, virt := true, pa := localPhys 0 0, size := 3, payload := [0], opcode := 0x61, job := 0 }

/-- ScalarLocalAccess: the last byte that a scalar access of a handler context reaches of its own stack, the first byte of G, and room for an entry; a poisoned word; an effect on the own quad that waits to depart. -/
theorem witness_ScalarLocalAccess : ReadsLocal here ∧ poisonedRead (here.addPoison (localPhys 0 8)) 15 1 ∧ goodLocal here .scalar 15 1 false 1 ∧
    ¬ ReadsLocal (core (fun c => { c with departure := [(0, own)] })) ∧ On (g [(1, 0x2A7FF)]) 0 [rg (1 : BitVec 5)] [rg (2 : BitVec 5)] ∧ Unheld here ∧
    goodLocal here .scalar ((g [(1, 0x2A7FF)]).formM 1 0 1) 1 false 1 ∧ cleanRead here 0x2A7FF 1 ∧
    goodLocal here .scalar ((g [(1, 8)]).formM 1 0x3FF 8) 8 true 8 ∧ Room here 1 := by decide +kernel

/-- VectorAndWideLocalAccess: every lane, at the end of a store and at the addresses of an index register. -/
theorem witness_vector_lanes :
    ReadsLocal here ∧ Lanes here 0 [rg (1 : BitVec 5), rv (2 : BitVec 4)] [rv (15 : BitVec 4)] ∧ goodLocal here .vector (0x180000 - 128) 128 false 128 ∧
    (∀ k ∈ activeLanes (here.regs.laneMask 0), cleanRead here (4 * k) 4) ∧
    (∀ k ∈ activeLanes (here.regs.laneMask 0), goodLocal here .vector (here.val (1 : BitVec 5) + (here.regs.lane 2 k).setWidth 64).toNat 4 false 4) := by decide +kernel

/-- VectorAndWideLocalAccess: room for an indexed store, a store to A, and the pair of g30 and g31. -/
theorem witness_VectorAndWideLocalAccess : Unheld here ∧ Room here 9 ∧ goodLocal here .vector 0x200000 128 true 128 ∧
    On here 0 [rg (1 : BitVec 5), rg (2 : BitVec 5), rg (30 : BitVec 5), .g 31 false] [] ∧ goodLocal here .scalar 0 16 true 16 ∧ cleanRead here 8 8 := by decide +kernel

/-- LocalAtomicsAndFaults: an atomic of 8 bytes, compare and swap; an address beyond its store, a store that its engine may not make, a wrong alignment, the handler table, and another context's stack. -/
theorem witness_LocalAtomicsAndFaults :
    On here 0 [rg (1 : BitVec 5), rg (2 : BitVec 5), rg (3 : BitVec 5)] [rg (3 : BitVec 5)] ∧ goodLocal here .rmw 0x27FF8 8 true 8 ∧
    storeSize (laSel 0x3FFFF) < laOff 0x3FFFF + 2 ∧ allowed .rmw 1 true = false ∧ allowed .scalar 0 true = true ∧ (0x29 % 8 ≠ 0) ∧
    (laSel 0x28000 = 0 ∧ here.isSystem = false ∧ laOff 0x29FF8 < 0x2A000) ∧ stackBase 0 0 + 0x800 ≤ laOff 0x2A800 := by decide +kernel

/-- RemoteEffectsBuffered, of the remote accesses: the page of the data TLB translates for a store, an atomic and a copy. -/
theorem witness_remote_effects :
    Running (paged [(1, 0x10000), (2, 8), (3, 32)]) ∧ On (paged [(1, 0x10000)]) 0 [rg (1 : BitVec 5), rg (2 : BitVec 5), rg (3 : BitVec 5)] [rg (3 : BitVec 5)] ∧
    goodVirtual 0x10008 8 ∧ holds ((paged []).reach .write 0x61 0x10008) (fun r => decide (Room r.2 1 ∧ Running r.2 ∧ inG r.1 = true)) = true ∧
    holds ((paged []).reach .atomic 0x62 0x1FFF8) (fun r => decide (Room r.2 1 ∧ r.2.me.freeSlot.isSome = true)) = true ∧
    goodVirtual 0x10000 32 ∧ goodVirtual 0x18000 32 ∧ holds ((paged []).splitCopy 0x10000 0x18000 32768) (fun r => decide (Room r.2 1 ∧ Running r.2)) = true ∧
    0xFFFFFFFFFFE0 + 32 ≤ 2 ^ 48 := by decide +kernel

/-- RemoteEffectsBuffered, of the versioned cells: a cell of the own quad and the cell of the page. -/
theorem witness_RemoteEffectsBuffered : goodLocal here .versioned 0x27FC0 64 true 64 ∧ laSel 0x27FC0 = 0 ∧
    holds ((paged []).reach .write 0x65 0x1FFC0) (fun r => inG r.1) = true ∧ holds ((paged []).reach .write 0x66 0x10000) (fun r => inG r.1) = true := by decide +kernel

/-- ImmediateReadsAndTranslation: a read of the page departs, as do a read of a versioned cell and of the last tumbler of the next quad; the page permits the access, and outside every page a walk starts from a root in HBM. -/
theorem witness_ImmediateReadsAndTranslation :
    Running (paged []) ∧ Unheld (paged []) ∧ goodVirtual 0x1FFF8 8 ∧ holds ((paged []).reach .read 0x60 0x1FFF8) (fun r => decide (Clear r.2 (remoteAddr r.1).1 ∧ r.2.me.freeSlot.isSome = true)) = true ∧
    holds ((paged []).reach .read 0x64 0x1FFC0) (fun r => decide (inG r.1 = true ∧ Clear r.2 (remoteAddr r.1).1)) = true ∧
    (goodLocal here .versioned 0 64 false 64 ∧ Clear here (remoteAddr (localPhys 0 0)).1) ∧
    (((g [(1, .ofNat 64 (511 + 512 + 1024 * 4))]).val (1 : BitVec 5)).toNat = 511 + 512 + 1024 * 4 ∧ goodNode here.present 4 = true ∧ nodeIsEnd 4 = false ∧
      quadOf 4 ≠ quadOf here.cur ∧ Clear here (quadOf 4)) ∧ ((g [(1, 511)]).val (1 : BitVec 5)).toNat < 512 ∧
    (tlbPick (paged []).myCore.dtlb 0 0x1FFFF = some page ∧ permitted page.pte .read = true ∧ placeOf (pteAddr page.pte) ≠ .reserved) ∧
    tlbMulti (paged []).myCore.dtlb 0 0x1FFFF = false ∧ ownerOf (pteAddr page.pte + 0xFFFF) = some 0 ∧ goodNode (paged []).present 0 = true ∧
    ownerOf (63 * 2 ^ 46 + localPhys 0 0) = some (63 * 65536) ∧ goodNode (paged []).present (63 * 65536) = false ∧
    (let blind : TlbEntry := ⟨0, 0x10000, 3, 3⟩
     tlbPick [blind, page] 0 0x10000 = some blind ∧ tlbMulti [blind, page] 0 0x10000 = true ∧ permitted blind.pte .write = false ∧
     ((paged []).cluster (clusterOf 0)).multi < 2 ^ 64) ∧
    permitted (0x100000000003 : Word) .write = false ∧ placeOf (pteAddr 0x3FFFFFFFFF1F) = .reserved ∧
    (let s : State := { here with jobs := [(0, { record := { job := 0, ptroot := 0x1000 } })] }
     tlbPick s.myCore.dtlb s.me.jobid 0 = none ∧ tlbPick (s.cluster (clusterOf s.cur)).tlb s.me.jobid 0 = none ∧ s.me.miss = none ∧ inHbm (s.ptroot s.me.jobid) = true) := by decide +kernel

/-- A descriptor of one beat and one of none for a core, an engine command of none, and a vector message. -/
theorem witness_good_messages :
    GoodMessage here 0 false false 0x200000000 0 ∧ GoodMessage here 0 false true 0 0 ∧ GoodMessage here 3 false false (.ofNat 64 (endNode 0 0 4 0)) 0 ∧
    GoodMessage here 0 true false 0x1000000000 0 ∧ GoodMessage sys 0 false false (0xFF * 0x400000) 0 :=
  ⟨⟨by decide +kernel, by decide +kernel, by decide +kernel, by decide +kernel, by decide +kernel, by decide +kernel, by decide +kernel, by decide +kernel, by decide +kernel⟩,
   ⟨by decide +kernel, by decide +kernel, by decide +kernel, by decide +kernel, by decide +kernel, by decide +kernel, by decide +kernel, by decide +kernel, by decide +kernel⟩,
   ⟨by decide +kernel, by decide +kernel, by decide +kernel, by decide +kernel, by decide +kernel, by decide +kernel, by decide +kernel, by decide +kernel, by decide +kernel⟩,
   ⟨by decide +kernel, by decide +kernel, by decide +kernel, by decide +kernel, by decide +kernel, by decide +kernel, by decide +kernel, by decide +kernel, by decide +kernel⟩,
   ⟨by decide +kernel, by decide +kernel, by decide +kernel, by decide +kernel, by decide +kernel, by decide +kernel, by decide +kernel, by decide +kernel, by decide +kernel⟩⟩

/-- MessagesFormedAndBuffered: room for them and a result; each kind of bad descriptor; the boundary of DP. -/
theorem witness_MessagesFormedAndBuffered : Running here ∧ On here 0 [rg (1 : BitVec 5), rg (2 : BitVec 5)] [rg (3 : BitVec 5)] ∧ here.me.freeSlot.isSome = true ∧
    holds (here.formMessage 0x70 0 false false 0x200000000 0) (fun m => decide (beatsOf m = 1 ∧ kindOf m = 0 ∧ Room here (1 + beatsOf m))) = true ∧
    holds (here.formMessage 0x70 3 false true 0 0) (fun m => decide (Room here (1 + beatsOf m))) = true ∧
    holds (here.formMessage 0x71 0 true false 0x1000000000 0) (fun m => decide (beatsOf m = 8)) = true ∧
    ((0x100000000 : Word).getLsbD 32 = true ∧ isPoisoned here (localPhys 0 0x28000) = false) ∧
    8 < (0x1200000000 : Word).toNat / 2 ^ 33 % 16 ∧ ¬ goodLocal here .payload (0x1FFFF * 32) 32 false 32 ∧
    (0x4000000000 : Word).toNat / 2 ^ 38 % 32 ∉ [0, 31] ∧ here.isSystem = false ∧ 0xE0 ≤ (0x38000000 : Word).toNat / 2 ^ 22 % 256 ∧
    goodNode placed.present (endNode (placed.myRecord.modmap.headD 0) 0 5 0) = true ∧ goodNode ({ placed with present := 0 } : State).present (endNode 0 0 5 0) = false ∧
    (0x3FFFFFFF < 2 ^ 30 ∧ goodNode here.present (0x3FC00000 % 2 ^ 22) = true) ∧ placed.myRecord.modmap.headD 0 < 64 ∧
    2 ^ 60 ≤ (0x1000000000000000 : Word).toNat ∧ goodNode here.present ((0x3F0000 : Word).toNat % 2 ^ 22) = false := by decide +kernel

/-- QueueTumblerAndKeyInstructions, of the queues: the handle of the queue logic of die 0, with one payload beat and with fourteen. -/
theorem witness_queue_commands :
    Running here ∧ endNode 0 0 4 0 * 65536 + 65535 < 2 ^ 38 ∧ nodeIsEnd (endNode 0 0 4 0) = true ∧ nodeClass (endNode 0 0 4 0) = 4 ∧
    goodNode here.present (endNode 0 0 4 0) = true ∧ here.me.freeSlot.isSome = true ∧
    Room here 3 ∧ goodLocal here .payload 0 (32 * 14) false 32 ∧ Settled here 0 14 ∧ Room here 16 ∧ 2 ^ 38 ≤ (0x4000000000 : Word).toNat ∧
    nodeClass (endNode 0 0 5 0) ≠ 4 ∧ goodNode here.present (endNode 1 0 4 0) = false ∧ endNode 1 0 4 0 * 65536 < 2 ^ 38 ∧
    goodLocal here .scalar 0 288 true 32 ∧ On here 0 [rg (1 : BitVec 5), rg (2 : BitVec 5), rg (3 : BitVec 5)] [rg (3 : BitVec 5)] := by decide +kernel

/-- QueueTumblerAndKeyInstructions, of tumblers and keys: the last tumbler, an amount and none; a free key after one that is taken, no free key, and keys that are set and not set. -/
theorem witness_QueueTumblerAndKeyInstructions :
    (On (g [(1, 511), (2, 0xFFFFFF)]) 0 [rg (1 : BitVec 5), rg (2 : BitVec 5)] [] ∧ ((g [(1, 511), (2, 0xFFFFFF)]).val (2 : BitVec 5)).toNat % 2 ^ 24 ≠ 0 ∧
      ((g [(2, 0x1FFFFFFFFFFFF)]).val (2 : BitVec 5)).toNat < 2 ^ 49 ∧ 2 ^ 49 ≤ (0x2000000000000 : Word).toNat ∧
      (511 + 512 + 1024 * 4 : Nat) < 2 ^ 32 ∧ goodNode here.present 4 = true ∧ nodeIsEnd 4 = false ∧ quadOf 4 ≠ quadOf here.cur ∧ quadOf 3 = quadOf here.cur ∧
      ((0xFC00 : Word).getLsbD 9 = false ∧ (0xFC00 : Word).toNat / 2 ^ 10 % 2 ^ 22 ≠ 0) ∧ (here.val (2 : BitVec 5)).toNat % 2 ^ 24 = 0 ∧ Room here 2) ∧
    (let s := core (fun c => { c with keys := c.keys.set 0 { alloc := .held } })
     (s.myCore.key 1).alloc = .free ∧ ∀ j < 1, (s.myCore.key j).alloc ≠ .free) ∧
    (let s := core (fun c => { c with keys := Vector.replicate 64 { bit := true, alloc := .owned } })
     (∀ j < 64, (s.myCore.key j).alloc ≠ .free) ∧ s.myCore.keyring.getLsbD 63 = true ∧ Unheld s) := by decide +kernel

/-- A job that uses the matrix arrays, whose context holds the hasp with 63 counted commands. -/
def leased : State :=
  let s := ctx (fun x => { x with hasp := .held, haspCnt := 63 })
  { s with jobs := [(0, { record := { mx := true } })] }

/-- MatrixInstructions: the operands of each command within their limits; a hasp requested, lost, absent and spent; a report. -/
theorem witness_MatrixInstructions :
    Running leased ∧ HoldsHasp leased ∧ Room leased 2 ∧ MxOn leased 0 [rg (1 : BitVec 5), rg (2 : BitVec 5), rg (3 : BitVec 5)] [rg (3 : BitVec 5)] ∧
    leased.me.freeSlot.isSome = true ∧
    leased.checkCommand true 0 0x83 0 0x100000 0 1 2 = .ok () ∧ leased.checkCommand true 0 0x85 0 0 0xFFFF 1 2 = .ok () ∧ leased.checkCommand true 0 0x86 0 0 0 1 2 = .ok () ∧
    leased.checkCommand true 0 0x87 0 0x7000000 0x20300000 1 2 = .ok () ∧ leased.checkCommand true 0 0x88 1 0 0 1 2 = .ok () ∧
    leased.checkCommand true 0 0x89 0 0x100000 0 1 2 = .ok () := by
  refine ⟨by decide +kernel, by decide +kernel, by decide +kernel, by decide +kernel, by decide +kernel, rfl, rfl, rfl, rfl, rfl, rfl⟩

theorem witness_hasp_faults :
    (let s : State := { here with jobs := leased.jobs }
     s.me.report = none ∧ s.myRecord.mx = true ∧ s.leaseHeld = false ∧ s.me.hasp = .none) ∧
    here.myRecord.mx = false ∧ (ctx (fun x => { x with hasp := .requested })).me.hasp = .requested ∧ (ctx (fun x => { x with hasp := .lost })).me.hasp = .lost ∧
    64 ≤ (ctx (fun x => { x with haspCnt := 64 })).me.haspCnt ∧ (ctx (fun x => { x with report := some 5 })).me.report = some 5 := by decide +kernel

/-- A state whose G store begins with a collective descriptor that has module 0 in its group, and with key 0 held. -/
def engined : State :=
  let s := placed.setMyCore { placed.myCore with keys := placed.myCore.keys.set 0 { alloc := .held } }
  { s with mem := Memory.writeN [] (localPhys 0 24) [1] }

/-- A rectangle that starts at the job's own corner relocates to the corner of PLBASE. -/
theorem witness_placedAt : placedAt placed (placed.seenWords 0x100 4) 40 30 (coreNode 0 40 30 0) := by
  refine ⟨by decide +kernel, by decide +kernel, fun _ => ⟨by decide +kernel, by decide +kernel, by decide +kernel, by decide +kernel, ?_⟩, fun h => absurd h (by decide +kernel)⟩
  exact ⟨(40, 30, 0), by decide +kernel, by decide +kernel⟩

/-- EngineCommandsBuffered: a descriptor of zeros for a stream, one with a group for a collective, the nodes of the engines and one of another class; a key that is held and one that is Free. -/
theorem witness_EngineCommandsBuffered :
    Running placed ∧ Room placed 4 ∧ On placed 0 [rg (1 : BitVec 5), rg (2 : BitVec 5)] [rg (3 : BitVec 5)] ∧ Unheld placed ∧ placed.me.freeSlot.isSome = true ∧
    goodLocal placed .payload 0x100 128 false 32 ∧ Settled placed 0x100 4 ∧ keyReady engined (cutBits ((engined.seenWords 0x100 4).getD 0 0) 15 10) ∧ ¬ keyReady placed 0 ∧
    ownEndpoint placed (endNode 0 0 0 159) 0 ∧ ownEndpoint placed (endNode 0 0 1 0) 1 ∧ ¬ ownEndpoint placed (endNode 0 0 1 0) 0 := by decide +kernel

/-- EngineCommandsBuffered: a rectangle of 17 quads leaves PLBASE; the descriptor of a collective, and a buffer for a manifest. -/
theorem witness_misplaced : misplaced { placed with mem := Memory.writeN [] (localPhys 0 0x148) [0, 0, 2] } ({ placed with mem := Memory.writeN [] (localPhys 0 0x148) [0, 0, 2] : State }.seenWords 0x100 4) :=
  .inr (.inl (by decide +kernel))

theorem witness_collective_commands :
    colGood false 0 (engined.seenWords 0 1) = true ∧ colGood true 0 (engined.seenWords 0 1) = true ∧ cutBits ((engined.seenWords 0 1).getD 0 0) 12 7 = 0 ∧
    goodLocal engined .payload 0 32 false 32 ∧ goodVirtual 0x1000 4096 ∧ Settled placed 0 1 := by decide +kernel

/-- LatticeInstructions: operands at the ends of their fields, a patch image at the end of a store, a fenced lattice. -/
theorem witness_LatticeInstructions :
    Running here ∧ here.myCore.lattice.fenced = false ∧ On here 0 [rg (1 : BitVec 5), rg (2 : BitVec 5)] [rg (3 : BitVec 5)] ∧ On here 0 [rg (1 : BitVec 5)] [rv (15 : BitVec 4)] ∧
    ((g [(2, 0xFFFFFFFF)]).val (2 : BitVec 5)).toNat < 2 ^ 32 ∧ 2 ^ 32 ≤ ((g [(2, 0xFFFFFFFF80000000)]).val (2 : BitVec 5)).toNat ∧ (224 < 2 ^ 8 ∧ 224 % 32 = 0) ∧
    here.block.transfer = none ∧ goodLocal here .config 0x22700 0x1900 false 256 ∧ laOff 0x22700 + 0x1900 ≤ 0x24000 ∧ 0x24000 < 0x22800 + 0x1900 ∧ 0x22800 + 0x1900 ≤ storeSize 0 ∧
    (blk (fun b => { b with transfer := some (0, .waiting) })).block.transfer = some (0, .waiting) ∧
    (blk (fun b => { b with transfer := some (0, .failed 0x0F none none) })).block.transfer = some (0, .failed 0x0F none none) ∧
    sys.isSystem = true ∧ Running sys ∧ goodLocal sys .config 0 0x1900 true 256 ∧
    (core (fun c => { c with lattice := { c.lattice with fenced := true } })).myCore.lattice.fenced = true := by decide +kernel

/-- VectorArithmetic, ConversionAndReductionResults and LaneValues: all lanes, half of them, and an input of two beats. -/
theorem witness_VectorArithmetic :
    Running here ∧ Lanes here 0 ([rv (1 : BitVec 4), rv (2 : BitVec 4), rv (3 : BitVec 4)] ++ kept here 0 3) [rv (3 : BitVec 4)] ∧
    (let s := here.setRegs { here.regs with q := here.regs.q.set 1 0x80000000 }
     Running s ∧ Lanes s 1 ([rv (1 : BitVec 4)] ++ kept s 1 3) [rv (3 : BitVec 4)] ∧ laneOn (s.regs.laneMask 1) 31 = true ∧ ∀ j < 31, laneOn (s.regs.laneMask 1) j = false) ∧
    Lanes here 0 [rg (1 : BitVec 5)] [rv (3 : BitVec 4)] ∧ Lanes here 0 [] [rg (1 : BitVec 5)] := by decide +kernel

theorem witness_ConversionAndReductionResults :
    elementWidth 0 = elementWidth 3 ∧ elementWidth 0 = 2 * elementWidth 1 ∧ elementWidth 5 = 2 * elementWidth 6 ∧ (6 : BitVec 5).toNat ≤ 6 ∧
    Lanes here 0 [rv (1 : BitVec 4), rv (3 : BitVec 4)] [rv (3 : BitVec 4)] := by decide +kernel

theorem witness_LaneValues :
    Lanes received 0 (kept received 0 3) [rv (3 : BitVec 4)] ∧ received.input 0 = some mail ∧ received.input 1 = none ∧
    Lanes received 0 [rv (1 : BitVec 4), rg (1 : BitVec 5)] [] ∧ Room received 5 ∧ goodLocal here .vector 0x27FF80 128 true 4 := by decide +kernel

/-- RoundingAndFloatLaws: in each format the largest finite number, and under FTZ a number that is not flushed. -/
theorem witness_RoundingAndFloatLaws :
    (0x7F7FFFFF < 2 ^ f32.width ∧ f32.isNan 0x7F7FFFFF = false ∧ f32.isSubnormal 0x7F7FFFFF = false) ∧
    (0x7BFF < 2 ^ f16.width ∧ f16.isNan 0x7BFF = false ∧ f16.isSubnormal 0x7BFF = false) ∧
    (0xFF80 < 2 ^ bf16.width ∧ bf16.isNan 0xFF80 = false ∧ bf16.isSubnormal 0xFF80 = false) := by decide +kernel

/-- SpecialRegistersAndPrivilege: a handler context and the system context. -/
theorem witness_SpecialRegistersAndPrivilege :
    On here 0 [rg (1 : BitVec 5)] [rg (31 : BitVec 5)] ∧ Unheld here ∧ here.isSystem = false ∧ here.regs.qualified 0 = true ∧
    On sys 0 [rg (1 : BitVec 5)] [rg (31 : BitVec 5)] ∧ sys.isSystem = true ∧ (4 : BitVec 10).toNat ≤ 4 := by decide +kernel

/-- SystemInstructions, of the traps: context 9 parked and not parked, a paused head, and the targets of a retry. -/
theorem witness_trap_endings :
    (let s := (withG sys [(1, 9)]).setCtx 0 9 { status := .parked }
     s.isSystem = true ∧ On s 0 [rg (1 : BitVec 5), rg (2 : BitVec 5)] [rg (3 : BitVec 5)] ∧ (s.val (1 : BitVec 5)).toNat ≤ 9 ∧ s.named 9 = false ∧ (s.ctx s.cur 9).status = .parked) ∧
    (withG sys []).named 9 = false ∧ (sys.ctx 0 9).status ≠ .parked ∧
    (let s := sys.setMyCore { sys.myCore with q := { sys.myCore.q with paused := sys.myCore.q.paused.set 3 true } }
     s.myCore.q.pausedAt (19 - 16) = true) ∧ (15 < 16) := by decide +kernel

/-- SystemInstructions, of the others: a shootdown of a page and of all, a probe that hits and one that misses, the ends of trace and watch operands. -/
theorem witness_SystemInstructions :
    Running sys ∧ Room sys 1 ∧ sys.me.freeSlot.isSome = true ∧ Unheld sys ∧
    tlbPick [page] 0 0x1FFFF = some page ∧ tlbPick [page] 0 0x20000 = none ∧ tlbPick sys.myCore.dtlb sys.me.jobid 0 = none ∧
    (63 < 2 ^ 6) ∧ (0x108 < 2 ^ 9 ∧ 3 ≤ 0x108 / 16 ∧ 0x108 / 16 ≤ 16 ∧ (0x108 : Word).getLsbD 3 = true ∧ 0xFFFFFFFF0000 % 2 ^ (0x108 / 16) = 0) := by decide +kernel

/-- An image of one entry at the start of G. -/
def image : State := { here with mem := Memory.writeN (Memory.writeN [] (localPhys 0 0) [0, 1, 1]) (localPhys 0 64) [0, 0, 0xFE, 0xFF, 3] }

/-- The image bound to opcode X0, in slot 0. -/
def bound : State := core (fun c => { c with opmap := 8, patch := c.patch.setSlot 0 { image := some [0x10100, 0, 0, 0, 0, 0, 0, 0, 0x3FFFE0000] } })

/-- PatchInstructions: a valid image and a valid save area; an opcode bound, unbound, and on a fenced patch. -/
theorem witness_PatchInstructions :
    PatchIdle here ∧ On here 0 [rg (1 : BitVec 5)] [rg (2 : BitVec 5)] ∧ goodArea image 0 72 false ∧ anyPoison image (localPhys 0 0) 72 = false ∧
    64 + 8 * ((Memory.word image.mem (localPhys 0 0)).toNat / 2 ^ 24 % 128 + 1) = 72 ∧ graphFault (wordsOf (Memory.readN image.mem (localPhys 0 0) 72) 9) = none ∧
    goodArea sys 0 0x5140 true ∧ sys.myCore.patch.fenced = false ∧ sys.poison = [] ∧
    (bound.myCore.boundGraph 0).map Graph.nres = some false ∧ Running bound ∧ Lanes bound 0 [rv (1 : BitVec 4)] [rv (2 : BitVec 4)] ∧ here.myCore.boundGraph 0 = none ∧
    (core (fun c => { c with patch := { c.patch with fenced := true } })).myCore.patch.fenced = true := by decide +kernel

/-- QualifiersAndOperandFaults: a qualifier and a lane mask that are off; a source of each state that is not full, and a destination that is empty. -/
theorem witness_QualifiersAndOperandFaults :
    predicateOf (.add 8 1 2 3 0 0) = some 8 ∧ here.regs.qualified 8 = false ∧ laneMaskOf (.vand 1 1 2 3) = some 1 ∧ here.regs.laneMask 1 = 0 ∧
    (encode (.add 0 1 2 3 0 0)).isSome = true ∧
    (∀ st ∈ [RegState.empty, .poisoned, .refused, .retired, .malformed], (here.setRegs (here.regs.markG 2 st)).regs.stateOf (rg (2 : BitVec 5)) = st ∧ st.isOwn = false) ∧
    ((here.setRegs (here.regs.markG 2 .awaitCommit)).regs.stateOf (rg (2 : BitVec 5))).isOwn = true ∧ (RegState.empty).isEmpty = true := by decide +kernel

/-- The state after reset with another memory. -/
def filled (m : Memory) : State := { State.reset with mem := m }

/-! ## States that meet the hypotheses of the statements about the step, faults, commits and the device -/

/-- StepRunsDecoded: a word that decodes and one that does not, a block whose words are done, a context without a block, an event that is due. -/
theorem witness_StepRunsDecoded :
    (let t : Turn := { node := 0, ctx := 0, vector := false }
     let s : State := { here with agenda := [], turn := [t] }
     s.agenda = [] ∧ s.turn = [t] ∧ (s.select t []).me.status = .live ∧ (s.select t []).nextWord = some 0 ∧ (s.select t []).early = false) ∧
    (decode (0 : BitVec 32)).toOption.isSome = true ∧ (decode (0x0E000000 : BitVec 32)).toOption = none ∧
    (({ (ctx (fun x => { x with block := none })) with turn := [{ node := 0, ctx := 0, vector := false, kind := .block }] } : State).select { node := 0, ctx := 0, vector := false, kind := .block } []).me.block = none ∧
    ((blk (fun b => { b with pos := 1 })).select { node := 0, ctx := 0, vector := false, kind := .block } []).me.block.isSome = true ∧
    State.reset.agenda = [] ∧ State.reset.turn = [] ∧ (decodeTableWord 32 0x100318E0).isSome = true ∧
    (({ State.reset with agenda := [.dispatch 0] } : State)).agenda = [.dispatch 0] := by decide +kernel

/-- StepRunsDecoded: an add that waits in the scalar slot, and a lane operation behind it that the vector slot selects early, which completes or waits. -/
theorem witness_early :
    (let b : OpenBlock := { header := 0, words := [0x100318E0, 0xA0000000] }
     b.candidate false [] = some 0 ∧ b.candidate true [] = some 1 ∧ b.candidate true [1] = none ∧ mayPass 0x100318E0 0xA0000000 = true ∧
     vectorSlot (wordOpcode 0xA0000000) = true ∧ (blk (fun _ => { b with cursor := 1 })).early = true) ∧
    here.stalled = false ∧ here.me.status = .live ∧ here.me.block.isSome = true ∧ ({ here with stalled := true } : State).stalled = true := by decide +kernel

/-- ResetMemoryCanonical and StepKeepsMemoryCanonical: the state after reset answers a step. -/
theorem witness_StepKeepsMemoryCanonical : Memory.wf State.reset.mem = true ∧ Memory.wf State.reset.hostMem = true ∧ (match step State.reset with | .next _ => true | _ => false) = true := by
  decide +kernel

/-- TakeFault and BlockEntryAndCommit: an open block with a key that it allocated; one with nothing for its commit, with and without a trap; a block to enter. -/
theorem witness_TakeFault : (here.ctx 0 0).block.isSome = true ∧ ((blk (fun b => { b with keys := [(63, false)] })).ctx 0 0).block.map (fun b => b.keys) = some [(63, false)] ∧
    (sys.ctx 0 10).block.isSome = true ∧ 10 < 11 := by decide +kernel

/-- A block of one NOP at address 0x10000, which the instruction TLB maps. -/
def entered : State :=
  let s := (ctx (fun x => { x with block := none, pc := 0x10000 })).setMyCore { (ctx (fun x => { x with block := none, pc := 0x10000 })).myCore with itlb := [page] }
  { s with mem := Memory.writeN [] (localPhys 0 0) [1, 0, 0x40, 0x10] }

theorem witness_BlockEntryAndCommit :
    (let x := entered.ctx 0 0
     x.status = .live ∧ x.block = none ∧ x.commit = none ∧ entered.frozen x.jobid = false) ∧
    holds (entered.fetchBlock 0x10000) (fun r => checkBlock r.1 r.2.1 != none) = true ∧
    (here.block.acts = [] ∧ here.block.requests = [] ∧ here.block.hits = [] ∧ here.block.links = false ∧ here.block.isDone = false ∧ here.block.commit = false ∧ here.block.trap = none) ∧
    (blk (fun b => { b with taken := some .done })).block.isDone = true := by decide +kernel

/-- TrapReturns: a context after a budget fault, which its invocation has not finished; a system context that acts. -/
theorem witness_TrapReturns :
    (let s := sys.setCtx 0 9 { status := .parked, trap := ⟨0x968, 0, 0x400, 0⟩, invocation := some { entry := { inputs := [mail], head := 0 }, handler := 0, budget := 1024 } }
     s.curCtx < 11 ∧ ((s.ctx s.cur 9).invocation.map (fun i => i.finished)) ≠ some true ∧ (s.ctx s.cur 9).trap.cause.toNat % 256 = 0x68 ∧ (s.ctx s.cur 9).slots = []) := by decide +kernel

/-- CommitsAndCommittedBytes: a commit that is to reserve, and one that has reserved, with stores, an atomic and a message in the retire buffer. -/
theorem witness_CommitsAndCommittedBytes :
    (let s := ctx (fun x => { x with block := none, commit := some { done := true, block := 0, next := 4, reserved := true }, retire := [.store [(0, [1, 2])] 1, .amo 8 0 3 1 0 1, .msg mail none plainAnswer none] })
     let x := s.ctx 0 0
     x.status = .live ∧ x.block = none ∧ x.commit.isSome = true ∧ x.hasp = .none ∧ (s.core 0).hinge.arm = false ∧ (∀ e ∈ x.retire, haspAfter .none e = .none) ∧
     entriesOf ((s.core 0).departure.map (·.2)) + entriesOf (x.retire.filter (fun e => !e.isLocal)) ≤ 1024) ∧
    Memory.wf here.mem = true ∧ anyPoison here (localPhys 0 0) 8 = false := by decide +kernel

/-- Every effect of that retire buffer is plain. -/
theorem witness_plain_effects : plainEffects [.store [(0, [1, 2])] 1, .amo 8 0 3 1 0 1, .msg mail none plainAnswer none] := by
  intro e h
  simp only [List.mem_cons, List.not_mem_nil, or_false] at h
  rcases h with rfl | rfl | rfl <;> trivial

/-- An operation on the last bytes of the G store of quad 0. -/
def request (op size : Nat) (payload : List Word) : Packet := remoteOp 4 op size (localPhys 0 (0x40000 - 2 ^ size)) 0xE0 0 1 payload

/-- RemoteAccessEvents: reads and writes at the end of a store, one that the store forbids, a poisoned word; a copy of one beat. -/
theorem witness_RemoteAccessEvents :
    Unblocked State.reset (request 0 3 []) ∧ placeAllows .remoteRead (physOf (request 0 3 [])) 8 false = true ∧ anyPoison State.reset (physOf (request 0 3 [])) 8 = false ∧
    anyPoison (State.reset.addPoison (physOf (request 0 3 []))) (physOf (request 0 3 [])) 8 = true ∧ placeAllows .remoteWrite (physOf (request 1 3 [5])) 8 true = true ∧
    8 ≤ (bytesOf (request 1 3 [5])).length ∧ placeAllows .remoteWrite (localPhys 0 0x100000) 8 true = false ∧
    (ownerOf 0x100 = some (endNode 0 0 0 1) ∧ placeAllows .remoteRead 0x100 32 false = true ∧ (32 : Word).toNat / 32 = 1) ∧
    (placeAllows .copyDest (localPhys 0 0) 32 true = true ∧ 4 ≤ (request 1 3 [1, 2, 3, 4]).payload.length) := by decide +kernel

/-- RemoteAtomicEvents: an atomic on each size, and a store that forbids it. -/
theorem witness_RemoteAtomicEvents :
    Unblocked State.reset (request 2 3 [1, 0]) ∧ placeAllows .rmw (physOf (request 2 3 [1, 0])) 8 true = true ∧ placeAllows .rmw (physOf (request 11 2 [1, 0])) 4 true = true ∧
    placeAllows .rmw (localPhys 0 0x100000) 4 true = false ∧ Memory.wf State.reset.mem = true := by decide +kernel

/-- A versioned cell at 0 of quad 0 that holds version 5 in slot 1, with a floor of 3. -/
def cell : State := { State.reset with mem := Memory.writeN (Memory.writeN [] (localPhys 0 0) [5, 0, 0x4B, 0, 3]) (localPhys 0 50) [5] }

/-- VersionCellEvents: a version that is held, one that is retired, one that is to come; a reservation; a malformed cell. -/
theorem witness_VersionCellEvents :
    (let m := remoteOp 4 0x10 3 (localPhys 0 0) 0xE0 0 1 [5]
     Unblocked cell m ∧ Memory.wf cell.mem = true ∧ physOf m = localPhys 0 0 ∧ cellAllowed (physOf m) true = true ∧ anyPoison cell (physOf m) 64 = false ∧
     cell.cellMalformed (physOf m) = false ∧ cell.cellRetained (physOf m) 5 = some 1 ∧
     cell.cellRetained (physOf m) 2 = none ∧ newer 2 (cellCur (Memory.word cell.mem (physOf m))) = false ∧
     cell.cellRetained (physOf m) 6 = none ∧ newer 6 (cellCur (Memory.word cell.mem (physOf m))) = true ∧
     newer 6 (cellFloor (Memory.word cell.mem (physOf m))) = true ∧ newer 6 ((cellCur (Memory.word cell.mem (physOf m)) + 1) % 2 ^ 16) = false) ∧
    State.reset.cellMalformed (localPhys 0 0) = true ∧
    (let s := cell.setQuad 0 { reservations := [⟨localPhys 0 0, 2, 4, 0, 1, true⟩] }
     (s.quad 0).reservations.find? (fun x => x.node == 4 && x.tag == 1) = some ⟨localPhys 0 0, 2, 4, 0, 1, true⟩ ∧ (s.quad 0).waitingReads = [] ∧ (s.quad 0).watches.length < 64) := by
  decide +kernel

/-- TumblerEvents: an update that stays in the range and one that leaves it, an armed tumbler that reaches its target; records with each action. -/
theorem witness_TumblerEvents :
    (let s := State.reset.setQuad 0 { tumblers := [(511, ⟨0xFFFFFE, 0xFFFFFF, true, false⟩)] }
     let t := (s.quad 0).tumbler 511
     Unblocked s (tumblerOp 4 0x18 0 511 1 0xE0 0 1 []) ∧ t.count + 1 < 2 ^ 24 ∧ 2 ^ 24 ≤ t.count + 2 ∧ t.arm = true ∧ t.count < t.target ∧ t.target ≤ t.count + 1 ∧
     0xFFFFFE ≤ t.count ∧ t.count < 0xFFFFFF) ∧
    (State.reset.actionOf 0 0).map (fun a => a.ctl) = some 0 ∧
    ((filled (Memory.writeN [] (localPhys 0 (actionOffset 0 + 16)) [1])).actionOf 0 0).map (fun a => a.ctl) = some 1 ∧
    ((filled (Memory.writeN [] (localPhys 0 (actionOffset 0 + 16)) [2])).actionOf 0 0).map (fun a => a.ctl) = some 2 ∧
    (filled (Memory.writeN [] (localPhys 0 (actionOffset 0 + 16)) [0, 4])).actionOf 0 0 = none := by decide +kernel

/-- DepartureEvents: a message that may leave, and one that a fence in front of it holds. -/
theorem witness_DepartureEvents :
    (let s := State.reset.setCore 0 { departure := [(0, .msg mail none plainAnswer none)] }
     (s.core 0).departure = [(0, .msg mail none plainAnswer none)] ∧ (s.core 0).holdsHead 0 (.msg mail none plainAnswer none) = false) ∧
    (let s := State.reset.setCore 0 { departure := [(0, .fence 3)], pending := [{ tag := 1, ctx := 0, aclass := 0, answer := .engine }] }
     (s.core 0).holdsHead 0 (.fence 3) = true) := by decide +kernel

/-- Quad 0 holds job 1, whose handler 0 takes one input and handler 1 takes two; handler 2 has no entry. -/
def loaded : State :=
  let s : State := { State.reset with
    jobs := [(1, { record := { job := 1 }, status := .resident })]
    mem := Memory.writeN (Memory.writeN [] (localPhys 0 (handlerOffset 0)) [0, 0, 1, 0, 0, 0, 4]) (localPhys 0 (handlerOffset 1)) [0, 0, 1, 0, 0, 0, 4, 0, 0x05] }
  (s.setQuad 0 { job := some 1 }).setCore 0 { q := { depth := Vector.replicate 4 4 } }

/-- A handler message of job 1 for a handler index. -/
def note (hidx : Nat) : Packet := { w0 := msgHeader 0 0 hidx 1 0 false 0 false 0 0, w1 := 0, payload := [], poison := [], tag := 1, src := 4 }

/-- ArrivalEvents: a message for a handler of one input, of two, of none, for the system; a job that is not on the quad, saved or unknown. -/
theorem witness_ArrivalEvents :
    loaded.waitsBehind (note 0) = false ∧ (loaded.quad 0).job = some (jobOf (note 0)) ∧ (loaded.quad 0).restoring = false ∧ (loaded.quad 0).redirect = [] ∧
    (loaded.core 0).hinge.arm = false ∧ 0xE0 ≤ hidxOf (note 0xE0) ∧ (loaded.core 0).sysFull 0 = false ∧ hidxOf (note 0xDF) < 0xE0 ∧
    loaded.handlerPoison 0 0 = false ∧ loaded.joins 0 2 = none ∧ ((loaded.joins 0 0).map (fun j => j.2.1.arity)) = some 0 ∧ isMarker (note 0) = false ∧
    ((loaded.joins 0 1).map (fun j => decide (j.2.1.arity ≠ 0))) = some true ∧ (loaded.core 0).q.spills 0 = false ∧ (loaded.core 0).q.store = [] ∧
    (State.reset.quad 0).job ≠ some (jobOf (note 0)) ∧ aget State.reset.jobs 1 = none ∧
    (relativeOf 0x01010000 {} 0).isSome = true := by decide +kernel

/-- DispatchEvents: an entry with its handler, one without, one with a wrong scaled flag; a system entry; lists to refill; a bolt of a channel. -/
theorem witness_DispatchEvents :
    (let s (e : QEntry) : State := loaded.setCore 0 { (loaded.core 0) with q := (loaded.core 0).q.setQueue 3 [e] }
     let e : QEntry := { inputs := [note 0], head := 0 }
     (s e).dispatchStops 0 = false ∧ ((s e).core 0).replayMode = 0 ∧ (s e).selectPri 0 = some (3, 0) ∧ (s e).firstTaken 0 3 = some 0 ∧
     (s e).codePoison 0 e = false ∧ ((s e).core 0).freeCtx = some 0 ∧ ((s e).codeOf 0 e).map (fun h => scaledWrong h e) = some 0 ∧
     ((s e).codeOf 0 { e with inputs := [{ note 0 with w0 := (note 0).w0 ||| 0x100 }] }).map (fun h => scaledWrong h { e with inputs := [{ note 0 with w0 := (note 0).w0 ||| 0x100 }] }) = some 1 ∧
     (s e).codeOf 0 { e with head := 2 } = none) ∧
    (State.reset.core 0).systemIdle = true ∧ ((sys.core 0).systemIdle = false) ∧
    (let q : CoreQueues := { depth := Vector.replicate 4 4, spill := Vector.replicate 4 [{ inputs := [], head := 0 }], overflow := [⟨0, 0, note 1, 0, 1, 0, false, 0⟩] }
     q.store.length < 256 ∧ q.refillAt 3 = none ∧ (q.queueAt 3).length < q.depthAt 3) ∧
    (State.reset.quad 0).job ≠ some 1 := by decide +kernel

/-- ReplyEvents: a slot that waits for a load, a slot that is free; an acknowledgement that is awaited, and one of two pieces; a key that is held. -/
theorem witness_ReplyEvents :
    (let s := ctx (fun x => { x with slots := [(15, { reg := 31, answer := .load 3 false, tag := 1 })] })
     let m : Packet := { w0 := msgHeader 0 0 (0 * 16 + 15) 0 1 false 0 false 0 1, w1 := 0, payload := [7, 0, 0, 0], poison := [false] }
     hidxOf m / 16 ≤ 10 ∧ aget (s.ctx 0 0).slots (hidxOf m % 16) = some { reg := 31, answer := .load 3 false, tag := 1 } ∧ m.wantAck = false ∧ statusOf m = 0 ∧
     aget (here.ctx 0 0).slots (hidxOf m % 16) = none) ∧
    statusOf { mail with w1 := 4 } = 4 ∧
    (let s := core (fun c => { c with pending := [{ tag := 1, ctx := 0, aclass := 0, answer := .effect 1 0 }, { tag := 2, ctx := 0, aclass := 0, answer := .effect 1 0, left := 2 }] })
     s.copies = [] ∧ ((s.core 0).pending.find? (fun x => x.tag == 1)).map (fun p => p.left) = some 1 ∧ ((s.core 0).pending.find? (fun x => x.tag == 2)).map (fun p => p.left) = some 2) ∧
    ((core (fun c => { c with keys := c.keys.set 63 { alloc := .owned, flight := 2 } })).core 0).key 63 = { alloc := .owned, flight := 2 } := by decide +kernel

/-- TranslationEvents: a table entry that is a leaf, one that names a table, one that is invalid; a paused stack; a walk that a context waits for. -/
theorem witness_TranslationEvents :
    State.reset.pausedAt 0 = false ∧ (State.reset.setMemCore (endNode 0 0 0 0) { paused := true }).pausedAt 0 = true ∧
    State.reset.walkRead 0 0 0 = .fault 0x20 false ∧
    ((filled (Memory.writeN [] 0 [0x07])).walkRead 0 0 0 = .leaf 7) ∧
    ((filled (Memory.writeN [] 0 [0x01, 0x20])).walkRead 0 0 0 = .next 0x2000) ∧
    ((ctx (fun x => { x with miss := some (.walking 0 0x10000) })).ctx 0 0).miss = some (.walking 0 0x10000) ∧ (State.reset.core 0).fenced = false := by decide +kernel

/-- A command to queue 0x4FFF of die 0. -/
def queueCommand (code flags : Nat) (w1 : Word) : Packet :=
  { w0 := msgHeader (endNode 0 0 4 0) 0 0xE0 1 1 false 0 false 0 3, w1 := 0, payload := [.ofNat 64 (code + flags * 256 + 0x4FFF * 65536) + w1, 0x10, 0, 0], poison := [false], src := 0, tag := 1 }

/-- The queue exists, with room for one entry more or without. -/
def queued (l : List (Packet × Bool)) : State := State.reset.setDie (endNode 0 0 4 0) { tasks := [(0x4FFF, { job := 1, cap := 1, entries := l })] }

/-- QueueEvents: a queue with room, a full one, with and without HOLD and FWD, one that does not exist; a system context that creates and destroys. -/
theorem witness_QueueEvents :
    cmdQueue (queueCommand 0 0 0) = 0x4FFF ∧ State.reset.taskQueue (queueCommand 0 0 0) = none ∧ ((queued []).taskQueue (queueCommand 0 0 0)).map (fun t => t.entries.length) = some 0 ∧
    ((queued [(mail, true)]).taskQueue (queueCommand 0 0 0)).map (fun t => decide (t.cap ≤ t.entries.length)) = some true ∧
    (queued []).jobAway 1 = false ∧ cmdHold (queueCommand 1 1 0) = true ∧ cmdHold (queueCommand 1 2 0) = false ∧ cmdFwd (queueCommand 2 4 0) = true ∧ cmdFwd (queueCommand 2 0 0) = false ∧
    (let s := (State.reset.setCore 0 { pending := [{ tag := 1, ctx := 10, aclass := 1, answer := .engine }] }).setDie (endNode 0 0 4 0) { regionSize := 2 ^ 20 }
     let m := queueCommand 4 0 0x100000000
     s.fromSystem m = true ∧ aget (s.die (destOf m)).tasks (cmdQueue m) = none ∧ 0 < cmdCap m ∧ cmdCap m ≤ 2 ^ 20 ∧ cmdCap m ≤ (s.die (destOf m)).room ∧ (State.reset.die (destOf m)).room < cmdCap m) ∧
    State.reset.fromSystem (queueCommand 4 0 0) = false := by decide +kernel

/-- A matrix command of context 0 of core 0, performed at the head of its queue. -/
def order (code sub : Nat) (a b : Word) : Packet := { mxPacket 0 0 0 0 (mxRecord code sub none a b 0) with counted := true }

/-- A cluster with that command queued; with a lease held by the context; with the request in its slot. -/
def ordered (m : Packet) (l : Option MxLease) : State :=
  (ctx (fun x => { x with hasp := .requested, invocation := some { entry := { inputs := [mail], head := 0 }, handler := 0 } })).setCluster (clusterOf 0)
    { queues := [(0, [m])], lease := l }

def lease : MxLease := { slot := slotOf 0, holder := some (0, 0), count := 62, panelA := some 0x100000, panelB := some 0x100000, name := 0, touched := 0 }

/-- LeaseEvents: commands that arrive, that are at the head of their queue, a free and a taken array, a request that waits, a holder without a command. -/
theorem witness_LeaseEvents :
    { order 0x80 0 0 0 with counted := false }.counted = false ∧ isChainRecord (order 0x80 0 0 0) = false ∧
    ((ordered (order 0x80 1 0 0) (some lease)).cluster (clusterOf 0)).heads (order 0x80 1 0 0) = true ∧ mxSub (order 0x80 1 0 0) % 2 = 1 ∧ mxSub (order 0x80 0 0 0) % 2 = 0 ∧
    ((ordered (order 0x80 1 0 0) (some lease)).cluster (clusterOf 0)).waits (order 0x80 1 0 0) = false ∧
    (ordered (order 0x80 1 0 0) (some lease)).sameInvocation 0 0 0 = true ∧ ((ordered (order 0x80 1 0 0) none).ctx 0 0).hasp = .requested ∧
    (let s := (ordered (order 0x80 0 0 0) none)
     let t := s.setCluster (clusterOf 0) { (s.cluster (clusterOf 0)) with slots := (s.cluster (clusterOf 0)).slots.set 15 { waiting := [.lease (order 0x80 0 0 0)] } }
     (t.cluster (clusterOf 0)).grantSlot = some 15 ∧ destOf (order 0x80 0 0 0) = clusterOf 0) ∧
    (let s := (State.reset.setCluster (clusterOf 0) { lease := some lease })
     ((s.cluster (clusterOf 0)).queue (16 * 0 + 0) = [] ∧ s.clk < lease.touched + 4096)) := by decide +kernel

/-- ArrayEvents: the last counted command of a lease, a window at the corner of the array, a format that is valid and one that is not, panels that fit, a drain of 4 bytes and one of 64 columns. -/
theorem witness_ArrayEvents :
    AtArray (ordered (order 0x86 0 0 0) (some lease)) (order 0x86 0 0 0) lease ∧ (winCol 0xFF0000 + winCols 0xFF0000 ≤ 256 ∧ winRow 0x7F + winRows 0x7F ≤ 128) ∧
    (mxFormat 0x66).invalid = false ∧ (mxFormat 0x67).invalid = true ∧ panelPasses 0x100000 8 128 false 1 1 = false ∧ panelPasses 0x100000 8 256 false 1 1 = false ∧
    mxSub (order 0x87 2 0 0) = 2 ∧ 0 < winCols 0x3F000000 / 64 ∧
    (Memory.wf State.reset.mem = true ∧ 4 * winCols 0 ≤ (0x20300000 : Word).toNat / 2 ^ 24 % 2 ^ 16 ∧ anyPoison State.reset (localPhys 0 0x300000) 4 = false) ∧
    mxReplies (mxPacket 0 0 0 0 (mxRecord 0x88 0 (some 15) 0 0 0)) = true := by decide +kernel

/-- The descriptor of a stream that loads one tile of 32 words. -/
def desc : Desc := [0x10010, 0, 0, 31, 0, 0, 0, 31, 0, 0, 0, 0, 0, 0, 0, 0]

/-- A command to memory core 0, for slot 3. -/
def streamCommand (w0 w1 : Word) : Packet :=
  { w0 := msgHeader (endNode 0 0 0 0) 0 0xE0 0 1 false 0 false 0 3, w1 := 0, payload := [w0, w1, 0, 0], poison := [false], src := 0, tag := 1 }

/-- Memory core 0 with that stream in slot 3, running or parked. -/
def streaming (f : Stream → Stream) : State := State.reset.setMemCore (endNode 0 0 0 0) { slots := (Vector.replicate 16 none).set 3 (some (f { desc := desc, limit := 128 })) }

/-- StreamCommands: a good descriptor and a bad one, a free slot and none, a command with the handle of a stream that runs or is parked, a stale handle and a wrong layout. -/
theorem witness_StreamCommands :
    desc.fault = none ∧ Desc.fault (desc.set 15 1) = some 1 ∧ (State.reset.memCore (endNode 0 0 0 0)).paused = false ∧
    (List.range 16).find? (fun k => ((State.reset.memCore (endNode 0 0 0 0)).stream k).isNone) = some 0 ∧
    (∀ k < 16, ((State.reset.setMemCore (endNode 0 0 0 0) { slots := Vector.replicate 16 (some { desc := desc }) }).memCore (endNode 0 0 0 0)).stream k ≠ none) ∧
    commandOk (streamCommand 3 0) false = true ∧ commandOk (streamCommand 0x100 0) true = false ∧
    ((streaming id).handleSlot (streamCommand (.ofNat 64 (3 + (endNode 0 0 0 0 + 3 * 2 ^ 22) * 2 ^ 32)) 0)).map (fun x => x.1) = some 3 ∧
    State.reset.handleSlot (streamCommand (.ofNat 64 (3 + (endNode 0 0 0 0 + 3 * 2 ^ 22) * 2 ^ 32)) 0) = none ∧
    (((streaming (fun x => { x with status := .parked 5 })).memCore (endNode 0 0 0 0)).stream 3).map (fun x => x.status) = some (.parked 5) ∧
    ((((streaming id).memCore (endNode 0 0 0 0)).stream 3).map (fun x => (decide (x.pulled < x.tiles), Desc.demand x.desc))) = some (true, false) ∧
    Desc.demand (desc.set 0 0x10014) = true := by decide +kernel

/-- StreamWork: a slot that may issue, with a page that the memory core holds, a walk and a root that is no HBM; a tile that is read, its last beat; a store's last write. -/
theorem witness_StreamWork :
    ((streaming id).memCore (endNode 0 0 0 0)).nextIssue = some 3 ∧ (State.reset.memCore (endNode 0 0 0 0)).nextIssue = none ∧
    Desc.gather desc = false ∧ Desc.comp desc = 0 ∧ Desc.store desc = false ∧ Desc.store (desc.set 0 0x20011) = true ∧
    0 < ({ desc := desc } : Stream).tiles ∧
    (match ((streaming id).setMemCore (endNode 0 0 0 0) { tlb := [{ page with base := 0 }] }).memTranslate (endNode 0 0 0 0) 0 0 .read with | .phys _ => true | _ => false) = true ∧
    (match (({ streaming id with jobs := [(0, { record := { ptroot := 0x1000 } })] } : State)).memTranslate (endNode 0 0 0 0) 0 0 .read with | .walk => true | _ => false) = true ∧
    (match (({ streaming id with jobs := [(0, { record := { ptroot := 2 ^ 40 } })] } : State)).memTranslate (endNode 0 0 0 0) 0 0 .read with | .fail _ => true | _ => false) = true ∧
    (let b : StreamTile := { index := 0, data := List.replicate 128 7, poison := [], next := 3 }
     32 * (b.next + 1) ≤ b.data.length ∧ b.poison.contains b.next = false ∧ Desc.tileLocal desc 0 % 0x100000 + 32 * 3 + 32 ≤ 0x100000 ∧
     ∀ q ∈ Desc.tileQuads desc 0 0, anyPoison State.reset (localPhys q (Desc.tileLocal desc 0 + 96)) 32 = false) ∧
    (let w : StreamWrite := { pa := 0, data := [1, 2], bad := [1], last := true }
     anyPoison State.reset w.pa w.data.length = false ∧ 0 + bitNat w.last = ({ desc := desc } : Stream).tiles) := by decide +kernel

/-- WatchdogErrorsAndPatchResults: a result that is due; a budget that has run out and a yield interval that has ended; a word of a store; no recent event and two of them. -/
theorem witness_WatchdogErrorsAndPatchResults :
    (let r : PatchResult := { due := 0, use := { ctx := 9 }, d := 14, first := Vector.replicate 32 1, second := some (Vector.replicate 32 2), flags := 1, enabled := 1, header := 0, serial := 0 }
     let s := core (fun c => { c with patch := { c.patch with results := [r] } })
     (s.core 0).patch.results.filter (fun r => decide (r.due ≤ s.clk)) = [r] ∧ (s.ctx 0 9).status ≠ .draining ∧ r.flags &&& r.enabled ≠ 0 ∧ flagOf (s.core 0).fpfirst 0 = false) ∧
    ((ctx (fun x => { x with budgetOn := true })).ctx 0 0).budgetOn = true ∧ (here.ctx 0 0).budgetLeft = 0 ∧ (here.ctx 0 0).budgetOn = false ∧
    ((ctx (fun x => { x with yieldEnd := some 0 })).ctx 0 0).yieldEnd = some 0 ∧ ((ctx (fun x => { x with yieldEnd := some 5 })).ctx 0 0).yieldEnd = some 5 ∧
    placeOf (localPhys 0 0) = .store 0 0 0 ∧ isPoisoned State.reset (localPhys 0 0) = false ∧ isPoisoned (State.reset.addPoison (localPhys 0 0)) (localPhys 0 0) = true ∧
    (State.reset.core 0).transients = [] ∧ 2 ≤ ([0, 0].filter (fun t => decide (0 < t + 2 ^ 20))).length ∧ agetD (here.ctx 0 0).parity 0 0 < 2 := by decide +kernel

/-- An instruction at the head of the lattice queue of core 0. -/
def latticeAt (op : Nat) (f : LatOp → LatOp) (clk : Nat) : State :=
  { core (fun c => { c with lattice := { c.lattice with queue := [f { id := 0, op := op, dest := { ctx := 0 }, issued := 0, left := 2 }], clocks := c.lattice.clocks.set 0 { run := true } } }) with clk := clk }

/-- LatticeEvents: a clock that ticks, no clock; a head that is due with each operation; a transfer that is started and one that is not. -/
theorem witness_LatticeEvents :
    ((latticeAt 0xC1 id 1).core 0).lattice.clocksMove 1 = true ∧ ((latticeAt 0xC1 id 1).core 0).lattice.firstFault (((latticeAt 0xC1 id 1).core 0).lattice.ticking 0) = none ∧
    (State.reset.core 0).lattice.clocksMove 0 = false ∧ ((latticeAt 0xC1 id 1).core 0).lattice.queue ≠ [] ∧ ((latticeAt 0xC1 id 1).core 0).lattice.faultAt ≠ some 1 ∧
    (((latticeAt 0xC9 (fun o => { o with started := true }) 1).core 0).lattice.queue.map (fun o => (o.started, decide (1 < o.left)))) = [(true, true)] ∧
    anyPoison State.reset (localPhys 0 0) imageSize = false ∧ Memory.wf State.reset.mem = true ∧
    (imageFault (State.reset.core 0).lattice (1 :: List.replicate 6399 0xFF) false).isSome = true := by decide +kernel

/-- The bytes of a record of job 1: two by two quads on module 0, a work key of one level, queues of four entries. -/
def recordBytes' : List Byte := bytesOfWords [.ofNat 64 (1 + 2 * 2 ^ 19 + 2 * 2 ^ 26), 0, 64, 0, 0, .ofNat 64 (4 * (2 ^ 20 + 2 ^ 26 + 2 ^ 32 + 2 ^ 38)), 0, 0, 0, 0, 0, 0] ++ List.replicate 160 0

/-- Host memory that begins with that record, and module 0 running with it. -/
def recordMemory : Memory := Memory.writeN [] 0 recordBytes'
def running : State := { State.reset.setModule 0 { running := true, cpl := { size := 16 } } with hostMem := recordMemory }

theorem witness_record : Memory.readN recordMemory 0 256 = recordBytes' := by
  have hl : recordBytes'.length = 256 := by decide +kernel
  have h := Memory.readN_writeN (m := []) 0 recordBytes' rfl
  rw [hl] at h
  unfold recordMemory
  exact h

/-- JobCommands: a record that passes, one of a job that is there, the boot ROM, a job that is resident, armed or ended, one with no context busy. -/
theorem witness_JobCommands :
    (State.reset.module 0).running = false ∧ (State.reset.module 0).commands = [] ∧ (running.module 0).running = true ∧
    (match running.checkRecord 0 recordBytes' none with | .ok y => y.record.job == 1 | .error _ => false) = true ∧
    (match running.checkRecord 0 recordBytes' (some 0x100) with | .ok _ => 0 | .error e => e) = 17 ∧
    (match ({ running with mem := Memory.writeN [] 0x100 [1, 0x10] } : State).checkRecord 0 recordBytes' (some 0x100) with | .ok _ => true | .error _ => false) = true ∧
    recordFault recordBytes' (decodeRecord recordBytes') (({ running with jobs := [(1, {})] } : State).jobUsed 1 false) = some 2 ∧
    (let s : State := loaded.setModule 0 { running := true }
     (aget s.jobs 1).map (fun x => (x.status, x.snapshot)) = some (.resident, none) ∧ ∀ q ∈ s.quadsOf 1, ∀ c ∈ coresOf q, (s.core c).busy = false) ∧
    (State.reset.job 1).snapshot = none := by decide +kernel

/-- PlacementAndRelease: a record that waits, on a module that is there, hot, and away; a job whose messages are released, and one whose are not. -/
theorem witness_PlacementAndRelease :
    (let s : State := { (State.reset.setModule 0 { running := true, waiting := [(1, 0)] }) with present := 1, jobs := [(1, { record := decodeRecord recordBytes' })] }
     (∀ e ∈ s.jobs, e.2.status ≠ .ending) ∧ (s.module 0).hot = false ∧ (aget s.jobs 1).map (fun x => (x.record.job, x.image, x.record.prod)) = some (1, none, 0) ∧
     s.findOrigin (decodeRecord recordBytes') = some (0, 0)) ∧
    (State.reset.setModule 0 { hot := true }).module 0 = { hot := true } ∧
    ({ State.reset with present := 0 } : State).fitsAt (decodeRecord recordBytes') 0 0 = false ∧
    (let x : Job := { record := { job := 1, ninit := 1, init := 0x10000, nmod := 0, modmap := [0], wkd := 64 }, plbase := 0x02020000, released := true, status := .resident }
     let s : State := { State.reset with jobs := [(1, x)] }
     let m := slotMessage (List.replicate 288 0)
     x.record.ninit ≤ 1 ∧ agetD x.initNext 0 0 < x.record.ninit ∧ (relocModule x.record (nodeModule (destOf m))).getD 5 = 0 ∧ slotGood x.record.wkd m = true ∧
     (s.relocateSlot x m (endNode 0 0 5 0)).isSome = true ∧ (aget s.jobs (jobOf (note 0))).isSome = true) := by decide +kernel

/-- SweepsAndSaves: a job that has ended its work, with equal sums before and not; a core that may save; the entries of an absent queue. -/
theorem witness_SweepsAndSaves :
    (let x : Job := { record := { job := 1, modmap := [0] }, status := .resident, released := true, sums := some (0, 0) }
     let s : State := { State.reset with jobs := [(1, x)] }
     x.record.modules = [0] ∧ x.sweeps = [] ∧ x.snapshot = none ∧ x.launched = true ∧ (s.sweepModule 1 0).idle = true ∧ (s.sweepModule 1 0).sent + x.hostSent = (s.sweepModule 1 0).recv + x.hostRecv ∧
     x.sums = some ((s.sweepModule 1 0).sent + x.hostSent, (s.sweepModule 1 0).recv + x.hostRecv)) ∧
    (let s := loaded.setCore 1 { hinge := { landed := true } }
     s.maySave 1 = true ∧ Memory.wf s.mem = true ∧ (s.core 1).replayMode = 0 ∧ (s.core 1).dbg.hist = [] ∧ (∃ d ∈ coresOf (quadOf 1), d ≠ 1 ∧ (s.core d).hinge.saved = false) ∧ s.poison = []) ∧
    State.reset.maySave 1 = false ∧
    (let s : State := { (State.reset.setDie (endNode 0 0 4 0) { absent := [(1, { entries := [note 0] })] }) with jobs := [(1, { status := .restoring })] }
     (agetD (s.die (endNode 0 0 4 0)).absent 1 {}).entries = [note 0] ∧ (∀ c ∈ s.quadsOf 1, dieNode c = endNode 0 0 4 0)) := by decide +kernel

/-- HostPortRegisters: a ring with room, a full one; one command and one slot to take, good and bad. -/
theorem witness_HostPortRegisters :
    (running.module 0).cpl.isFull = false ∧ (State.reset.module 0).cpl.isFull = true ∧ (running.module 0).completions = [] ∧ Memory.wf running.hostMem = true ∧
    (let s := State.reset.setModule 0 { running := true, cmd := { base := 0, size := 4 } }
     (s.module 0).commands = [] ∧ (s.module 0).killing = false ∧ (s.module 0).hot = false ∧ isKill (commandEvent 0 (wordsOf (Memory.readN s.hostMem 0 64) 8)) = false) ∧
    ((1 + 2 ^ 32 - (State.reset.module 0).injHead) % 2 ^ 32 = 1 ∧ State.reset.jobLoaded 0 = false) ∧
    (let x : Job := { record := { job := 0, modmap := [0], wkd := 64 }, plbase := 0x02020000, status := .resident }
     let s : State := { State.reset with jobs := [(0, x)] }
     let m := slotMessage (Memory.readN (s.module 0).inject 0x10000 288)
     s.jobLoaded (jobOf m) = true ∧ slotGood (s.job (jobOf m)).record.wkd m = true ∧ (s.relocateSlot (s.job (jobOf m)) m (hostNode 0)).isSome = true) ∧
    beyond 1 1 = false ∧ beyond 2 1 = true ∧ beyond 0xFFFFFFFF 0 = false := by decide +kernel

/-- HostAccesses: a window that is open and one that is closed; an arrival with room, and one without. -/
theorem witness_HostAccesses :
    (State.reset.hostAccess 0 0 8 false).1 = none ∧ flagOf ((State.reset.module 0).window 0) 0 = false ∧
    (let s := ({ State.reset with jobs := [(0, { record := { ptroot := 0x1000 }, status := .resident })] } : State).setModule 0 { windows := [(0, 1)], tlb := [{ page with base := 0, pte := page.pte ||| 0x60 }] }
     (s.hostAccess 0 0 8 true).1.isSome = true ∧ (s.hostAccess 0 65528 8 false).1.isSome = true) ∧
    (State.reset.module 0).rx.isFull = true ∧
    (let s := State.reset.setModule 0 { rx := { size := 4 }, sealed := true }
     (s.module 0).held = [] ∧ (s.module 0).rx.isFull = false ∧ (s.module 0).engine.records.length < 62) ∧ kindOf (note 0) = 0 ∧ hidxOf (note 0) < 0xE0 := by decide +kernel

/-- ServiceCommands: each kind of unit, a lane, a unit that does not exist, and stacks. -/
theorem witness_ServiceCommands :
    (∀ k ∈ [(0 : Nat), 1, 2, 4, 5], fenceExists [0, 0, .ofNat 64 (k + 4 * 256), 0] = true ∧ fenceKind [0, 0, .ofNat 64 (k + 4 * 256), 0] = k) ∧
    fenceExists [0, 0, .ofNat 64 (3 + (5 + 16 * 8) * 256), 0] = true ∧ fenceExists [0, 0, 7, 0] = false ∧
    (∀ q ∈ fencedQuads 0 [0, 0, 2, 0], (State.reset.quad q).job = none) ∧ (∃ q ∈ fencedQuads 0 [0, 0, 1, 0], (loaded.quad q).job.isSome = true) ∧
    aget (running.module 0).recal 7 = none ∧ (if (running.module 0).second then (running.module 0).slotA else (running.module 0).slotB) = none ∧
    ((if true then (({ running := true, second := true, slotA := some ⟨1, false, []⟩ } : Module)).slotA else none) = some ⟨1, false, []⟩) ∧
    (match State.reset.readImage 0 0 512 with | .ok _ => 0 | .error e => e) = 1 := by decide +kernel

/-- SHA-256 of no bytes, and an image without code. -/
def emptyHash : List Byte := [0xE3, 0xB0, 0xC4, 0x42, 0x98, 0xFC, 0x1C, 0x14, 0x9A, 0xFB, 0xF4, 0xC8, 0x99, 0x6F, 0xB9, 0x24, 0x27, 0xAE, 0x41, 0xE4, 0x64, 0x9B, 0x93, 0x4C, 0xA4, 0x95, 0x99, 0x1B, 0x78, 0x52, 0xB8, 0x55]
def firmware : List Byte := bytesOfWords [1, 0] ++ emptyHash ++ List.replicate 464 0

theorem test_sha256_empty : sha256 [] = emptyHash := by decide +kernel

/-- ServiceCommands: an image that verifies, under whatever key and least version the module has. -/
theorem witness_readImage (hv : pssVerify (Config.ferdoumKey 0).1 (Config.ferdoumKey 0).2 (firmware.take 128) (firmware.drop 128) = true) (hm : Config.minVersion 0 = 0) :
    ∃ f, ({ State.reset with hostMem := Memory.writeN [] 0 firmware } : State).readImage 0 0 512 = .ok f := by
  refine ⟨⟨0, false, emptyHash⟩, ?_⟩
  have hr : Memory.readN (Memory.writeN [] 0 firmware) 0 512 = firmware := by
    have hl : firmware.length = 512 := by decide +kernel
    rw [← hl]
    exact Memory.readN_writeN 0 firmware rfl
  have hc : Memory.readN (Memory.writeN [] 0 firmware) (0 + 512) (512 - 512) = [] := rfl
  have hs : imageShape firmware 512 = true := by decide +kernel
  have hh : (firmware.drop 16).take 32 = emptyHash := by decide +kernel
  have hw : fieldOf (wordAt firmware 0) 15 8 = 0 ∧ flagOf (wordAt firmware 0) 16 = false := by decide +kernel
  simp only [State.readImage, hr, hc, hs, hh, hv, hm, test_sha256_empty, hw.1, hw.2, Bool.not_true, Bool.false_eq_true, ne_eq, not_true_eq_false, or_self, if_false, Nat.not_lt_zero]

/-- PowerAndLinks: no core is busy; a replay that waits for its entry; a parked system context. -/
theorem witness_PowerAndLinks :
    (State.reset.module 0).commands = [] ∧
    (let s := core (fun c => { c with dbg := { c.dbg with replayctl := 2, replayWait := some 7 } })
     (s.core 0).dbg.replayWait = some 7 ∧ (s.core 0).replayMode = 2) ∧ (State.reset.core 0).dbg.replayWait ≠ some 7 ∧
    (let s := State.reset.setCtx 0 10 { status := .parked }
     (s.ctx 0 10).status = .parked ∧ ((s.ctx 0 10).invocation.map (fun i => i.finished)).getD false = false) := by decide +kernel

/-- After reset no core is busy. -/
theorem witness_idle_cores : ∀ c, (State.reset.core c).busy = false := fun _ => rfl

/-- A command to the seal engine of module 0, for its segment 0. -/
def sealCommand (pay : List Word) : Packet := { w0 := msgHeader (sealNode 0) 0 0xE0 0 (pay.length / 4) false 0 false 0 3, w1 := 0, payload := pay, poison := [false], src := 0, tag := 1 }

/-- SealEngineEvents: a buffer that does not translate and one that does, in host memory; a segment, a frame's layout, records that are due. -/
theorem witness_SealEngineEvents :
    (State.reset.module 0).engine.waiting = [] ∧ (({ State.reset with jobs := [(0, { record := { ptroot := 0x8000 } })] } : State).pagesMeet 0 0 0x6000 .write (fun p => flagOf p 6)) = false ∧
    (({ State.reset with jobs := [(0, { record := { ptroot := 0x8000 } })], mem := Memory.writeN (Memory.writeN [] 0x8000 [0x4F]) 0x9000 [0] } : State).pagesMeet 0 0 0x6000 .write (fun p => flagOf p 6)) = true ∧
    State.reset.segmentOf (sealCommand [3, 0, 0, 0]) = none ∧ (State.reset.module 0).engine.segment 0 = none ∧
    (let s := State.reset.setModule 0 { engine := { segments := (Vector.replicate 64 none).set 0 (some { job := 0, va := 0, opened := 0 }) } }
     (s.segmentOf (sealCommand [3, 0, 0, 0])).map (fun x => x.1) = some 0) ∧
    frameOk [0, 0, 0, 0] = false ∧ (State.reset.module 0).engine.records = [] ∧ 64 ≤ (List.replicate 64 ([] : List Byte)).length := by decide +kernel

/-- A member's descriptor on module 0, alone in its group. -/
def member : Packet := { w0 := msgHeader (endNode 0 0 1 0) 0 0xE0 0 2 false 0 false 0 3, w1 := 0, payload := [1, 0, 0, 0, 0, 0x10000, 0x11000, 1], poison := [false], src := 0, tag := 1 }

/-- Collectives: a complete group whose accesses fail, one whose accesses are allowed, a group that is not complete. -/
theorem witness_Collectives :
    (State.reset.module 0).collectives.length < 16 ∧ 16 ≤ (List.replicate 16 member).length ∧
    (let s := ({ State.reset with jobs := [(0, { record := { ptroot := 0x8000 } })] } : State).setModule 0 { collectives := [member] }
     s.colMembers member = some [member] ∧ [member].all (colAgree member) = true ∧ [member].all s.colReady = false) ∧
    ((State.reset.setModule 0 { collectives := [member] }).colMembers { member with payload := [1, 0, 0, 0, 0, 0x10000, 0x11000, 3] } = none) ∧
    colAgree member { member with payload := [2, 0, 0, 0, 0, 0x10000, 0x11000, 1] } = false := by decide +kernel

/-- CommitsAndCommittedBytes: a poisoned word at the beginning of G, and its store of eight bytes and of one. -/
theorem witness_poisoned_word :
    isPoisoned (here.addPoison (localPhys 0 0)) (localPhys 0 0) = true ∧ 0 % [(0 : Byte), 0, 0, 0, 0, 0, 0, 0].length = 0 ∧ [(0 : Byte)].length ∈ [1, 2, 4] := by decide +kernel

/-- QualifiersAndOperandFaults: an empty g register and a v register of the same commit interval. -/
theorem witness_empty_registers :
    (here.regs.markG 31 .empty).stateOf (.g 31 true) = .empty ∧ ((here.regs.markV 15 .awaitCommit).stateOf (.v 15 true)).isOwn = true ∧ Running here := by decide +kernel

/-- R392: a parity error leaves the provenance NaN with ARITH = 1 and POISON = 1 in its cell (R82), and the next cell as it is. -/
theorem test_cell_parity :
    (let c := (after (exec (.transientEvent 0 0 (.cellParity 127 255)) State.reset)).cluster (clusterOf 0)
     c.cell 127 255 = (0x7FCE0000, 0) ∧ c.cell 127 254 = (0, 0) ∧ c.parity = [(127, 255, 0)]) := by decide +kernel


/-- A modulus of 3,072 bits, and a signature of the three bytes "abc" that OpenSSL made under it (RSASSA-PSS, SHA-256, MGF1, a salt of 32 bytes, exponent 65,537). -/
def pssModulus : Nat := 0xAF649DCEF0B80553977C249BFBB813462340DAED78B3AE52DA92CA733BFF55AD67AB5C69E804790A90EE2F47C9D27ED0E4C096BD4C94EEF398A5EB6742B8D11C82F9FD8E646E1FD2565E000C0C4170D7B3201ED54868DE481FBABF617E29378A9DD3C21F08C59FF1A15048D535A3D7617C017ACCE731A9DC51045430415BC1332CCB3AF1E84FD525C55DD330530A66F92A1E357F21C6E6B7A37FA7C279E2EE41C70654AB3657E1EDBF1DD9C6682F252880D872C75B94C302C52996039F6B3F01D56B37E66A09953C1EEE9D14464324A4D22E9A0EC72110107BD64B3A6DE7A9A9A22CF8427F0DE323058D4B947FAB90455B5DE405F54851C52A00CB5D68496743F03527E4D0B6C022A2564A8D82F7D0DA5EEE149B9D03B2B0270BF15864BD5E77DD96F3EEF81AC4132F4CBE5CDC48E980CC907F3D3F5944BCFD98AB4AE5DC591EDAEE511F836E95683054801095BCBE81F3278B4ECBFEA18EDBBA46D8D4366C35C0196CA46228E719D119CB1010D2A783AB9AA6A11C3E67F70B7BFA7523AD05E9
def pssSignature : List Byte := bigBytes 384 0x0A792220ACD175D114B70D36938717DF133F7E63CEBF351508941A4709534567EE71E5141DC1B61E116335A168041D692E8EE1992112FB50C27D71F9B7E3C1058F090ED0AAF67D638ADD7DF123BE5556F30B1F744B53532C2B5E6B3915A74D941C51C9C5B820D60755D16CC04F347F1C9AD10309BCD254DF03A0E6DB28E191AF746DE9DD00E36CBEBDC7910CB58CBED6A65C7E6094B4785012A1F7E0269A194FF9DD33DE527A68A01BD3DC293D6A9D1BB7C0839BE30CFACFD4FF68CC178498B46FF913B13FF4EAB7BB6FFA0D7526412C4C7553F636E89BA4429C0FF7F13E616DBF9CA3B75BC44F2C20A8A75F332DCB9B5EF44F7EEEA78050A872EB833F83A9885C26042320BE536066F235AE0912C8D8B320415AFFCD12FCB0C4DD3ED04C3615B1E29FE18F838A48E4A528E5045B7F6643C67A2B521EED5D7ED7028A803A8C8EF1EF6A24878CCCFFACC836C1E59B89E32363A98754874441421AED9961833D5A0479B8EDA992869E3875AE72C8CE4087F3D2141C9B3E088C105AE8A0DF45D9BC

/-- R443, R467: the signature verifies, and not with another message. -/
theorem test_pss : pssVerify pssModulus 65537 [0x61, 0x62, 0x63] pssSignature = true ∧ pssVerify pssModulus 65537 [0x61, 0x62] pssSignature = false := by
  decide +kernel

/-! ## States that meet the hypotheses about waiting, pauses, pre-emption and replay -/

/-- A parked context 9 whose invocation has one property. -/
def parkedWith (f : Invocation → Invocation) : State :=
  (withG sys [(1, 9), (2, 0)]).setCtx 0 9
    { status := .parked, jobid := 1, trap := ⟨0x970, 0, 0, 0⟩, invocation := some (f { entry := { inputs := [mail], head := 0 }, handler := 0 }) }

/-- TrapEndings: an invocation that has finished, one that has passed a COMMIT, one whose retries are used up and one that may be moved; a target that is there and none. -/
theorem witness_retry :
    (let s := parkedWith (fun i => { i with finished := true })
     (s.val (1 : BitVec 5)).toNat ≤ 9 ∧ (s.val (2 : BitVec 5)).toNat ≤ 16 ∧ s.named 9 = false ∧ (s.ctx s.cur 9).status = .parked ∧ ((s.ctx s.cur 9).invocation.map (fun i => i.finished)) = some true) ∧
    (((parkedWith (fun i => { i with consumed := true })).ctx 0 9).invocation.map (fun i => (i.finished, i.consumed))) = some (false, true) ∧
    (((parkedWith id).ctx 0 9).invocation.map (fun i => (i.finished, i.consumed, decide (i.retry ≤ i.entry.retries)))) = some (false, false, true) ∧
    (((parkedWith (fun i => { i with retry := 1 })).ctx 0 9).invocation.map (fun i => decide (i.entry.retries < i.retry))) = some true ∧
    (loaded.retryTarget 0 1 1 false).isSome = true ∧ State.reset.retryTarget 0 1 0 false = none ∧
    ((withG sys [(1, 16)]).val (1 : BitVec 5)).toNat = 16 ∧
    ((sys.onBlock (fun b => { b with acts := [.tkill 9] })).named 9) = true := by decide +kernel

/-- TrapReturns: an invocation whose TRAP left no block, and one that has finished, with no commit waiting. -/
theorem witness_ends :
    (let x := (parkedWith id).ctx 0 9
     x.commit = none ∧ x.trap.cause.toNat % 256 = 0x70 ∧ x.trap.blk = 0) ∧
    (((parkedWith (fun i => { i with finished := true })).ctx 0 9).invocation.map (fun i => i.finished)) = some true := by decide +kernel

/-- CommitsAndCommittedBytes: two poisoned words that a store of eight bytes off their boundary meets. -/
theorem witness_two_poisoned_words :
    (let s := (here.addPoison (localPhys 0 0)).addPoison (localPhys 0 8)
     4 % 8 = 4 ∧ isPoisoned s (localPhys 0 4) = true ∧ isPoisoned s (localPhys 0 4 + 4) = true ∧ ordinaryEntries 0 (s.core 0).sysq < 21 ∧ (s.core 0).sysHeld = []) := by decide +kernel

/-- Packets of a source that wait at quad 0, and a memory core that is paused. -/
def behind : State := { State.reset with arrivals := [{ m := request 0 3 [] }] }

/-- RemoteAccessEvents: an arrival behind another of its source, one at a paused memory core, a partly written poisoned word. -/
theorem witness_waiting_arrivals :
    nodeIsEnd (destOf (request 0 3 [])) = false ∧ behind.waitsBehind (request 0 3 []) = true ∧
    (let m := remoteOp 4 0 3 0x100 0xE0 0 1 []
     nodeIsEnd (destOf m) = true ∧ ((State.reset.setMemCore (destOf m) { paused := true }).memCore (destOf m)).paused = true) ∧
    (let m := request 1 2 [5]
     let s := State.reset.addPoison (physOf m)
     placeAllows .remoteWrite (physOf m) 4 true = true ∧ physOf m % 4 = 0 ∧ isPoisoned s (physOf m) = true ∧ 4 ≤ (bytesOf m).length) ∧
    (behind.heldBefore (request 0 3 [])).any (fun e => e.src == 4) = true := by decide +kernel

/-- VersionCellEvents: a plainly written version newer than CUR is held by a slot, and watched all the same. -/
theorem witness_newer_version :
    (let s : State := { cell with mem := Memory.writeN cell.mem (localPhys 0 50) [9] }
     newer 9 (cellCur (Memory.word s.mem (localPhys 0 0))) = true ∧ s.cellRetained (localPhys 0 0) 9 = some 1) := by decide +kernel

/-- TumblerEvents: three updates and a read, of which a clk performs two; a drain that has used both; two that have filled in one clk. -/
theorem witness_tumbler_file :
    (let m := tumblerOp 4 0x18 0 511 1 0xE0 0 1 []
     let rd := tumblerOp 4 0x1B 0 511 0 0xE0 0 1 []
     ([m, rd, m].filter isUpdate).length = 2 ∧ isUpdate m = true ∧ isUpdate rd = false ∧ (∀ x ∈ [m, rd], quadOf (destOf x) = quadOf 0) ∧
     opOf m = 0x18 ∧ opOf rd = 0x1B) ∧
    (let q : Quad := { drains := [⟨0, 0, 0x18, 5, 1⟩, ⟨0, 0, 0x1A, 3, 0⟩, ⟨1, 0, 0x19, 3, 1⟩], fires := [(5, none), (3, none)] }
     (q.drains.filter (fun u => updateOp u.op)).length ≤ 3 ∧ q.updates = [] ∧ q.fires.map (·.1) = [5, 3]) := by decide +kernel

/-- DepartureEvents: a release behind an effect of its scope, a message behind an RCPY to its node, a QFENCE behind a GO; a command to an endpoint. -/
theorem witness_held_heads :
    ({ pending := [{ tag := 1, ctx := 0, aclass := 0, answer := .engine }] } : Core).holdsHead 0 (.fence 0) = true ∧
    ({ pending := [{ tag := 1, ctx := 0, aclass := 2, answer := .engine }] } : Core).holdsHead 0 (.fence 0) = false ∧
    ({ pending := [{ tag := 1, ctx := 0, aclass := 2, answer := plainAnswer, copyTo := [0] }] } : Core).holdsHead 0 (.msg mail none plainAnswer none) = true ∧
    ({ pending := [{ tag := 1, ctx := 3, aclass := 1, engine := some 0, answer := .engine }] } : Core).holdsHead 3 (.qfence 1) = true ∧
    ({ pending := [{ tag := 1, ctx := 3, aclass := 1, engine := some 0, answer := .engine }] } : Core).holdsHead 2 (.qfence 1) = false ∧
    (kindOf (streamCommand 0 0) = 3 ∧ nodeIsEnd (destOf (streamCommand 0 0)) = true) := by decide +kernel

/-- The input of handler 1 that waits on core 0. -/
def first : Waiting := { head := 1, input := 0, msg := note 1, tag := 0, run := 1, stamp := 0 }

/-- ArrivalEvents: an arrival behind its source's, a full system queue, a poisoned handler entry, the last input of a join. -/
theorem witness_arrivals :
    ({ loaded with arrivals := [{ m := note 0 }] } : State).waitsBehind (note 0) = true ∧
    ({ sysq := List.replicate 22 (.notice 0 0 0 0 []) } : Core).sysFull 0 = true ∧
    (loaded.addPoison (localPhys 0 (handlerOffset 0))).handlerPoison 0 0 = true ∧
    (let s := loaded.setCore 0 { q := { depth := Vector.replicate 4 4, store := [first] } }
     (s.core 0).q.store = [first] ∧ (s.core 0).q.overflow = [] ∧ first.marker = false ∧ first.run = 1 ∧ vecOf (note 1) = false ∧
     first.tag = wkTag (s.core 0).wkdesc (note 1).w1 ∧ keysAgree (s.core 0).wkdesc 0 first.msg.w1 (note 1).w1 = true ∧ (s.core 0).q.spills 0 = false) := by decide +kernel

/-- A core that has saved and takes no more. -/
def recording : State := loaded.setCore 0 { hinge := { arm := true, saved := true, landed := true } }

/-- ArrivalEvents: an arrival that pre-emption records, and one of a job that is away, with room in the region and without. -/
theorem witness_recorded_arrivals :
    recording.recordAs (note 0) = some (0x7F, true) ∧ (recording.die (dieNode 0)).accepts 0 = true ∧
    (let j : Job := { record := { job := 1, modmap := [0] }, plbase := 0x02020000, placed := [0], status := .saved }
     let s : State := { State.reset with jobs := [(1, j)] }
     (s.quad 0).job ≠ some (jobOf (note 0)) ∧ aget s.jobs 1 = some j ∧ (relativeOf j.plbase j.placedRecord 0).isSome = true) ∧
    ({} : Die).accepts 2 = false ∧ ({ regionSize := 2 ^ 20 } : Die).accepts 2 = true := by decide +kernel

/-- DispatchEvents: an entry whose handler is poisoned, routed and not; a bolt behind its source, one that closes the last channel, one that closes another, one of no channel. -/
theorem witness_pauses_and_bolts :
    (let e : QEntry := { inputs := [note 0], head := 0 }
     (loaded.addPoison (localPhys 0 (handlerOffset 0))).codePoison 0 e = true) ∧
    ({ loaded with arrivals := [{ m := note 0 }] } : State).waitsBehind (note 0) = true ∧ loaded.incoming 0 = [] ∧
    (let s : State := { loaded with jobs := [(1, { record := { job := 1, modmap := [0] }, status := .resident, channels := [{ sx := 0, sy := 0, sm := 0, sc := 1, dx := 0, dy := 0, dm := 0, dc := 0 }, { sx := 0, sy := 0, sm := 0, sc := 2, dx := 0, dy := 0, dm := 0, dc := 0 }] })] }
     s.incoming 0 = [0, 1] ∧ (∃ x ∈ s.incoming 0, x ≠ 0 ∧ x ∉ ([] : List Nat)) ∧ (∀ x ∈ s.incoming 0, x = 0 ∨ x ∈ [1])) := by decide +kernel

/-- ReplyEvents: a REPLY that asks to be accepted, an engine command that is not performed and one that is, a refusal of no request. -/
theorem witness_replies :
    (let m : Packet := { w0 := msgHeader 0 0 (0 * 16 + 15) 0 1 false 0 false 0 1, w1 := 0, payload := [7, 0, 0, 0], poison := [false], src := 4, wantAck := true }
     let s := ctx (fun x => { x with slots := [(15, { reg := 31, answer := .message, tag := 1 })] })
     m.wantAck = true ∧ hidxOf m / 16 ≤ 10 ∧ m.src < 2 ^ 22 ∧ aget (s.ctx 0 0).slots 15 = some { reg := 31, answer := .message, tag := 1 }) ∧
    (let p : Pending := { tag := 1, ctx := 0, aclass := 1, engine := some 1, answer := plainAnswer }
     p.worst = 0 ∧ p.left ≤ 1 ∧ p.engine = some 1 ∧ p.performed = false) ∧
    nodeClass (endNode 0 0 4 0) = 4 ∧ (nodeIsEnd 0 = false) ∧
    ((core (fun c => { c with pending := [{ tag := 1, ctx := 0, aclass := 0, answer := .message }] })).core 0).pending.find? (fun x => !x.read && !x.acked && x.aclass == 0) =
      some { tag := 1, ctx := 0, aclass := 0, answer := .message } := by decide +kernel

/-- A walk for context 0 of core 0. -/
def walk : Walk := ⟨.coreData 0 0, 0, 0x10000, 0, 0, false⟩

/-- TranslationEvents: a miss that merges, one that starts, one that waits and one for which there is no place; a walk with its walker, alone and with a miss behind it, stale or not; a paused stack. -/
theorem witness_walks :
    (let u : WalkUnit := { busy := [⟨0, 0x10008, [.coreData 1 0]⟩] }
     (∃ m ∈ u.busy ++ u.queue, m.job = walk.job ∧ m.va.toNat / 65536 = walk.va.toNat / 65536) ∧ u.busy.length < 4) ∧
    (let m : WalkMiss := ⟨1, 0, []⟩
     let u : WalkUnit := { busy := List.replicate 4 m, queue := List.replicate 64 m }
     ¬ (∃ m ∈ u.busy ++ u.queue, m.job = walk.job ∧ m.va.toNat / 65536 = walk.va.toNat / 65536) ∧ 4 ≤ u.busy.length ∧ 64 ≤ u.queue.length) ∧
    State.reset.pausedOwner walk = none ∧ State.reset.pausedWalker walk.who = false ∧
    ((State.reset.setMemCore (endNode 0 0 0 0) { paused := true }).pausedOwner walk) = some (endNode 0 0 0 0) ∧
    ((ctx (fun x => { x with miss := some (.walking 0 0x10000) })).ctx 0 0).miss = some (.walking walk.job walk.va) ∧
    (({ busy := [⟨walk.job, walk.va, [walk.who]⟩] } : WalkUnit).queue = []) ∧ { walk with stale := true }.stale = true := by decide +kernel

/-- QueueEvents: a command of a job that waits in the placer, one behind another on its queue, and the absent queue of a job for a system context. -/
theorem witness_waiting_commands :
    ({ queued [] with jobs := [(1, {})] } : State).jobAway 1 = true ∧ (queued []).jobAway 1 = false ∧
    (({ State.reset with arrivals := [{ m := queueCommand 0 0 0 }] } : State).heldBefore (queueCommand 0 0 0)).any (fun e => destOf e == endNode 0 0 4 0 && cmdQueue e == cmdQueue (queueCommand 0 0 0)) = true ∧
    (queued []).queueWaits (queueCommand 0 0 0) = false ∧ ((queued []).taskQueue (queueCommand 0 0 0)).isSome = true ∧
    ((queued [(mail, true)]).taskQueue (queueCommand 0 0 0)).map (fun t => t.entries) = some [(mail, true)] := by decide +kernel

/-- LeaseEvents and ArrayEvents: a command that is finishing, with one message and with two not accepted, and an acknowledgement to the cluster. -/
theorem witness_finishing :
    (let s := (ordered (order 0x87 1 0 0) (some lease))
     let t := s.setCluster (clusterOf 0) { (s.cluster (clusterOf 0)) with finishing := some (order 0x87 1 0 0, []), awaited := 2 }
     let m : Packet := { w0 := msgHeader (clusterOf 0) 0 0xE0 0 0 false 0 false 0 1, w1 := 0, payload := [], poison := [] }
     (t.cluster (destOf m)).finishing.isSome = true ∧ 1 < (t.cluster (destOf m)).awaited ∧ m.wantAck = false ∧ nodeIsEnd (destOf m) = true ∧ nodeClass (destOf m) = 7 ∧
     destOf (order 0x87 1 0 0) = destOf m) := by decide +kernel

/-- StreamCommands and StreamWork: a paused memory core; a stream with a demand, one at its limit of run-ahead, a failed check of a table; a beat of a tile that is being read, a write to a paused stack. -/
theorem witness_stream_limits :
    ((State.reset.setMemCore (endNode 0 0 0 0) { paused := true }).memCore (endNode 0 0 0 0)).paused = true ∧
    ((streaming (fun x => { x with ahead := List.replicate 64 (0, 128) })).memCore (endNode 0 0 0 0)).nextIssue = none ∧
    (({ desc := desc, tableBad := some 8 } : Stream).tableBad = some 8) ∧
    (({ desc := desc, part := List.replicate 64 1, sent := 1 } : Stream).nextBeat.map (fun b => b.next)) = some 1 ∧
    (({ desc := desc, part := List.replicate 63 1, sent := 1 } : Stream).nextBeat) = none ∧
    (State.reset.setMemCore (endNode 0 0 0 0) { paused := true }).pausedAt 0 = true ∧
    (let m : WalkMiss := ⟨0, 0, []⟩
     let u : WalkUnit := { busy := [m] }
     u.busy ≠ [] ∧ u.queue.length < 64) := by decide +kernel

/-- LatticeQueue: LAT.INJ of 0 and of an increment that saturates. -/
theorem witness_injection :
    (0 : Word).setWidth 32 = 0#32 ∧ -(2 ^ 31) ≤ ((State.reset.core 0).lattice.injAt 3).n ∧ ((State.reset.core 0).lattice.injAt 3).n ≤ 2 ^ 31 - 1 := by decide +kernel

/-- SweepsAndSaves: a job every core of which has saved, with its equal sums; a frozen job; an arrival of the image that still waits. -/
theorem witness_saved_sums :
    (let x : Job := { record := { job := 1, modmap := [0] }, status := .resident, snapshot := some ⟨0, 0, 0, [], [], 0⟩, savedSums := some (0, 0) }
     let s : State := { State.reset with jobs := [(1, x)] }
     x.snapshot.isSome = true ∧ s.quadsOf 1 = [] ∧ (s.sweepModule 1 0).sent + x.hostSent = (s.sweepModule 1 0).recv + x.hostRecv + s.taskEntries 1 ∧
     x.savedSums = some ((s.sweepModule 1 0).sent + x.hostSent, (s.sweepModule 1 0).recv + x.hostRecv + s.taskEntries 1) ∧ s.renewRecords 1 = some s) ∧
    ({ frozen := true } : Job).frozen = true ∧
    ({ loaded with arrivals := [{ m := { note 0 with counted := true } }] } : State).replayHeld 1 = true ∧ loaded.replayHeld 1 = false ∧
    (State.reset.setDie (endNode 0 0 4 0) { absent := [(1, { entries := [note 0] })] }).absentLeft 1 = true ∧ State.reset.absentLeft 1 = false := by decide +kernel

/-- HostPortRegisters and HostAccesses: an action that waits; memory in a paused stack, and behind an earlier message of the host. -/
theorem witness_host_waits :
    ((State.reset.setModule 0 { hostWait := [(.cmdtailWrite 0 0, false)] }).module 0).hostWait ≠ [] ∧
    (State.reset.setMemCore (endNode 0 0 0 0) { paused := true }).hostWaits 0 [(0, 8)] = true ∧
    ({ State.reset with arrivals := [{ m := { note 0 with src := hostNode 0 } }] } : State).hostWaits 0 [(localPhys 0 0, 8)] = true ∧
    State.reset.hostWaits 0 [(0, 8)] = false := by decide +kernel

/-- ServiceCommands and PowerAndLinks: a stack with a miss that is not answered and one that has drained, an end that is set; a replay whose entry has come. -/
theorem witness_pauses :
    State.reset.stackDrained 0 0 = true ∧
    ((State.reset.setMemCore (endNode 0 0 0 0) { slots := (Vector.replicate 16 none).set 3 (some { desc := desc, writes := [⟨0, [1], [], false⟩] }) }).stackDrained 0 0) = false ∧
    aget ({ recalEnd := [(0, 131072)] } : Module).recalEnd 0 = some 131072 ∧ State.reset.replayHit 0 0 = none ∧
    (((loaded.quad 0).job.map loaded.frozen).getD false) = false ∧
    (let s : State := { loaded with jobs := [(1, { record := { job := 1 }, status := .resident, frozen := true })] }
     ((s.quad 0).job.map s.frozen).getD false = true) := by decide +kernel

/-- SealEngineEvents: a command behind another; a frame whose every field lies in its range. -/
theorem witness_seal_waits :
    ((State.reset.setModule 0 { engine := { waiting := [sealCommand []] } }).module 0).engine.waiting ≠ [] ∧
    frameOk [0, 0, .ofNat 64 (16 + 16 * 2 ^ 14 + 2 ^ 29), 0] = true := by decide +kernel

/-- Collectives: a group of one that is performed next, a unit where another waits, and a core that waits for no shootdown. -/
theorem witness_collective_order :
    (({ State.reset with jobs := [(0, { record := { ptroot := 0x8000 } })] } : State).colAccept member).colNext = some (member, [member]) ∧
    ((State.reset.setModule 0 { colWaiting := [member] }).module 0).colWaiting ≠ [] ∧ (State.reset.core 0).draining = [] := by decide +kernel

/-! ## States that meet the hypotheses of the clauses about reservations, drains, splits, chains and refusals -/

/-- MatrixInstructions and LatticeInstructions: a context that holds the hasp and one that has asked for it, a fenced lattice in a handler context and in the system context. -/
theorem witness_fenced_lattice :
    HoldsHasp leased ∧ (ctx (fun x => { x with hasp := .requested })).me.hasp = .requested ∧
    (core (fun c => { c with lattice := { c.lattice with fenced := true } })).myCore.lattice.fenced = true ∧
    (let s := sys.setMyCore { sys.myCore with lattice := { sys.myCore.lattice with fenced := true } }
     s.myCore.lattice.fenced = true ∧ s.isSystem = true) := by decide +kernel

/-- A versioned write of the cell in `cell`, and a commit that waits to reserve for it. -/
def vst (r : Option Nat) : MemEffect := { op := 0x11, addr := 0, virt := false, pa := localPhys 0 0, size := 3, payload := [7], opcode := 0x6C, scope := some 0, reservation := r, job := 0 }
def reserving (s : State) (r : Option Nat) : State :=
  s.setCtx 0 0 { status := .live, commit := some { done := true, block := 0x100, next := 0x104 }, retire := [.store [(0, [1])] 1, .mem (vst r)] }

/-- VersionReservations: a cell with a free slot, one without, a store that holds 16, a poisoned cell and a malformed one. -/
theorem witness_VersionReservations :
    (let s := reserving cell none
     let x := s.ctx 0 0
     x.status = .live ∧ x.retire = [.store [(0, [1])] 1] ++ .mem (vst none) :: [] ∧ (x.commit.map (fun c => c.reserved)) = some false ∧ (vst none).scope.isSome = true ∧
     (vst none).reservation = none ∧ cellQuad (vst none) = 0 ∧
     anyPoison s (vst none).pa 64 = false ∧ s.cellMalformed (vst none).pa = false ∧ s.cellFree (vst none).pa 0 = true ∧ (s.quad 0).reservations = [] ∧ (s.quad 0).waitingReservations = []) ∧
    (let s := cell.setQuad 0 { reservations := (List.range 4).map (fun i => ⟨localPhys 0 0, i, 4, 0, i, false⟩) }
     ∀ i, i < 4 → ∃ r ∈ (s.quad 0).reservations, r.cell = localPhys 0 0 ∧ r.slot = i) ∧
    (16 ≤ (List.replicate 16 (⟨64, 0, 4, 0, 1, false⟩ : Reservation)).length) ∧
    (let s := (reserving cell (some 9)).setQuad 0 { reservations := [⟨localPhys 0 0, 2, 0, 0, 9, false⟩] }
     ∃ r ∈ (s.quad (cellQuad (vst (some 9)))).reservations, some r.tag = (vst (some 9)).reservation ∧ r.node = 0 ∧ r.ctx = 0) ∧
    anyPoison (cell.addPoison (localPhys 0 0)) (localPhys 0 0) 64 = true ∧ (reserving State.reset none).cellMalformed (localPhys 0 0) = true := by decide +kernel

/-- BlockEntryAndCommit: a block that raised an enabled flag, with FPFIRST empty and full; one that yields; an interval that has not ended. -/
theorem witness_first_record :
    (let s := blk (fun b => { b with raised := 1, fpmode := 0x08 })
     let b := s.block
     (b.raised &&& b.fpmode.extractLsb' 3 5).toNat ≠ 0 ∧ (s.core 0).fpfirst.getLsbD 0 = false ∧ b.isDone = false) ∧
    ((core (fun c => { c with fpfirst := 1 })).core 0).fpfirst.getLsbD 0 = true ∧
    (blk (fun b => { b with yield := some 7 })).block.yield = some 7 ∧
    (((ctx (fun x => { x with yieldEnd := some 5 })).core 0).ctx 0).yieldEnd = some 5 := by decide +kernel

/-- TrapReturns: a queue whose second entry has paused it. -/
theorem witness_stuck_entry :
    (let e (h : Nat) (z : Bool) : QEntry := { inputs := [note 0], head := h, stuck := z }
     let s := core (fun c => { c with q := { c.q.setQueue 3 [e 0 false, e 1 true, e 2 false] with paused := c.q.paused.set 3 true } })
     s.myCore.q.queueAt 3 = [e 0 false] ++ e 1 true :: [e 2 false] ∧ (∀ x ∈ [e 0 false] ++ [e 2 false], x.stuck = false) ∧ s.myCore.q.pausedAt 3 = true) := by decide +kernel

/-- InvocationCommits and DepartureEvents: a drain of another core of the quad and one of the core itself, with a commit or a message behind it. -/
theorem witness_drains :
    (let s := here.setQuad 0 { drains := [⟨1, 0, 0x18, 5, 1⟩] }
     ∀ u ∈ (s.quad 0).drains, u.node ≠ 0) ∧
    (let s := here.setQuad 0 { drains := [⟨0, 0, 0x18, 5, 1⟩] }
     ∃ u ∈ (s.quad 0).drains, ¬ u.node ≠ 0) ∧
    (tumblerOps 0 0 [.store [(0, [1])] 1] = []) := by decide +kernel

/-- VersionCellEvents: a reservation on a poisoned cell and on a malformed one, a retirement beyond CUR + 1 and one that is not newer than FLOOR. -/
theorem witness_refused_cells :
    (let hold (s : State) : State := s.setQuad 0 { reservations := [⟨localPhys 0 0, 2, 4, 0, 1, true⟩] }
     let m := remoteOp 4 0x11 3 (localPhys 0 0) 0xE0 0 1 [9]
     let p := hold (cell.addPoison (localPhys 0 8))
     let z := hold State.reset
     anyPoison p (physOf m) 64 = true ∧ anyPoison z (physOf m) 64 = false ∧ z.cellMalformed (physOf m) = true ∧ cellAllowed (physOf m) true = true ∧
     (∀ s ∈ [p, z], ((s.quad (destOf m)).reservations.find? (fun x => x.node == m.src && x.tag == m.tag)).isSome = true)) ∧
    (let w := Memory.word cell.mem (localPhys 0 0)
     let next := (cellCur w + 1) % 2 ^ 16
     newer 9 next = true ∧ newer next (cellFloor w) = true ∧ newer 3 (cellFloor w) = false) := by decide +kernel

/-- TumblerEvents: an arrival behind another of its source; drains of three updates, of which a clk takes two; a read behind the drains that filled the clk; a fire with its record, invalid or not. -/
theorem witness_file_splits :
    (let m := tumblerOp 4 0x18 0 511 1 0xE0 0 1 []
     ∃ e ∈ ({ State.reset with arrivals := [{ m := m }] } : State).heldBefore m, nodeIsEnd (destOf e) = false ∧ quadOf (destOf e) = quadOf (destOf m) ∧ e.src = m.src) ∧
    (let u (op : Nat) : LocalUpdate := ⟨0, 0, op, 5, 1⟩
     let l := [u 0x18, u 0x1A, u 0x19]
     [u 0x18, u 0x1A, u 0x19, u 0x18] = l ++ [u 0x18] ∧ (l.filter (fun x => updateOp x.op)).length = 2 ∧ updateOp (u 0x18).op = true) ∧
    (let rd := tumblerOp 4 0x1B 0 511 0 0xE0 0 1 []
     let m := tumblerOp 4 0x18 0 511 1 0xE0 0 1 []
     [rd, m] = [rd] ++ [m] ∧ ([rd].filter isUpdate).length = 0 ∧ isUpdate m = true) ∧
    (let q : Quad := { fires := [(3, none), (5, some ⟨0, 0, 2, 0⟩), (7, some ⟨0, 0, 1, 0⟩), (9, some ⟨0, 0, 0, 0⟩)] }
     q.fires = [(3, none)] ++ (5, some ⟨0, 0, 2, 0⟩) :: [(7, some ⟨0, 0, 1, 0⟩), (9, some ⟨0, 0, 0, 0⟩)] ∧ ∀ e ∈ [((3 : Nat), (none : Option ActionRecord))], e.1 ≠ 5) := by decide +kernel

/-- DepartureEvents: an effect that a shootdown has marked, translated afresh by the tables. -/
theorem witness_marked_effect :
    (let a : MemEffect := { op := 1, addr := 0x10000, virt := true, pa := 0, size := 3, payload := [1], opcode := 0x61, marked := true, job := 0 }
     let s : State := { filled (Memory.writeN [] 0x8000 [0x4F]) with jobs := [(0, { record := { ptroot := 0x8000 } })] }
     a.marked = true ∧ a.reservation = none ∧ a.op < 0x11 ∧
     (match s.walkTo 0 0 .write with | .ok _ => true | .error _ => false) = true) := by decide +kernel

/-- ArrivalEvents: an arrival that is tried again, between two that wait. -/
theorem witness_arrival_place :
    (let s : State := { State.reset with arrivals := [⟨note 0, false⟩] ++ ⟨note 1, true⟩ :: [⟨note 2, false⟩] }
     (⟨note 1, true⟩ : WaitingArrival) ∉ [(⟨note 0, false⟩ : WaitingArrival)] ∧ (⟨note 0, true⟩ : WaitingArrival) ∉ s.arrivals) := by decide +kernel

/-- TranslationEvents: a walk whose root is in HBM, one whose root is not, and one past its root. -/
theorem witness_roots :
    inHbm ({ walk with table := 0x1000 } : Walk).table = true ∧ inHbm ({ walk with table := 2 ^ 40 } : Walk).table = false ∧ ({ walk with level := 1 } : Walk).level ≠ 0 := by decide +kernel

/-! ## States that meet the hypotheses of the clauses about the array, the streams, the lattice, errors, jobs, the host and the seal engine -/

/-- ArrayEvents: the first record of a chain, the 64th command of a holder, a run without a panel, a command of a format of bf16 to drain and one that answers nothing. -/
theorem witness_chain_record :
    (let m := { order 0x86 0 0 0 with src := 2 ^ 22 }
     isChainRecord m = true → AtArray (ordered m (some { lease with holder := none, chain := [m] })) m { lease with holder := none, chain := [m] }) ∧
    AtArray (ordered (order 0x86 0 0 0) (some { lease with count := 63, panelA := none })) (order 0x86 0 0 0) { lease with count := 63, panelA := none } ∧
    mxSub (order 0x87 1 0 0) = 1 ∧ mxSub (order 0x87 3 0 0) = 3 ∧ 0 < winCols 0x7F000000 / 128 ∧ mxReplies (order 0x88 1 0 0) = false ∧
    (((ordered (order 0x86 0 0 0) (some lease)).cluster (clusterOf 0)).nextCommand = some (order 0x86 0 0 0)) ∧
    (((ordered (order 0x86 0 0 0) (some { lease with holder := some (5, 1) })).cluster (clusterOf 0)).nextCommand = none) := by decide +kernel

/-- StreamCommands: a descriptor for each reason, a poisoned GO and one with a wrong layout, a STOP behind a write to a paused stack. -/
theorem witness_reasons :
    Desc.fault (desc.set 0 0x10012) = some 1 ∧ Desc.fault (desc.set 2 2) = some 2 ∧ Desc.fault (desc.set 7 30) = some 3 ∧
    Desc.fault (desc.set 0 0x10011) = some 4 ∧ Desc.fault (desc.set 8 1) = some 5 ∧ Desc.fault (desc.set 0 0x10090) = some 7 ∧ Desc.fault (desc.set 0 0x10210) = some 8 ∧
    (∃ b ∈ [false, true], b = true) ∧ (beatsOf (streamCommand 1 0) ≠ 5) ∧
    ((State.reset.setMemCore (endNode 0 0 0 0) { paused := true }).pausedAt ({ pa := 0, data := [1], bad := [], last := false } : StreamWrite).pa = true) := by decide +kernel

/-- StreamWork: a gather whose table is not read, whose check failed, and one that selects past n[2]; a loader and a storer of chunks, with a chunk that fits and one that passes LIMIT; bytes of a line that is there. -/
theorem witness_chunks :
    Desc.gather (desc.set 0 0x10210) = true ∧ ({ desc := desc.set 0 0x10210, tableBad := some 8 } : Stream).tableBad = some 8 ∧
    (match ({ desc := desc.set 0 0x10210 } : Stream).table with | .error a => a == 0 | .ok _ => false) = true ∧
    (match ({ desc := desc.set 0 0x10210, fetched := [(0, List.replicate 64 (1, false))] } : Stream).table with | .ok (.error b) => b == 0 | _ => false) = true ∧
    (let x : Stream := { desc := desc.set 0 0x10210, sel := some ([1], 0) }
     x.tile < 1 ∧ Desc.count x.desc 2 ≤ [1].getD x.tile 0) ∧
    (let x : Stream := { desc := ((desc.set 0 0x10090).set 3 127).set 7 127 }
     Desc.comp x.desc = 1 ∧ Desc.gather x.desc = false ∧ x.sel = none ∧ x.tiles ≠ 0 ∧ (match x.expand with | .error a => a == 0 | .ok _ => false) = true) ∧
    (let x : Stream := { desc := ((desc.set 0 0x20111).set 3 127).set 7 127, limit := 16 }
     Desc.comp x.desc = 2 ∧ Desc.store x.desc = true ∧ x.tiles ≠ 0 ∧ x.staged = [] ∧
     x.off + (chunkEncoding 4 (List.replicate 512 0)).length ≤ x.limit ∧ ({ x with marked := true }).marked = true) ∧
    (match ({ desc := desc, fetched := [(0, [(7, false), (8, true)])] } : Stream).look 0 2 with | .ok l => l == [(7, false), (8, true)] | .error _ => false) = true ∧
    (stageWrites 60 [1, 2, 3, 4, 5, 6, 7, 8] true).map (fun w => w.va) = [60, 64] := by decide +kernel

/-- LatticeQueue and LatticeClocks: a lattice with a fault, a transfer of a bad image, a clock in instruction mode that a LAT.STEP names. -/
theorem witness_lattice_faults :
    (let l : Lattice := { fc := 1, clocks := (Vector.replicate 4 {}).set 0 { run := true, instr := true } }
     l.fc ≠ 0 ∧ l.ticking 1 = [0] ∧ l.ticking 0 = []) ∧
    ((latticeAt 0xC5 id 1).core 0).lattice.headDue 1 ≠ none ∧ ((latticeAt 0xC1 (fun o => { o with f := 3 }) 1).core 0).lattice.queue.map (fun o => o.f) = [3] ∧
    (State.reset.core 0).lattice.fc = 0 := by decide +kernel

/-- WatchdogAndErrors: a block with two parity errors; a core whose entries another can take, and one where none can; an invocation that finished, passed a COMMIT, and used its retries. -/
theorem witness_repair :
    agetD ((ctx (fun x => { x with parity := [(0, 2)] })).ctx 0 0).parity 0 0 = 2 ∧
    (loaded.retryTarget 0 1 0 true).isSome = true ∧ State.reset.retryTarget 0 0 0 true = none ∧
    (let i : Invocation := { entry := { inputs := [mail], head := 0 }, handler := 0 }
     i.finished = false ∧ i.consumed = false ∧ i.retry ≤ i.entry.retries ∧ i.entry.retries < { i with retry := 1 }.retry) ∧
    (loaded.core 0).sysHeld = [] ∧ ordinaryEntries 1 ((loaded.core 1).sysq ++ (loaded.core 0).sysq) < 22 := by decide +kernel

/-- JobCommands: records that fail one check each, a job that is armed with room in its completion ring for two entries. -/
theorem witness_reasons_of_a_record :
    (let why (i : Nat) (b : Byte) : Nat := match running.checkRecord 0 (recordBytes'.set i b) none with | .ok _ => 0 | .error e => e
     why 7 0x80 = 1 ∧ why 0 0 = 2 ∧ why 42 0 = 3) ∧
    (let s : State := { running.setModule 0 { running.module 0 with cpl := { size := 2 ^ 4 } } with jobs := [(1, { status := .resident, snapshot := some ⟨0, 0, 0, [], [], 0⟩ })] }
     (s.job 1).snapshot.isSome = true ∧ (s.module 0).completions = [] ∧ (s.module 0).cpl.isFull = false ∧
     ({ (s.module 0).cpl with tail := ((s.module 0).cpl.tail + 1) % 2 ^ 32 } : Ring).isFull = false ∧ (s.job 1).port = 0 ∧ 1 < (s.module 0).cpl.size) := by decide +kernel

/-- PlacementAndRelease and SweepsAndSaves: a rectangle of even size, and a job of two modules of which one has swept. -/
theorem witness_two_modules :
    (let r : JobRecord := { job := 1, nmod := 1, modmap := [0, 1], wx := 2, wy := 2 }
     let x : Job := { record := r, status := .resident }
     let s : State := { State.reset with jobs := [(1, x)] }
     r.modules = [0, 1] ∧ r.wx < 128 ∧ r.wy < 64 ∧ (∃ m ∈ r.modules, aget (aset x.sweeps 0 (s.sweepModule 1 0)) m = none) ∧
     (∀ m ∈ r.modules, (aget (aset [(1, s.sweepModule 1 1)] 0 (s.sweepModule 1 0)) m).isSome = true)) := by decide +kernel

/-- HostPortRegisters and HostAccesses: an action that is tried again behind another, a page that the host may see and one that it may not, sealed-output mode without an opened buffer. -/
theorem witness_host_pages :
    (let w : Event × Bool := (.cmdtailWrite 0 0, true)
     [((.injtailWrite 0 0, false) : Event × Bool), w] = [(.injtailWrite 0 0, false)] ++ w :: [] ∧ [((.injtailWrite 0 0, false) : Event × Bool)] ≠ [] ∧
     w ∉ [((.injtailWrite 0 0, false) : Event × Bool)]) ∧
    (let at_ (pte : Word) (sealed : Bool) : State :=
       ({ State.reset with jobs := [(0, { status := .resident })] } : State).setModule 0 { windows := [(0, 1)], tlb := [{ page with base := 0, pte := pte }], sealed := sealed }
     let seen := page.pte ||| 0x60
     flagOf ((at_ seen false).module 0 |>.window 0) 0 = true ∧ (tlbPick ((at_ seen false).module 0).tlb 0 0).isSome = true ∧
     ((at_ seen false).hostAccess 0 0 8 false).1.isSome = true ∧ ((at_ page.pte false).hostAccess 0 0 8 false).1 = none ∧
     ((at_ seen true).hostAccess 0 0 8 false).1 = none ∧ ((at_ seen true).hostAccess 0 0 8 true).1.isSome = true) ∧
    (∃ o, o < 0x1000 ∧ o ∉ [0x40, 0x48, 0x50, 0x60, 0x68, 0x78, 0x80, 0x88, 0x98, 0xA0, 0xA8, 0xB8, 0xC0, 0x100]) := ⟨by decide +kernel, by decide +kernel, 0, by decide⟩

/-- PowerAndLinks: a hot module with a LAUNCH at the head of its commands, and a neighbour that is present. -/
theorem witness_hot_commands :
    (let x : Module := { hot := true, commands := [.launch 0 []] }
     x.hot = true ∧ x.killing = false ∧ x.commands = .launch 0 [] :: []) ∧
    ({ State.reset with present := 2 } : State).present.toNat.testBit (neighbour 0 0) = true := by decide +kernel

/-- A segment at virtual address 0 of job 0, whose tables map it to stack 0, paused or not. -/
def closing (paused : Bool) : State :=
  let s : State := { State.reset with jobs := [(0, { record := { ptroot := 0x8000 } })], mem := Memory.writeN [] 0x8000 [0x4F] }
  if paused then s.setMemCore (endNode 0 0 0 0) { paused := true } else s

def frame : List Word := [0, 0, .ofNat 64 (16 + 16 * 2 ^ 14 + 2 ^ 29), 0]

/-- SealEngineEvents: a frame that fits its ring and one that does not, and a segment whose close waits for a paused stack or for none. -/
theorem witness_frame_room :
    ({ size := 4096 } : Ring).used + recordBytes frame ≤ 4096 ∧ ({} : Ring).size < ({} : Ring).used + recordBytes frame := by decide +kernel

theorem closing_walk : (match (closing true).walkTo 0 0 .write with | .ok pa => pa == 0 | .error _ => false) = true := by decide +kernel
theorem closing_paused : (closing true).pausedAt 0 = true := by decide +kernel

theorem witness_close :
    (closing true).closePaused 0 0 { job := 0, va := 0, opened := 0 } = true ∧ (closing false).closePaused 0 0 { job := 0, va := 0, opened := 0 } = false ∧
    (closing false).framePaused 0 frame = false := by
  have hp (pa : Nat) : (closing false).pausedAt pa = false := by
    unfold State.pausedAt
    cases placeOf pa <;> rfl
  refine ⟨?_, List.any_eq_false.mpr fun e _ => ?_, List.any_eq_false.mpr fun a _ => Bool.eq_false_iff.mp (List.any_eq_false.mpr fun e _ => ?_)⟩
  · have h : (closing true).walkTo 0 0 .write = .ok 0 := by
      have hw := closing_walk
      cases h : (closing true).walkTo 0 0 .write with
      | error _ => rw [h] at hw; exact absurd hw Bool.false_ne_true
      | ok pa => rw [h] at hw; rw [of_decide_eq_true hw]
    have hr (n : Nat) (hn : n ≠ 0) : ∃ e ∈ runParts 0 n, e.1 = 0 := by
      rw [runParts, if_neg hn]
      exact ⟨_, List.mem_map.mpr ⟨0, List.mem_range.mpr (Nat.succ_pos _), rfl⟩, rfl⟩
    have hn : ((closing true).signManifest 0 0 false false 0 (0 + (((closing true).module 0).engine.gens[0]?).getD 0 * 64) []).1.length ≠ 0 := by
      rw [State.signManifest, manifestBody]
      simp only [List.length_append, List.length_replicate]
      omega
    obtain ⟨e, he, h0⟩ := hr _ hn
    exact List.any_eq_true.mpr ⟨e, he, by simp only [h0, h, closing_paused]⟩
  · cases (closing false).walkTo 0 e.1 .write <;> simp only [hp, Bool.false_eq_true, not_false_eq_true]
  · cases (closing false).walkTo 0 e.1 .read <;> simp only [hp, Bool.false_eq_true, not_false_eq_true]

/-- CustomOpcodes: the image of `bound` is valid and no bank that it reads is still to be written. -/
theorem witness_valid_image :
    ((bound.myCore.boundGraph 0).map graphFault) = some none ∧ bound.myCore.patch.last = none ∧
    (∀ i k, (h : k < 32) → ((bound.myCore.patch.bank i 0).ready[k]'h) ≤ bound.clk) := by
  refine ⟨by decide +kernel, by decide +kernel, ?_⟩
  intro i k h
  have e : bound.myCore.patch.bank i 0 = {} := rfl
  rw [e]
  simp

end Sys2Proof.Tests
end

/-! PROOFS. What a commit reserves and does, and the bytes that it writes and leaves (R33, R43, R44, R117, R128, R130, R135, R228, R235, R251). -/

namespace Sys2Proof.Machine

/-! ### Bytes and atomic operations (R8, Table 10-2) -/

theorem bytesOfNat_length (n x : Nat) : (bytesOfNat n x).length = n := by
  induction n generalizing x with
  | zero => rfl
  | succ n ih => simp [bytesOfNat, ih]

/-- The bytes of a number read back as the number, cut to their width. -/
theorem natOfBytes_bytesOfNat (n x : Nat) : natOfBytes (bytesOfNat n x) = x % 2 ^ (8 * n) := by
  induction n generalizing x with
  | zero => simp [bytesOfNat, natOfBytes, Nat.mod_one]
  | succ n ih =>
    have hp : 2 ^ (8 * (n + 1)) = 256 * 2 ^ (8 * n) := by rw [Nat.mul_succ, Nat.pow_add, Nat.mul_comm]
    rw [bytesOfNat, natOfBytes, ih, hp, Nat.mod_mul, BitVec.toNat_ofNat]

theorem natOfBytes_lt (l : List Byte) : natOfBytes l < 2 ^ (8 * l.length) := by
  induction l with
  | nil => simp [natOfBytes]
  | cons b r ih =>
    have hp : 2 ^ (8 * (r.length + 1)) = 256 * 2 ^ (8 * r.length) := by rw [Nat.mul_succ, Nat.pow_add, Nat.mul_comm]
    have hb := b.isLt
    rw [natOfBytes, List.length_cons, hp]
    omega

/-- No atomic operation leaves its word's width. -/
theorem atomicNew_lt (kind z : Nat) {old b : Nat} (x : Nat) (ho : old < 2 ^ (8 * 2 ^ z)) (hb : b < 2 ^ (8 * 2 ^ z)) :
    atomicNew kind z old b x < 2 ^ (8 * 2 ^ z) := by
  simp only [atomicNew]
  split
  · exact Nat.mod_lt _ (Nat.two_pow_pos _)
  · exact Nat.and_lt_two_pow _ hb
  · exact Nat.or_lt_two_pow ho hb
  · exact Nat.xor_lt_two_pow ho hb
  · split <;> assumption
  · split <;> assumption
  · exact Nat.lt_of_le_of_lt (Nat.min_le_left _ _) ho
  · exact Nat.max_lt.mpr ⟨ho, hb⟩
  · exact hb
  · split <;> assumption

/-- An atomic operation on memory without poison answers the old value and writes its result (R135). -/
theorem atomicAt_clean {s : State} {pa z : Nat} (kind b x : Nat) (h : anyPoison s pa (2 ^ z) = false) :
    s.atomicAt pa kind z b x =
      let old := natOfBytes (Memory.readN s.mem pa (2 ^ z))
      let new := atomicNew kind z old (b % 2 ^ (8 * 2 ^ z)) (x % 2 ^ (8 * 2 ^ z))
      some (old, { s with mem := Memory.writeN s.mem pa (bytesOfNat (2 ^ z) new) }) := by
  simp [State.atomicAt, h]

/-! ### Local addresses lie in a store, whose poison units are its 8-byte words (R22, R42) -/

theorem quadIndex_le (q : Nat) : quadIndex q ≤ 5167 := by
  simp only [quadIndex, nodeX, nodeY, bits]
  omega

theorem storeBase_le (sel : Nat) : storeBase sel ≤ 0x100000 := by
  unfold storeBase
  split <;> omega

theorem storeBase_mod (sel : Nat) : storeBase sel % 8 = 0 := by
  unfold storeBase
  split <;> rfl

theorem localPhys_mod (q la : Nat) : localPhys q la % 8 = la % 8 := by
  have hs := storeBase_mod (la / 0x100000 % 4)
  simp only [localPhys, quadBase, storeWindows]
  omega

/-- A local address, and what follows it closely, lies above the HBM of its module. -/
theorem localPhys_add_notHbm (q la : Nat) {j : Nat} (hj : j < 16) : ¬ (localPhys q la + j) % 2 ^ 46 < 2 ^ 39 := by
  have hq := quadIndex_le q
  have hs := storeBase_le (la / 0x100000 % 4)
  simp only [localPhys, quadBase, storeWindows]
  omega

theorem poisonUnit_localPhys_add (q la : Nat) {j : Nat} (hj : j < 16) :
    poisonUnit (localPhys q la + j) = (localPhys q la + j) / 8 * 8 :=
  if_neg (localPhys_add_notHbm q la hj)

theorem localPhys_notHbm (q la : Nat) : ¬ localPhys q la % 2 ^ 46 < 2 ^ 39 := by
  have h := localPhys_add_notHbm q la (j := 0) (by omega)
  rwa [Nat.add_zero] at h

theorem poisonUnit_localPhys (q la : Nat) : poisonUnit (localPhys q la) = localPhys q la / 8 * 8 := if_neg (localPhys_notHbm q la)

theorem poisonSize_localPhys (q la : Nat) : poisonSize (localPhys q la) = 8 := if_neg (localPhys_notHbm q la)

theorem eight_le_poisonSize (u : Nat) : 8 ≤ poisonSize u := by
  unfold poisonSize
  split <;> omega

theorem isPoisoned_iff (s : State) (pa : Nat) : isPoisoned s pa = true ↔ poisonUnit pa ∈ s.poison := List.contains_iff_mem

theorem isPoisoned_congr {s : State} {a b : Nat} (h : poisonUnit a = poisonUnit b) : isPoisoned s a = isPoisoned s b := by
  rw [isPoisoned, h, isPoisoned]

theorem mem_dropPoison (s : State) (pa n u : Nat) :
    u ∈ (s.dropPoison pa n).poison ↔ u ∈ s.poison ∧ (u < pa ∨ pa + n < u + poisonSize u) := by
  simp only [State.dropPoison, List.mem_filter, Bool.not_eq_true', Bool.and_eq_false_iff, decide_eq_false_iff_not]
  exact and_congr_right fun _ => or_congr Nat.not_le Nat.not_le

/-- A run that begins in a poisoned unit of a store meets poison. -/
theorem anyPoison_of_isPoisoned {s : State} {q la n : Nat} (hn : 0 < n) (h : isPoisoned s (localPhys q la) = true) :
    anyPoison s (localPhys q la) n = true := by
  rw [isPoisoned_iff, poisonUnit_localPhys] at h
  have h8 := eight_le_poisonSize (localPhys q la / 8 * 8)
  exact List.any_eq_true.mpr ⟨_, h, by simp only [Bool.and_eq_true, decide_eq_true_eq]; omega⟩

/-- A unit that a run does not cover keeps its poison. -/
theorem isPoisoned_dropPoison_of_part {s : State} {pa n a : Nat} (h : isPoisoned s a = true) (hu : poisonUnit a < pa ∨ pa + n < poisonUnit a + 8) :
    isPoisoned (s.dropPoison pa n) a = true := by
  rw [isPoisoned_iff] at h ⊢
  have h8 := eight_le_poisonSize (poisonUnit a)
  exact (mem_dropPoison _ _ _ _).mpr ⟨h, by omega⟩

/-! ### One access that writes bytes to a poisoned run (R44) -/

/-- The writes of a run byte by byte are the write of the run. -/
theorem foldl_write_range (m : Memory) (pa : Nat) (bs : List Byte) :
    (List.range bs.length).foldl (fun m k => Memory.write m (pa + k) (bs.getD k 0)) m = Memory.writeN m pa bs := by
  induction bs generalizing m pa with
  | nil => rfl
  | cons b r ih =>
    rw [List.length_cons, List.range_succ_eq_map, List.foldl_cons, List.foldl_map, Memory.writeN, ← ih]
    refine congrArg (fun f => List.foldl f _ _) (funext fun m => funext fun k => ?_)
    rw [show pa + k.succ = pa + 1 + k by omega]
    rfl

/-- Where every poisoned unit of a run is written whole, the run is written and loses its poison. -/
theorem writeUnits_whole {s : State} {pa : Nat} {bs : List Byte} (h : anyPoison s pa bs.length = true)
    (hk : ∀ k, k < bs.length → isPoisoned (s.dropPoison pa bs.length) (pa + k) = false) :
    writeUnits s pa bs = ({ s.dropPoison pa bs.length with mem := Memory.writeN s.mem pa bs }, []) := by
  have hkeep : (List.range bs.length).filter (fun k => !isPoisoned (s.dropPoison pa bs.length) (pa + k)) = List.range bs.length :=
    List.filter_eq_self.mpr fun k hm => by simp [hk k (List.mem_range.mp hm)]
  have hlost : (List.range bs.length).filter (fun k => isPoisoned (s.dropPoison pa bs.length) (pa + k)) = [] :=
    List.filter_eq_nil_iff.mpr fun k hm => by simp [hk k (List.mem_range.mp hm)]
  simp only [writeUnits, h, if_true, hkeep, hlost, foldl_write_range, List.map_nil]
  rfl

/-- Where every byte of a run lies in a poisoned unit that is written in part, the whole run is discarded. -/
theorem writeUnits_lost {s : State} {pa : Nat} {bs : List Byte} (h : anyPoison s pa bs.length = true)
    (hk : ∀ k, k < bs.length → isPoisoned (s.dropPoison pa bs.length) (pa + k) = true) :
    writeUnits s pa bs = (s.dropPoison pa bs.length, ((List.range bs.length).map (fun k => poisonUnit (pa + k))).eraseDups) := by
  have hkeep : (List.range bs.length).filter (fun k => !isPoisoned (s.dropPoison pa bs.length) (pa + k)) = [] :=
    List.filter_eq_nil_iff.mpr fun k hm => by simp [hk k (List.mem_range.mp hm)]
  have hlost : (List.range bs.length).filter (fun k => isPoisoned (s.dropPoison pa bs.length) (pa + k)) = List.range bs.length :=
    List.filter_eq_self.mpr fun k hm => by simp [hk k (List.mem_range.mp hm)]
  simp only [writeUnits, h, if_true, hkeep, hlost, List.foldl_nil]

/-! ### Notices (R156, R384) -/

/-- A notice enters a system queue that has room. -/
theorem notice_of_room {s : State} {node : Nat} (cause ctx : Nat) (addr info : Word) (h : (s.core node).sysFull node = false) :
    s.notice node cause ctx addr info =
      s.setCore node { s.core node with sysq := (s.core node).sysq ++ [.notice cause ctx addr info []] } := by
  simp [State.notice, State.sysEntry, h]

theorem notice_mem (s : State) (node cause ctx : Nat) (addr info : Word) : (s.notice node cause ctx addr info).mem = s.mem := rfl

theorem notice_ctx (s : State) (node cause ctx : Nat) (addr info : Word) (k : Nat) :
    (s.notice node cause ctx addr info).ctx node k = s.ctx node k := by
  simp only [State.notice, State.sysEntry, State.ctx, core_setCore_same]
  split <;> rfl

/-! ### The drain of a store and of an AMO (R33, R44, R228) -/

/-- A drained store, by what its access leaves and the units that it has to leave unwritten. -/
theorem drainChunk_of_writeUnits {s t : State} {la : Nat} {bs : List Byte} {lost : List Nat}
    (h : writeUnits s (localPhys s.cur la) bs = (t, lost)) :
    s.drainChunk (la, bs) =
      lost.foldl (fun (u : State) a => u.notice s.cur 0x2D s.curCtx (wordOf (la + a - localPhys s.cur la)) 0) t := by
  rw [State.drainChunk, h]

theorem drainChunk_clean {s : State} {la : Nat} {bs : List Byte} (h : anyPoison s (localPhys s.cur la) bs.length = false) :
    s.drainChunk (la, bs) = { s with mem := Memory.writeN s.mem (localPhys s.cur la) bs } :=
  drainChunk_of_writeUnits (writeUnits_clean h)

/-- R33: a committed store on memory without poison writes its bytes, and nothing else. -/
theorem drainChunk_writes {s : State} {la : Nat} {bs : List Byte} (hm : Memory.wf s.mem = true)
    (h : anyPoison s (localPhys s.cur la) bs.length = false) :
    let t := s.drainChunk (la, bs)
    (∀ k, k < bs.length → Memory.read t.mem (localPhys s.cur la + k) = bs.getD k 0) ∧
    (∀ a, a < localPhys s.cur la ∨ localPhys s.cur la + bs.length ≤ a → Memory.read t.mem a = Memory.read s.mem a) ∧
    t.regs = s.regs ∧ t.poison = s.poison := by
  rw [drainChunk_clean h]
  exact ⟨fun k hk => Memory.read_writeN _ _ hm hk, fun a ha => Memory.read_writeN_outside _ _ ha, rfl, rfl⟩

theorem gval_setRegs_setG {s : State} (hk : s.curCtx < 11) (r : Regs) (d : Nat) (w : Word) :
    (s.setRegs (r.setG d w)).regs.gval d = if d = 0 then 0 else if d < 32 then w else 0 := by
  have hr : (s.setRegs (r.setG d w)).regs = r.setG d w := by rw [State.regs, State.setRegs, me_setMe _ _ hk]
  rw [hr]
  by_cases h0 : d = 0
  · subst h0; rfl
  · by_cases hd : d < 32
    · rw [gval_setG_same r w h0 hd, if_neg h0, if_pos hd]
    · simp [Regs.gval, Regs.greg, Regs.setG, Regs.putReg, h0, hd]

/-- R228: a committed AMO on memory without poison writes its result, and its register takes the old value. -/
theorem drainAmo_writes {s : State} {la z : Nat} (kind d : Nat) (v e : Word) (hm : Memory.wf s.mem = true) (hk : s.curCtx < 11)
    (h : anyPoison s (localPhys s.cur la) (2 ^ z) = false) :
    let t := s.drainAmo false la kind z v e d
    let old := natOfBytes (Memory.readN s.mem (localPhys s.cur la) (2 ^ z))
    t.regs.gval d = (if d = 0 then 0 else if d < 32 then .ofNat 64 old else 0) ∧
    natOfBytes (Memory.readN t.mem (localPhys s.cur la) (2 ^ z)) = atomicNew kind z old (v.toNat % 2 ^ (8 * 2 ^ z)) (e.toNat % 2 ^ (8 * 2 ^ z)) ∧
    (∀ a, a < localPhys s.cur la ∨ localPhys s.cur la + 2 ^ z ≤ a → Memory.read t.mem a = Memory.read s.mem a) := by
  simp only [State.drainAmo, atomicAt_clean _ _ _ h, Bool.false_eq_true, if_false, State.setRegs_mem]
  refine ⟨gval_setRegs_setG hk _ _ _, ?_, fun a ha => Memory.read_writeN_outside _ _ ?_⟩
  case refine_2 => rwa [bytesOfNat_length]
  have hold := natOfBytes_lt (Memory.readN s.mem (localPhys s.cur la) (2 ^ z))
  rw [Memory.readN_length] at hold
  have hnew := atomicNew_lt kind z (e.toNat % 2 ^ (8 * 2 ^ z)) hold (Nat.mod_lt v.toNat (Nat.two_pow_pos (8 * 2 ^ z)))
  have hread := Memory.readN_writeN (localPhys s.cur la) (bytesOfNat (2 ^ z) (atomicNew kind z
    (natOfBytes (Memory.readN s.mem (localPhys s.cur la) (2 ^ z))) (v.toNat % 2 ^ (8 * 2 ^ z)) (e.toNat % 2 ^ (8 * 2 ^ z)))) hm
  rw [bytesOfNat_length] at hread
  rw [hread, natOfBytes_bytesOfNat, Nat.mod_eq_of_lt hnew]

/-- R44: an aligned 8-byte store to a poisoned word replaces it and clears its poison. -/
theorem drainChunk_poisoned_whole {s : State} {la : Nat} {bs : List Byte} (hm : Memory.wf s.mem = true)
    (hp : isPoisoned s (localPhys s.cur la) = true) (ha : la % 8 = 0) (hl : bs.length = 8) :
    let t := s.drainChunk (la, bs)
    (∀ k, k < 8 → Memory.read t.mem (localPhys s.cur la + k) = bs.getD k 0) ∧ isPoisoned t (localPhys s.cur la) = false ∧
      (t.core s.cur).sysq = (s.core s.cur).sysq := by
  have hmod := localPhys_mod s.cur la
  have hclear : ∀ k, k < bs.length → isPoisoned (s.dropPoison (localPhys s.cur la) bs.length) (localPhys s.cur la + k) = false := by
    intro k hk
    rw [Bool.eq_false_iff, ne_eq, isPoisoned_iff, poisonUnit_localPhys_add s.cur la (by omega),
      show (localPhys s.cur la + k) / 8 * 8 = localPhys s.cur la by omega, mem_dropPoison, poisonSize_localPhys]
    omega
  have hw := writeUnits_whole (anyPoison_of_isPoisoned (by omega) hp) hclear
  have h0 := hclear 0 (by omega)
  rw [Nat.add_zero] at h0
  rw [drainChunk_of_writeUnits hw, List.foldl_nil]
  exact ⟨fun k hk => Memory.read_writeN _ _ hm (by omega), h0, rfl⟩

/-- The one unit that an aligned run of fewer than eight bytes touches. -/
theorem poisonUnit_of_aligned {q la n k : Nat} (hn : n ∈ [1, 2, 4]) (ha : la % n = 0) (hk : k < n) :
    poisonUnit (localPhys q la + k) = poisonUnit (localPhys q la) := by
  have hmod := localPhys_mod q la
  simp only [List.mem_cons, List.not_mem_nil, or_false] at hn
  rw [poisonUnit_localPhys, poisonUnit_localPhys_add q la (by omega)]
  rcases hn with rfl | rfl | rfl <;> omega

theorem eraseDups_replicate {α : Type} [BEq α] [LawfulBEq α] {n : Nat} (h : 0 < n) (x : α) : (List.replicate n x).eraseDups = [x] := by
  obtain ⟨m, rfl⟩ := Nat.exists_eq_succ_of_ne_zero (Nat.pos_iff_ne_zero.mp h)
  rw [List.replicate_succ, List.eraseDups_cons]
  simp

/-- R44: a store of part of a poisoned word is discarded, with a notice that names the word and parks nothing. -/
theorem drainChunk_poisoned_part {s : State} {la : Nat} {bs : List Byte} (hp : isPoisoned s (localPhys s.cur la) = true)
    (ha : la % bs.length = 0) (hl : bs.length ∈ [1, 2, 4]) (hr : (s.core s.cur).sysFull s.cur = false) :
    let t := s.drainChunk (la, bs)
    t.mem = s.mem ∧ isPoisoned t (localPhys s.cur la) = true ∧
      (t.core s.cur).sysq = (s.core s.cur).sysq ++ [.notice 0x2D s.curCtx (.ofNat 64 (la / 8 * 8)) 0 []] ∧
      ∀ k, (t.ctx s.cur k).status = (s.ctx s.cur k).status := by
  have hmod := localPhys_mod s.cur la
  have hunit := poisonUnit_localPhys s.cur la
  have hlen : 0 < bs.length ∧ bs.length ≤ 4 := by simp only [List.mem_cons, List.not_mem_nil, or_false] at hl; omega
  have hlost : ∀ k, k < bs.length → isPoisoned (s.dropPoison (localPhys s.cur la) bs.length) (localPhys s.cur la + k) = true := by
    intro k hk
    have hu := poisonUnit_of_aligned (q := s.cur) hl ha hk
    exact isPoisoned_dropPoison_of_part (by rwa [isPoisoned_congr hu]) (by rw [hu, hunit]; omega)
  have hw := writeUnits_lost (anyPoison_of_isPoisoned hlen.1 hp) hlost
  have hunits : ((List.range bs.length).map (fun k => poisonUnit (localPhys s.cur la + k))).eraseDups = [poisonUnit (localPhys s.cur la)] := by
    rw [List.map_congr_left fun k hk => poisonUnit_of_aligned (q := s.cur) hl ha (List.mem_range.mp hk), List.map_const', List.length_range,
      eraseDups_replicate hlen.1]
  have haddr : la + poisonUnit (localPhys s.cur la) - localPhys s.cur la = la / 8 * 8 := by rw [hunit]; omega
  rw [hunits] at hw
  rw [drainChunk_of_writeUnits hw, List.foldl_cons, List.foldl_nil, haddr]
  have h0 := hlost 0 hlen.1
  rw [Nat.add_zero] at h0
  refine ⟨rfl, h0, ?_, fun k => congrArg Ctx.status (notice_ctx (s.dropPoison _ _) _ _ _ _ _ k)⟩
  rw [notice_of_room (s := s.dropPoison _ _) _ _ _ _ hr, core_setCore_same]
  rfl

/-- A run of eight bytes across two units names each of them once. -/
theorem eraseDups_units_two {pa : Nat} (h : 4 ≤ pa) (hlow : ∀ k, k < 4 → poisonUnit (pa + k) = pa - 4)
    (hhigh : ∀ k, 4 ≤ k → k < 8 → poisonUnit (pa + k) = pa + 4) :
    ((List.range 8).map (fun k => poisonUnit (pa + k))).eraseDups = [pa - 4, pa + 4] := by
  have hsplit : (List.range 8).map (fun k => poisonUnit (pa + k)) = List.replicate 4 (pa - 4) ++ List.replicate 4 (pa + 4) := by
    have h1 := List.map_congr_left (l := List.range 4) fun k hk => hlow k (List.mem_range.mp hk)
    have h2 := List.map_congr_left (l := List.range 4) fun k hk => hhigh (4 + k) (by omega) (by have := List.mem_range.mp hk; omega)
    rw [show 8 = 4 + 4 from rfl, List.range_add, List.map_append, List.map_map, h1, Function.comp_def, h2, List.map_const', List.map_const', List.length_range]
  have hne : pa + 4 ≠ pa - 4 := by omega
  have hrest : (List.replicate 4 (pa + 4)).removeAll (List.replicate 4 (pa - 4)) = List.replicate 4 (pa + 4) := by
    simp [List.removeAll, hne]
  rw [hsplit, List.eraseDups_append, hrest, eraseDups_replicate (by omega), eraseDups_replicate (by omega)]
  rfl

/-- A run of eight bytes across two poisoned units is discarded. -/
theorem writeUnits_lost_two {s : State} {pa : Nat} {bs : List Byte} (hl : bs.length = 8) (hm : pa % 8 = 4)
    (hunit : ∀ k, k < 8 → poisonUnit (pa + k) = (pa + k) / 8 * 8) (hmeets : anyPoison s pa 8 = true)
    (hp : isPoisoned s pa = true) (hp4 : isPoisoned s (pa + 4) = true) :
    writeUnits s pa bs = (s.dropPoison pa 8, [pa - 4, pa + 4]) := by
  have hlow : ∀ k, k < 4 → poisonUnit (pa + k) = pa - 4 := fun k hk => by rw [hunit k (by omega)]; omega
  have hhigh : ∀ k, 4 ≤ k → k < 8 → poisonUnit (pa + k) = pa + 4 := fun k h4 hk => by rw [hunit k hk]; omega
  have hlost : ∀ k, k < bs.length → isPoisoned (s.dropPoison pa bs.length) (pa + k) = true := by
    intro k hk
    by_cases h4 : k < 4
    · have hu : poisonUnit (pa + k) = poisonUnit pa := (hlow k h4).trans (hlow 0 (by omega)).symm
      exact isPoisoned_dropPoison_of_part (by rwa [isPoisoned_congr hu]) (by rw [hlow k h4]; omega)
    · have hu : poisonUnit (pa + k) = poisonUnit (pa + 4) := by rw [hhigh k (by omega) (by omega), hhigh 4 (by omega) (by omega)]
      exact isPoisoned_dropPoison_of_part (by rwa [isPoisoned_congr hu]) (by rw [hhigh k (by omega) (by omega)]; omega)
  rw [writeUnits_lost (by rwa [hl]) hlost, hl, eraseDups_units_two (by omega) hlow hhigh]

/-- Two notices enter a system queue that has room for both. -/
theorem notice_notice_of_room {s : State} {node : Nat} (cause ctx : Nat) (a b info : Word) (hq : ordinaryEntries node (s.core node).sysq < 21)
    (hh : (s.core node).sysHeld = []) :
    (((s.notice node cause ctx a info).notice node cause ctx b info).core node).sysq =
      (s.core node).sysq ++ [.notice cause ctx a info [], .notice cause ctx b info []] := by
  have hfirst : (s.core node).sysFull node = false := by simp [Core.sysFull, hh]; omega
  have hcount : ordinaryEntries node ((s.core node).sysq ++ [.notice cause ctx a info []]) < 22 := by
    simp only [ordinaryEntries, List.filter_append, List.length_append] at hq ⊢
    simp only [List.filter_cons, List.filter_nil, if_true, List.length_singleton]
    omega
  rw [notice_of_room _ _ _ _ hfirst, notice_of_room]
  · simp
  · simpa [Core.sysFull, hh] using hcount

/-- R44: a store of eight bytes off their boundary that meets two poisoned words is discarded, with a notice for each. -/
theorem drainChunk_poisoned_two {s : State} {la : Nat} {bs : List Byte} (ha : la % 8 = 4) (hl : bs.length = 8)
    (hp : isPoisoned s (localPhys s.cur la) = true) (hp4 : isPoisoned s (localPhys s.cur la + 4) = true)
    (hq : ordinaryEntries s.cur (s.core s.cur).sysq < 21) (hh : (s.core s.cur).sysHeld = []) :
    let t := s.drainChunk (la, bs)
    t.mem = s.mem ∧ (t.core s.cur).sysq = (s.core s.cur).sysq ++
      [.notice 0x2D s.curCtx (.ofNat 64 (la - 4)) 0 [], .notice 0x2D s.curCtx (.ofNat 64 (la + 4)) 0 []] := by
  have hmod := localPhys_mod s.cur la
  have hw := writeUnits_lost_two hl (hmod.trans ha) (fun k hk => poisonUnit_localPhys_add s.cur la (Nat.lt_trans hk (by omega)))
    (anyPoison_of_isPoisoned (by omega) hp) hp hp4
  have hlo : la + (localPhys s.cur la - 4) - localPhys s.cur la = la - 4 := by omega
  have hhi : la + (localPhys s.cur la + 4) - localPhys s.cur la = la + 4 := by omega
  rw [drainChunk_of_writeUnits hw, List.foldl_cons, List.foldl_cons, List.foldl_nil, hlo, hhi]
  exact ⟨rfl, notice_notice_of_room (s := s.dropPoison _ _) 0x2D s.curCtx _ _ 0 hq hh⟩

/-! ### What a context of a state reads -/

/-- The state whose current context is the named one, as the events of a commit begin (R117, R130). -/
abbrev State.asCtx (s : State) (node k : Nat) : State := { s with cur := node, curCtx := k }

@[simp] theorem quad_setQuad_same (s : State) (n : Nat) (q : Quad) : (s.setQuad n q).quad n = q := agetD_aset_same _ _ _ _

/-- The later of two changes of a context stands. -/
theorem setCtx_setCtx (c : Core) (k : Nat) (x y : Ctx) : (c.setCtx k x).setCtx k y = c.setCtx k y := by
  have h : (c.ctxs.setIfInBounds k x).setIfInBounds k y = c.ctxs.setIfInBounds k y := by
    ext i hi
    simp only [Vector.getElem_setIfInBounds]
    split <;> rfl
  simp only [Core.setCtx, h]

theorem setCore_setCore (s : State) (n : Nat) (c d : Core) : (s.setCore n c).setCore n d = s.setCore n d := by
  simp only [State.setCore, aset_aset]

theorem setMe_setMe (s : State) (x y : Ctx) : (s.setMe x).setMe y = s.setMe y := by
  simp only [State.setMe, State.setCtx, State.setCore_cur, State.setCore_curCtx, core_setCore_same, setCtx_setCtx, setCore_setCore]

/-! ### Reservations of a commit (R117, R130) -/

/-- The state in which a versioned write has a name: its own, or the next one of its core. -/
def State.nameVst (s : State) (node : Nat) (m : MemEffect) : State :=
  if m.reservation.isNone then s.setCore node { s.core node with nextTag := (s.core node).nextTag + 1 } else s

@[simp] theorem nameVst_cur (s : State) (node : Nat) (m : MemEffect) : (s.nameVst node m).cur = s.cur := by unfold State.nameVst; split <;> rfl
@[simp] theorem nameVst_curCtx (s : State) (node : Nat) (m : MemEffect) : (s.nameVst node m).curCtx = s.curCtx := by unfold State.nameVst; split <;> rfl
@[simp] theorem nameVst_mem (s : State) (node : Nat) (m : MemEffect) : (s.nameVst node m).mem = s.mem := by unfold State.nameVst; split <;> rfl
@[simp] theorem nameVst_poison (s : State) (node : Nat) (m : MemEffect) : (s.nameVst node m).poison = s.poison := by unfold State.nameVst; split <;> rfl
@[simp] theorem nameVst_quad (s : State) (node : Nat) (m : MemEffect) (j : Nat) : (s.nameVst node m).quad j = s.quad j := by unfold State.nameVst; split <;> rfl
@[simp] theorem nameVst_agenda (s : State) (node : Nat) (m : MemEffect) : (s.nameVst node m).agenda = s.agenda := by unfold State.nameVst; split <;> rfl

@[simp] theorem nameVst_ctx (s : State) (node : Nat) (m : MemEffect) (k : Nat) : (s.nameVst node m).ctx node k = s.ctx node k := by
  unfold State.nameVst
  split
  · simp only [State.ctx, core_setCore_same]; rfl
  · rfl

/-- The name that a versioned write has or takes. -/
abbrev vstName (s : State) (node : Nat) (m : MemEffect) : Nat := m.reservation.getD (s.core node).nextTag

/-- What the reservations of a commit come to at its first versioned write that holds no slot and whose cell has no fault. -/
def State.reserveFirst (s : State) (m : MemEffect) (r : List Effect) : List Effect × State × Reserved :=
  let n := vstName s s.cur m
  let t := s.nameVst s.cur m
  let e : Effect := .mem { m with reservation := some n }
  (t.reserveCell (cellQuad m) m.pa s.cur s.curCtx n).elim
    (e :: r, t.waitCell (cellQuad m) m.pa s.cur s.curCtx n, .waits)
    (fun u => (e :: (u.reserveAll r).1, (u.reserveAll r).2))

/-- An effect that needs no slot, or holds one, is passed. -/
theorem reserveAll_cons_of_held {s : State} {e : Effect} (h : slotsHeld s s.cur s.curCtx [e]) (r : List Effect) :
    s.reserveAll (e :: r) = (e :: (s.reserveAll r).1, (s.reserveAll r).2) := by
  cases e with
  | mem m =>
    rw [State.reserveAll]
    split
    · rfl
    · next hs =>
      obtain ⟨n, hn, q, hq, rfl, hnode, hctx⟩ := h m (by simp) (by simpa [Option.isSome_iff_ne_none] using hs)
      have ha : (s.quad (cellQuad m)).reservations.any (fun x => x.tag == q.tag && x.node == s.cur && x.ctx == s.curCtx) = true :=
        List.any_eq_true.mpr ⟨q, hq, by simp [hnode, hctx]⟩
      simp only [hn, ha, if_true]
  | _ => rfl

/-- Effects that all hold their slots are passed. -/
theorem reserveAll_append_of_held {s : State} {l : List Effect} (h : slotsHeld s s.cur s.curCtx l) (r : List Effect) :
    s.reserveAll (l ++ r) = (l ++ (s.reserveAll r).1, (s.reserveAll r).2) := by
  induction l with
  | nil => rfl
  | cons e l ih =>
    have he : slotsHeld s s.cur s.curCtx [e] := fun m hm hs => h m (by simp_all) hs
    rw [List.cons_append, reserveAll_cons_of_held he, ih fun m hm hs => h m (by simp [hm]) hs]
    rfl

theorem reserveAll_of_held {s : State} {l : List Effect} (h : slotsHeld s s.cur s.curCtx l) : s.reserveAll l = (l, s, .all) := by
  have hl := reserveAll_append_of_held h []
  rwa [List.append_nil, State.reserveAll, List.append_nil] at hl

/-- A versioned write without a slot has a fault of its cell, or is the first to reserve. -/
theorem reserveAll_cons_of_unheld {s : State} {m : MemEffect} (hs : m.scope.isSome = true) (hn : ¬ slotHeld s s.cur s.curCtx m) (r : List Effect) :
    s.reserveAll (.mem m :: r) =
      (s.cellFault m.pa).elim (s.reserveFirst m r) (fun c => (.mem m :: r, s, .fails c m.addr)) := by
  have hscope : m.scope.isNone = false := by simpa [Option.isSome_iff_ne_none] using hs
  have hany : ∀ n, m.reservation = some n →
      (s.quad (cellQuad m)).reservations.any (fun x => x.tag == n && x.node == s.cur && x.ctx == s.curCtx) = false := by
    intro n hr
    refine Bool.eq_false_iff.mpr fun ha => hn ?_
    obtain ⟨q, hq, hx⟩ := List.any_eq_true.mp ha
    simp only [Bool.and_eq_true, beq_iff_eq] at hx
    exact ⟨n, hr, q, hq, hx.1.1, hx.1.2, hx.2⟩
  rw [State.reserveAll]
  simp only [hscope, Bool.false_eq_true, if_false]
  cases hr : m.reservation with
  | none =>
    simp only [Bool.false_eq_true, if_false]
    cases s.cellFault m.pa with
    | some c => rfl
    | none =>
      simp only [Option.elim_none, State.reserveFirst, vstName, State.nameVst, hr, Option.isNone_none, Option.getD_none, if_true, State.freshTag]
      cases State.reserveCell _ (cellQuad m) m.pa s.cur s.curCtx _ <;> rfl
  | some n =>
    simp only [hany n hr, Bool.false_eq_true, if_false]
    cases s.cellFault m.pa with
    | some c => rfl
    | none =>
      simp only [Option.elim_none, State.reserveFirst, vstName, State.nameVst, hr, Option.isNone_some, Bool.false_eq_true, Option.getD_some, if_false]
      cases State.reserveCell _ (cellQuad m) m.pa s.cur s.curCtx _ <;> rfl

/-- The cell has a fault exactly where it is poisoned or malformed, and poison is found first (R235). -/
theorem cellFault_of_sound {s : State} {pa : Nat} (h : anyPoison s pa 64 = false ∧ s.cellMalformed pa = false) : s.cellFault pa = none := by
  simp [State.cellFault, h.1, h.2]

theorem cellFault_of_unsound {s : State} {pa : Nat} (h : ¬ (anyPoison s pa 64 = false ∧ s.cellMalformed pa = false)) :
    s.cellFault pa = some (if anyPoison s pa 64 then 0x2A else 0x2C) := by
  simp only [State.cellFault]
  cases hp : anyPoison s pa 64
  · cases hm : s.cellMalformed pa
    · exact absurd ⟨hp, hm⟩ h
    · rfl
  · rfl

/-! The slot of a cell (R128, R130). -/

theorem slotFree_iff (s : State) (quad pa i : Nat) :
    slotFree s quad pa i ↔ i < 4 ∧ (s.cellFree pa i && !((s.quad quad).reservations.any (fun r => r.cell == pa && r.slot == i))) = true := by
  simp [slotFree]

/-- The slot that a reservation takes is free. -/
theorem slotFree_of_openSlot {s : State} {quad pa i : Nat} (h : s.openSlot quad pa = some i) : slotFree s quad pa i := by
  have hp := List.find?_some h
  exact (slotFree_iff s quad pa i).mpr ⟨List.mem_range.mp (List.mem_of_find?_eq_some h), hp⟩

theorem openSlot_eq_none_iff (s : State) (quad pa : Nat) : s.openSlot quad pa = none ↔ ∀ i, ¬ slotFree s quad pa i := by
  rw [State.openSlot, List.find?_eq_none]
  refine ⟨fun h i hi => ?_, fun h i hi hp => h i ((slotFree_iff s quad pa i).mpr ⟨List.mem_range.mp hi, hp⟩)⟩
  obtain ⟨hlt, hp⟩ := (slotFree_iff s quad pa i).mp hi
  exact h i (List.mem_range.mpr hlt) hp

/-- A name changes nothing that a cell's slots depend on. -/
theorem openSlot_nameVst (s : State) (node : Nat) (m : MemEffect) (quad pa : Nat) : (s.nameVst node m).openSlot quad pa = s.openSlot quad pa := by
  simp only [State.openSlot, State.cellFree, nameVst_mem, nameVst_quad]

/-- The state with a reservation held at a quad. -/
def State.addReservation (s : State) (quad : Nat) (r : Reservation) : State :=
  s.setQuad quad { s.quad quad with reservations := (s.quad quad).reservations ++ [r] }

/-- Where a slot is free, the store has room and no reservation waits, the slot is taken (R130). -/
theorem reserveCell_of_open {s : State} {quad pa i : Nat} (node k n : Nat) (h : s.openSlot quad pa = some i)
    (hroom : (s.quad quad).reservations.length < 16) (hw : (s.quad quad).waitingReservations = []) :
    s.reserveCell quad pa node k n = some (s.addReservation quad ⟨pa, i, node, k, n, false⟩) := by
  have hroom' : ¬ 16 ≤ (s.quad quad).reservations.length := by omega
  simp [State.reserveCell, h, hw, hroom', State.addReservation]

/-- Where no slot is free or the store is full, none is taken (R130). -/
theorem reserveCell_of_closed {s : State} {quad pa : Nat} (node k n : Nat)
    (h : s.openSlot quad pa = none ∨ 16 ≤ (s.quad quad).reservations.length) : s.reserveCell quad pa node k n = none := by
  rw [State.reserveCell]
  cases ho : s.openSlot quad pa with
  | none => rfl
  | some i =>
    have hfull := h.resolve_left (by simp [ho])
    simp [hfull]

/-! The retire buffer plays no part in how a reservation is made. -/

/-- The current context with another retire buffer. -/
def State.withRetire (s : State) (l : List Effect) : State := s.setMe { s.me with retire := l }

@[simp] theorem withRetire_cur (s : State) (l : List Effect) : (s.withRetire l).cur = s.cur := rfl
@[simp] theorem withRetire_curCtx (s : State) (l : List Effect) : (s.withRetire l).curCtx = s.curCtx := rfl

theorem me_withRetire {s : State} (l : List Effect) (h : s.curCtx < 11) : (s.withRetire l).me = { s.me with retire := l } := me_setMe _ _ h

/-- The last retire buffer stands, whatever else the change makes of the context. -/
theorem withRetire_retire (s : State) (l0 l : List Effect) : { (s.withRetire l0).me with retire := l } = { s.me with retire := l } := by
  by_cases h : s.curCtx < 11
  · rw [me_withRetire l0 h]
  · have hme : (s.withRetire l0).me = s.me := by
      simp [State.withRetire, State.me, State.setMe, State.setCtx, State.ctx, Core.ctx, Core.setCtx, h]
    rw [hme]

theorem setMe_withRetire (s : State) (l : List Effect) (x : Ctx) : (s.withRetire l).setMe x = s.setMe x := setMe_setMe _ _ _

theorem nameVst_withRetire (s : State) (l : List Effect) (m : MemEffect) : (s.withRetire l).nameVst s.cur m = (s.nameVst s.cur m).withRetire l := by
  unfold State.nameVst
  split
  · simp only [State.withRetire, State.setMe, State.setCtx, State.me, State.ctx, State.setCore_cur, State.setCore_curCtx, core_setCore_same,
      setCore_setCore]
    rfl
  · rfl

theorem reserveCell_withRetire (s : State) (l : List Effect) (quad pa node k n : Nat) :
    (s.withRetire l).reserveCell quad pa node k n = (s.reserveCell quad pa node k n).map (fun t => t.withRetire l) := by
  simp only [State.reserveCell]
  have ho : ∀ cell, (s.withRetire l).openSlot quad cell = s.openSlot quad cell := fun _ => rfl
  have hq : (s.withRetire l).quad quad = s.quad quad := rfl
  simp only [ho, hq]
  cases s.openSlot quad pa with
  | none => rfl
  | some i =>
    dsimp only
    split <;> rfl

theorem waitCell_withRetire (s : State) (l : List Effect) (quad pa node k n : Nat) :
    (s.withRetire l).waitCell quad pa node k n = (s.waitCell quad pa node k n).withRetire l := by
  have hq : (s.withRetire l).quad quad = s.quad quad := rfl
  simp only [State.waitCell, hq]
  split <;> rfl

theorem vst_of_not_slotsHeld {s : State} {node k : Nat} {e : Effect} (h : ¬ slotsHeld s node k [e]) :
    ∃ m, e = .mem m ∧ m.scope.isSome = true ∧ ¬ slotHeld s node k m := by
  simp only [slotsHeld, Classical.not_forall] at h
  obtain ⟨m, hm, hs, hn⟩ := h
  exact ⟨m, (List.mem_singleton.mp hm).symm, hs, hn⟩

/-- The reservations of a commit are the same whatever retire buffer stands in the context. -/
theorem reserveAll_withRetire (s : State) (l0 l : List Effect) :
    (s.withRetire l0).reserveAll l = ((s.reserveAll l).1, (s.reserveAll l).2.1.withRetire l0, (s.reserveAll l).2.2) := by
  induction l generalizing s with
  | nil => rfl
  | cons e r ih =>
    by_cases he : slotsHeld s s.cur s.curCtx [e]
    · rw [reserveAll_cons_of_held he, reserveAll_cons_of_held (s := s.withRetire l0) he, ih]
    · obtain ⟨m, rfl, hs, hn⟩ := vst_of_not_slotsHeld he
      rw [reserveAll_cons_of_unheld hs hn, reserveAll_cons_of_unheld (s := s.withRetire l0) hs hn]
      have hf : (s.withRetire l0).cellFault m.pa = s.cellFault m.pa := rfl
      rw [hf]
      cases s.cellFault m.pa with
      | some c => rfl
      | none =>
        have hv : vstName (s.withRetire l0) s.cur m = vstName s s.cur m := by
          simp [vstName, State.withRetire, State.setMe, State.setCtx, Core.setCtx]
        simp only [Option.elim_none, State.reserveFirst, withRetire_cur, withRetire_curCtx, hv, nameVst_withRetire, reserveCell_withRetire, waitCell_withRetire]
        cases (s.nameVst s.cur m).reserveCell (cellQuad m) m.pa s.cur s.curCtx (vstName s s.cur m) with
        | none => rfl
        | some u => simp only [Option.map_some, Option.elim_some, ih]

/-! ### What a reservation leaves of its commit (R117, R130, R235) -/

/-- The state after the reservations of a commit have gone as they went. -/
def reserveOutcome (node k : Nat) (c : Commit) : List Effect × State × Reserved → State
  | (l, t, .all) => (t.setMe { t.me with retire := l, commit := some { c with reserved := true } }).due (.invocationCommit node k)
  | (l, t, .waits) => t.withRetire l
  | (l, t, .fails cause addr) =>
    { t.withRetire l with free := t.free + 1 }.failCommit c.block cause addr (t.given 0 (if cause = 0x2A then some 0 else none))

theorem exec_vstReservation {s : State} {node k : Nat} {c : Commit} (hl : (s.ctx node k).status = .live) (hc : (s.ctx node k).commit = some c)
    (hr : c.reserved = false) :
    exec (.vstReservation node k) s = .next (reserveOutcome node k c ((s.asCtx node k).reserveAll (s.ctx node k).retire)) := by
  show execVstReservation node k s = _
  have hc' : (s.asCtx node k).me.commit = some c := hc
  have hl' : (s.asCtx node k).me.status = .live := hl
  simp only [execVstReservation, hc', hl', hr, ne_eq, not_true_eq_false, Bool.false_eq_true, or_self, if_false]
  have hx : (s.asCtx node k).me.retire = (s.ctx node k).retire := rfl
  rw [hx]
  generalize (s.asCtx node k).reserveAll (s.ctx node k).retire = r
  obtain ⟨l, t, z⟩ := r
  cases z <;> rfl

theorem reserveOutcome_withRetire (node k : Nat) (c : Commit) (l0 l : List Effect) (t : State) (z : Reserved) :
    reserveOutcome node k c (l, t.withRetire l0, z) = reserveOutcome node k c (l, t, z) := by
  have h : (t.withRetire l0).withRetire l = t.withRetire l := by
    rw [State.withRetire, withRetire_retire, setMe_withRetire]
    rfl
  cases z with
  | all =>
    have hx : { (t.withRetire l0).me with retire := l, commit := some { c with reserved := true } } =
        { t.me with retire := l, commit := some { c with reserved := true } } :=
      congrArg (fun x : Ctx => { x with commit := some { c with reserved := true } }) (withRetire_retire t l0 l)
    simp only [reserveOutcome, hx, setMe_withRetire]
  | waits => exact h
  | fails cause addr =>
    simp only [reserveOutcome, h]
    rfl

theorem quad_of_quads {s t : State} (h : t.quads = s.quads) (n : Nat) : t.quad n = s.quad n := by rw [State.quad, State.quad, h]

/-! ### Discards and parking (R178, R384) -/

@[simp] theorem discardBlock_commit (x : Ctx) : x.discardBlock.commit = x.commit := by unfold Ctx.discardBlock; split <;> rfl
@[simp] theorem discardBlock_retire (x : Ctx) : x.discardBlock.retire = x.retire := by unfold Ctx.discardBlock; split <;> rfl

theorem ctx_discardBlock_of_none {x : Ctx} (h : x.block = none) : x.discardBlock = x := by simp [Ctx.discardBlock, h]
theorem core_discardBlock_of_none {c : Core} {k : Nat} (h : (c.ctx k).block = none) : c.discardBlock k = c := by simp [Core.discardBlock, h]

theorem ctx_discardBlock (c : Core) {k : Nat} (hk : k < 11) : (c.discardBlock k).ctx k = (c.ctx k).discardBlock := by
  unfold Core.discardBlock
  split
  · next h => rw [ctx_discardBlock_of_none h]
  · exact ctx_setCtx_core _ _ hk

@[simp] theorem park_mem (s : State) (node k cause blk : Nat) (addr info : Word) : (s.park node k cause blk addr info).mem = s.mem := by
  unfold State.park; split <;> rfl
@[simp] theorem park_poison (s : State) (node k cause blk : Nat) (addr info : Word) : (s.park node k cause blk addr info).poison = s.poison := by
  unfold State.park; split <;> rfl
@[simp] theorem park_quads (s : State) (node k cause blk : Nat) (addr info : Word) : (s.park node k cause blk addr info).quads = s.quads := by
  unfold State.park; split <;> rfl
@[simp] theorem park_agenda (s : State) (node k cause blk : Nat) (addr info : Word) : (s.park node k cause blk addr info).agenda = s.agenda := by
  unfold State.park; split <;> rfl

/-- The context as a trap leaves it (R384). -/
def Ctx.parkedAt (x : Ctx) (cause ctx blk : Nat) (addr info : Word) : Ctx :=
  { x with status := .parked, pc := blk, miss := none, trap := ⟨trapCause cause ctx false, addr, wordOf blk, info⟩ }

/-- A core whose context parks: its block is discarded, the context parked, and at most the system queue changes besides. -/
theorem core_park (s : State) (node k cause blk : Nat) (addr info : Word) : ∃ q, (s.park node k cause blk addr info).core node =
    { ((s.core node).discardBlock k).setCtx k ((((s.core node).discardBlock k).ctx k).parkedAt cause k blk addr info) with sysq := q } := by
  unfold State.park
  split
  · exact ⟨_, core_setCore_same _ _ _⟩
  · exact ⟨_, core_setCore_same _ _ _⟩

theorem ctx_park (s : State) (node : Nat) {k : Nat} (cause blk : Nat) (addr info : Word) (hk : k < 11) :
    (s.park node k cause blk addr info).ctx node k = (s.ctx node k).discardBlock.parkedAt cause k blk addr info := by
  obtain ⟨q, h⟩ := core_park s node k cause blk addr info
  rw [State.ctx, h, State.ctx, ← ctx_discardBlock _ hk]
  exact ctx_setCtx_core _ _ hk

/-! ### A commit that faults (R108, R130, R235) -/

theorem aget_map {α β : Type} (f : α → β) (m : List (Nat × α)) (n : Nat) : aget (m.map (fun e => (e.1, f e.2))) n = (aget m n).map f := by
  induction m with
  | nil => rfl
  | cons e r ih =>
    obtain ⟨k, v⟩ := e
    simp only [List.map_cons, aget, ih]
    split <;> rfl

/-- A change of every quad that leaves an untouched one as it is reaches each of them. -/
theorem agetD_map (f : Quad → Quad) (h : f {} = {}) (m : List (Nat × Quad)) (n : Nat) : agetD (m.map (fun e => (e.1, f e.2))) n {} = f (agetD m n {}) := by
  rw [agetD, aget_map, agetD]
  cases aget m n with
  | none => exact h.symm
  | some q => rfl

theorem quad_giveBack (s : State) (node k j : Nat) : (s.giveBack node k).quad j = (s.quad j).giveBack node k :=
  agetD_map (fun q => q.giveBack node k) rfl _ _

/-- A faulting commit parks its context at the block, and stays open. -/
theorem failCommit_ctx {s : State} {c : Commit} (hc : s.me.commit = some c) (hr : c.reserved = false) (h : s.curCtx < 11) (blk cause : Nat)
    (addr info : Word) :
    (s.failCommit blk cause addr info).ctx s.cur s.curCtx = s.me.discardBlock.parkedAt cause s.curCtx blk addr info := by
  have hopen : ({ s.me with commit := s.me.commit.map (fun c => { c with reserved := false }) } : Ctx) = s.me := by
    have hsame : s.me.commit.map (fun c => { c with reserved := false }) = s.me.commit := by rw [hc, Option.map_some, ← hr]
    rw [hsame]
  rw [State.failCommit, ctx_park _ _ _ _ _ _ h]
  refine congrArg (fun x : Ctx => x.discardBlock.parkedAt cause s.curCtx blk addr info) ?_
  exact (me_setMe (s.giveBack s.cur s.curCtx) _ h).trans hopen

theorem failCommit_mem (s : State) (blk cause : Nat) (addr info : Word) : (s.failCommit blk cause addr info).mem = s.mem := park_mem _ _ _ _ _ _ _
theorem failCommit_poison (s : State) (blk cause : Nat) (addr info : Word) : (s.failCommit blk cause addr info).poison = s.poison := park_poison _ _ _ _ _ _ _
theorem failCommit_agenda (s : State) (blk cause : Nat) (addr info : Word) : (s.failCommit blk cause addr info).agenda = s.agenda := park_agenda _ _ _ _ _ _ _

theorem failCommit_quad (s : State) (blk cause : Nat) (addr info : Word) (j : Nat) :
    (s.failCommit blk cause addr info).quad j = (s.quad j).giveBack s.cur s.curCtx := by
  rw [← quad_giveBack, State.quad, State.failCommit, park_quads]
  rfl

/-! ### The reservation of a commit, case by case (R43, R117, R128, R130, R235) -/

/-- What the reservations of a commit leave once they are all made. -/
theorem reserveOutcome_all {t : State} {node k : Nat} (c : Commit) (l : List Effect) (hcur : t.cur = node) (hctx : t.curCtx = k) (hk : k < 11) :
    let v := reserveOutcome node k c (l, t, .all)
    (v.ctx node k).commit = some { c with reserved := true } ∧ (v.ctx node k).retire = l ∧
      v.agenda = t.agenda ++ [.invocationCommit node k] ∧ v.mem = t.mem ∧ v.poison = t.poison ∧ v.quads = t.quads := by
  subst hcur hctx
  have hme := me_setMe t { t.me with retire := l, commit := some { c with reserved := true } } hk
  exact ⟨congrArg Ctx.commit hme, congrArg Ctx.retire hme, rfl, rfl, rfl, rfl⟩

theorem quad_waitCell (s : State) (quad pa node k n : Nat) :
    ((s.waitCell quad pa node k n).quad quad).reservations = (s.quad quad).reservations ∧
    ((s.waitCell quad pa node k n).quad quad).waitingReservations =
      (if (s.quad quad).waitingReservations.any (fun r => r.node == node && r.ctx == k && r.tag == n) then (s.quad quad).waitingReservations
        else (s.quad quad).waitingReservations ++ [⟨pa, 0, node, k, n, false⟩]) := by
  simp only [State.waitCell]
  split
  · exact ⟨rfl, rfl⟩
  · rw [quad_setQuad_same]
    exact ⟨rfl, rfl⟩

section
variable (s : State) (quad pa node k n : Nat)
@[simp] theorem waitCell_cur : (s.waitCell quad pa node k n).cur = s.cur := by simp only [State.waitCell]; split <;> rfl
@[simp] theorem waitCell_curCtx : (s.waitCell quad pa node k n).curCtx = s.curCtx := by simp only [State.waitCell]; split <;> rfl
@[simp] theorem waitCell_mem : (s.waitCell quad pa node k n).mem = s.mem := by simp only [State.waitCell]; split <;> rfl
@[simp] theorem waitCell_agenda : (s.waitCell quad pa node k n).agenda = s.agenda := by simp only [State.waitCell]; split <;> rfl
@[simp] theorem waitCell_ctx (a b : Nat) : (s.waitCell quad pa node k n).ctx a b = s.ctx a b := by simp only [State.waitCell]; split <;> rfl
end

theorem ctx_withRetire {s : State} {node k : Nat} (l : List Effect) (hcur : s.cur = node) (hctx : s.curCtx = k) (hk : k < 11) :
    (s.withRetire l).ctx node k = { s.ctx node k with retire := l } := by
  subst hcur hctx
  exact me_withRetire l hk

/-- The state, with its current context named, in which a versioned write has its name and holds a slot of its cell (R130). -/
def State.reservedVst (s : State) (node k : Nat) (m : MemEffect) (i n : Nat) : State :=
  ((s.asCtx node k).nameVst node m).addReservation (cellQuad m) ⟨m.pa, i, node, k, n, false⟩

section
variable (s : State) (node k : Nat) (m : MemEffect) (i n : Nat)
@[simp] theorem reservedVst_cur : (s.reservedVst node k m i n).cur = node := nameVst_cur _ _ _
@[simp] theorem reservedVst_curCtx : (s.reservedVst node k m i n).curCtx = k := nameVst_curCtx _ _ _
@[simp] theorem reservedVst_mem : (s.reservedVst node k m i n).mem = s.mem := nameVst_mem _ _ _
@[simp] theorem reservedVst_poison : (s.reservedVst node k m i n).poison = s.poison := nameVst_poison _ _ _
@[simp] theorem reservedVst_agenda : (s.reservedVst node k m i n).agenda = s.agenda := nameVst_agenda _ _ _
@[simp] theorem reservedVst_ctx : (s.reservedVst node k m i n).ctx node k = s.ctx node k := nameVst_ctx _ _ _ _

@[simp] theorem reservedVst_me : (s.reservedVst node k m i n).me = s.ctx node k := by
  rw [State.me, reservedVst_cur, reservedVst_curCtx, reservedVst_ctx]

theorem reservedVst_reservations : ((s.reservedVst node k m i n).quad (cellQuad m)).reservations =
    (s.quad (cellQuad m)).reservations ++ [⟨m.pa, i, node, k, n, false⟩] := by
  rw [State.reservedVst, State.addReservation, quad_setQuad_same, nameVst_quad]
  rfl
end

/-- The state in which a versioned write holds a slot of its cell is that of its reservation, with the retire buffer that names it. -/
theorem withSlot_asCtx (s : State) (node k : Nat) (l1 : List Effect) (m : MemEffect) (l2 : List Effect) (i n : Nat) :
    (s.withSlot node k l1 m l2 i n).asCtx node k =
      (s.reservedVst node k m i n).withRetire (l1 ++ .mem { m with reservation := some n } :: l2) := by
  simp only [State.withSlot, State.reservedVst, State.addReservation, nameVst_quad]
  unfold State.nameVst
  split <;> rfl

/-- A reservation more is held by whoever held one, and by whom it is for. -/
theorem slotHeld_addReservation {s : State} {node k : Nat} {e : MemEffect} (quad : Nat) (r : Reservation) (h : slotHeld s node k e) :
    slotHeld (s.addReservation quad r) node k e := by
  obtain ⟨n, hn, q, hq, hx⟩ := h
  refine ⟨n, hn, q, ?_, hx⟩
  by_cases hj : quadOf (cellQuad e) = quadOf quad
  · have he : ∀ t : State, t.quad (cellQuad e) = t.quad quad := fun t => by rw [State.quad, hj, State.quad]
    rw [he] at hq ⊢
    rw [State.addReservation, quad_setQuad_same]
    exact List.mem_append_left _ hq
  · have he : (s.addReservation quad r).quad (cellQuad e) = s.quad (cellQuad e) := agetD_aset_ne _ _ _ hj
    rwa [he]

theorem slotHeld_of_reserved (s : State) (node k i n : Nat) (m : MemEffect) :
    slotHeld (s.addReservation (cellQuad m) ⟨m.pa, i, node, k, n, false⟩) node k { m with reservation := some n } := by
  refine ⟨n, rfl, ⟨m.pa, i, node, k, n, false⟩, ?_, rfl, rfl, rfl⟩
  have he : cellQuad { m with reservation := some n } = cellQuad m := rfl
  rw [he, State.addReservation, quad_setQuad_same]
  exact List.mem_append_right _ (List.mem_singleton.mpr rfl)

theorem slotHeld_nameVst {s : State} {node k : Nat} {e : MemEffect} (m : MemEffect) (h : slotHeld s node k e) : slotHeld (s.nameVst node m) node k e := by
  rwa [slotHeld, nameVst_quad]

/-- The effects up to a versioned write that has taken its slot all hold theirs. -/
theorem slotsHeld_upTo {s : State} {node k : Nat} {l1 : List Effect} (i n : Nat) (m : MemEffect) (h : slotsHeld s node k l1) :
    slotsHeld (s.reservedVst node k m i n) node k (l1 ++ [.mem { m with reservation := some n }]) := by
  intro e he hs
  rcases List.mem_append.mp he with he | he
  · exact slotHeld_addReservation _ _ (slotHeld_nameVst (s := s.asCtx node k) m (h e he hs))
  · obtain rfl : e = { m with reservation := some n } := by simpa using he
    exact slotHeld_of_reserved _ _ _ _ _ _

theorem reserveFirst_of_some {s t : State} {m : MemEffect} (r : List Effect)
    (h : (s.nameVst s.cur m).reserveCell (cellQuad m) m.pa s.cur s.curCtx (vstName s s.cur m) = some t) :
    s.reserveFirst m r = (.mem { m with reservation := some (vstName s s.cur m) } :: (t.reserveAll r).1, (t.reserveAll r).2) := by
  simp only [State.reserveFirst, h, Option.elim_some]

theorem reserveFirst_of_none {s : State} {m : MemEffect} (r : List Effect)
    (h : (s.nameVst s.cur m).reserveCell (cellQuad m) m.pa s.cur s.curCtx (vstName s s.cur m) = none) :
    s.reserveFirst m r = (.mem { m with reservation := some (vstName s s.cur m) } :: r,
      (s.nameVst s.cur m).waitCell (cellQuad m) m.pa s.cur s.curCtx (vstName s s.cur m), .waits) := by
  simp only [State.reserveFirst, h, Option.elim_none]

/-- The reservations behind effects that hold their slots, whatever retire buffer stands in the context. -/
theorem reserveAll_withRetire_behind {t : State} {l1 : List Effect} {e : Effect} (l0 : List Effect) (h : slotsHeld t t.cur t.curCtx (l1 ++ [e]))
    (l2 : List Effect) : (t.withRetire l0).reserveAll (l1 ++ e :: l2) =
      (l1 ++ e :: (t.reserveAll l2).1, (t.reserveAll l2).2.1.withRetire l0, (t.reserveAll l2).2.2) := by
  have hsplit : l1 ++ e :: l2 = (l1 ++ [e]) ++ l2 := by simp
  rw [hsplit, reserveAll_append_of_held (s := t.withRetire l0) h, reserveAll_withRetire, List.append_assoc]
  rfl

section
variable {s : State} {node k : Nat} {c : Commit} (hl : (s.ctx node k).status = .live) (hc : (s.ctx node k).commit = some c)
  (hr : c.reserved = false)
include hl hc hr

/-- A commit whose versioned writes all hold a slot goes on to its turn. -/
theorem exec_vstReservation_held (hk : k < 11) (h : slotsHeld s node k (s.ctx node k).retire) : ∃ v, exec (.vstReservation node k) s = .next v ∧
    (v.ctx node k).commit = some { c with reserved := true } ∧ (v.ctx node k).retire = (s.ctx node k).retire ∧
    v.agenda = s.agenda ++ [.invocationCommit node k] ∧ v.mem = s.mem ∧ v.quads = s.quads := by
  rw [exec_vstReservation hl hc hr, reserveAll_of_held (s := s.asCtx node k) h]
  obtain ⟨h1, h2, h3, h4, -, h6⟩ := reserveOutcome_all (t := s.asCtx node k) c (s.ctx node k).retire rfl rfl hk
  exact ⟨_, rfl, h1, h2, h3, h4, h6⟩

/-- Once a versioned write holds its slot, the turn to reserve goes on behind it. -/
theorem exec_withSlot (hk : k < 11) {l1 : List Effect} (h1 : slotsHeld s node k l1) (m : MemEffect) (l2 : List Effect) (i n : Nat) :
    let r := (s.reservedVst node k m i n).reserveAll l2
    exec (.vstReservation node k) (s.withSlot node k l1 m l2 i n) =
      .next (reserveOutcome node k c (l1 ++ .mem { m with reservation := some n } :: r.1, r.2)) := by
  intro r
  have hw := withSlot_asCtx s node k l1 m l2 i n
  have hx : (s.withSlot node k l1 m l2 i n).ctx node k = { s.ctx node k with retire := l1 ++ .mem { m with reservation := some n } :: l2 } := by
    have hme := me_withRetire (s := s.reservedVst node k m i n) (l1 ++ .mem { m with reservation := some n } :: l2) (by simpa using hk)
    rw [← hw, reservedVst_me] at hme
    exact hme
  have hheld : slotsHeld (s.reservedVst node k m i n) (s.reservedVst node k m i n).cur (s.reservedVst node k m i n).curCtx
      (l1 ++ [.mem { m with reservation := some n }]) := by
    rw [reservedVst_cur, reservedVst_curCtx]
    exact slotsHeld_upTo i n m h1
  rw [exec_vstReservation (c := c) (by rw [hx]; exact hl) (by rw [hx]; exact hc) hr, hx, hw]
  simp only
  rw [reserveAll_withRetire_behind _ hheld, reserveOutcome_withRetire]

section
variable {l1 l2 : List Effect} {m : MemEffect} (hx : (s.ctx node k).retire = l1 ++ .mem m :: l2) (h1 : slotsHeld s node k l1)
  (hs : m.scope.isSome = true) (hn : ¬ slotHeld s node k m)
include hx h1 hs hn

/-- The turn to reserve, at the first versioned write without a slot. -/
theorem exec_vstReservation_first : exec (.vstReservation node k) s = .next (reserveOutcome node k c
    (let r := ((s.cellFault m.pa).elim ((s.asCtx node k).reserveFirst m l2) (fun f => (.mem m :: l2, s.asCtx node k, .fails f m.addr)))
     (l1 ++ r.1, r.2))) := by
  rw [exec_vstReservation hl hc hr, hx, reserveAll_append_of_held (s := s.asCtx node k) h1, reserveAll_cons_of_unheld (s := s.asCtx node k) hs hn]
  rfl

/-- The slot of a sound cell is taken, and the reservations go on behind it. -/
theorem exec_vstReservation_takes (hk : k < 11) (hsound : anyPoison s m.pa 64 = false ∧ s.cellMalformed m.pa = false)
    (hfree : ∃ i, slotFree s (cellQuad m) m.pa i) (hroom : (s.quad (cellQuad m)).reservations.length < 16)
    (hw : (s.quad (cellQuad m)).waitingReservations = []) :
    let n := vstName s node m
    ∃ i, slotFree s (cellQuad m) m.pa i ∧
      exec (.vstReservation node k) s = exec (.vstReservation node k) (s.withSlot node k l1 m l2 i n) ∧
      ((∀ e, Effect.mem e ∈ l2 → e.scope = none) → ∃ v, exec (.vstReservation node k) s = .next v ∧
        (v.ctx node k).commit = some { c with reserved := true } ∧ (v.ctx node k).retire = l1 ++ .mem { m with reservation := some n } :: l2 ∧
        (v.quad (cellQuad m)).reservations = (s.quad (cellQuad m)).reservations ++ [⟨m.pa, i, node, k, n, false⟩] ∧
        v.agenda = s.agenda ++ [.invocationCommit node k] ∧ v.mem = s.mem ∧ v.poison = s.poison) := by
  intro n
  obtain ⟨i, hi⟩ : ∃ i, s.openSlot (cellQuad m) m.pa = some i := by
    refine Option.ne_none_iff_exists'.mp fun hnone => ?_
    obtain ⟨i, hi⟩ := hfree
    exact (openSlot_eq_none_iff _ _ _).mp hnone i hi
  refine ⟨i, slotFree_of_openSlot hi, ?_⟩
  have hcell : ((s.asCtx node k).nameVst node m).reserveCell (cellQuad m) m.pa node k n = some (s.reservedVst node k m i n) :=
    reserveCell_of_open node k n ((openSlot_nameVst _ _ _ _ _).trans hi) (by rwa [nameVst_quad]) (by rwa [nameVst_quad])
  have hrun := exec_vstReservation_first hl hc hr hx h1 hs hn
  rw [cellFault_of_sound hsound, Option.elim_none, reserveFirst_of_some (s := s.asCtx node k) l2 hcell] at hrun
  refine ⟨?_, fun hplain => ?_⟩
  · exact hrun.trans (exec_withSlot hl hc hr hk h1 m l2 i n).symm
  · have hrest : slotsHeld (s.reservedVst node k m i n) node k l2 := fun e he hsc => by simp [hplain e he] at hsc
    have hall : (s.reservedVst node k m i n).reserveAll l2 = (l2, s.reservedVst node k m i n, .all) :=
      reserveAll_of_held (by rwa [reservedVst_cur, reservedVst_curCtx])
    rw [hall] at hrun
    obtain ⟨hcommit, hretire, hagenda, hmem, hpoison, hquads⟩ := reserveOutcome_all (node := node) (k := k) (t := s.reservedVst node k m i n) c
      (l1 ++ .mem { m with reservation := some n } :: l2) (by simp) (by simp) hk
    refine ⟨_, hrun, hcommit, hretire, ?_, ?_, ?_, ?_⟩
    · exact (congrArg Quad.reservations (quad_of_quads hquads _)).trans (reservedVst_reservations _ _ _ _ _ _)
    · exact hagenda.trans (congrArg (fun l => l ++ [_]) (reservedVst_agenda _ _ _ _ _ _))
    · exact hmem.trans (reservedVst_mem _ _ _ _ _ _)
    · exact hpoison.trans (reservedVst_poison _ _ _ _ _ _)

/-- Where no slot is free or the store is full, the reservation waits, and the commit with it. -/
theorem exec_vstReservation_waits (hk : k < 11) (hsound : anyPoison s m.pa 64 = false ∧ s.cellMalformed m.pa = false)
    (hfull : (∀ i, ¬ slotFree s (cellQuad m) m.pa i) ∨ 16 ≤ (s.quad (cellQuad m)).reservations.length) :
    let q := s.quad (cellQuad m)
    let n := vstName s node m
    ∃ v, exec (.vstReservation node k) s = .next v ∧ (v.ctx node k).commit = some c ∧
      (v.ctx node k).retire = l1 ++ .mem { m with reservation := some n } :: l2 ∧ (v.quad (cellQuad m)).reservations = q.reservations ∧
      (v.quad (cellQuad m)).waitingReservations =
        (if q.waitingReservations.any (fun r => r.node == node && r.ctx == k && r.tag == n) then q.waitingReservations
          else q.waitingReservations ++ [⟨m.pa, 0, node, k, n, false⟩]) ∧ v.agenda = s.agenda ∧ v.mem = s.mem := by
  intro q n
  have hcell : ((s.asCtx node k).nameVst node m).reserveCell (cellQuad m) m.pa node k n = none :=
    reserveCell_of_closed node k n (by rwa [openSlot_nameVst, openSlot_eq_none_iff, nameVst_quad])
  have hrun := exec_vstReservation_first hl hc hr hx h1 hs hn
  rw [cellFault_of_sound hsound, Option.elim_none, reserveFirst_of_none (s := s.asCtx node k) l2 hcell] at hrun
  obtain ⟨hres, hwait⟩ := quad_waitCell ((s.asCtx node k).nameVst node m) (cellQuad m) m.pa node k n
  rw [nameVst_quad] at hres hwait
  have hctx := ctx_withRetire (node := node) (k := k) (s := ((s.asCtx node k).nameVst node m).waitCell (cellQuad m) m.pa node k n)
    (l1 ++ .mem { m with reservation := some n } :: l2) (by simp) (by simp) hk
  rw [waitCell_ctx, nameVst_ctx] at hctx
  refine ⟨_, hrun, (congrArg Ctx.commit hctx).trans hc, congrArg Ctx.retire hctx, hres, hwait, ?_, ?_⟩
  · exact (waitCell_agenda _ _ _ _ _ _).trans (nameVst_agenda _ _ _)
  · exact (waitCell_mem _ _ _ _ _ _).trans (nameVst_mem _ _ _)

/-- A malformed or poisoned cell parks the context at the block of its commit, whose reservations are given back. -/
theorem exec_vstReservation_fails (hk : k < 11) (h : ¬ (anyPoison s m.pa 64 = false ∧ s.cellMalformed m.pa = false)) :
    ∃ v, exec (.vstReservation node k) s = .next v ∧ (v.ctx node k).status = .parked ∧ (v.ctx node k).pc = c.block ∧
      (v.ctx node k).trap.cause = .ofNat 64 ((if anyPoison s m.pa 64 then 0x2A else 0x2C) + k % 16 * 256) ∧
      (v.ctx node k).trap.addr = m.addr ∧ (v.ctx node k).trap.blk = .ofNat 64 c.block ∧
      (v.ctx node k).commit = some c ∧ (v.ctx node k).retire = (s.ctx node k).retire ∧
      (∀ j, (v.quad j).reservations = (s.quad j).reservations.filter (fun r => !(r.node == node && r.ctx == k && !r.taken))) ∧
      v.agenda = s.agenda ∧ v.mem = s.mem ∧ v.poison = s.poison := by
  have hrun := exec_vstReservation_first hl hc hr hx h1 hs hn
  rw [cellFault_of_unsound h, Option.elim_some] at hrun
  simp only [← hx] at hrun
  generalize hf : (if anyPoison s m.pa 64 then 0x2A else 0x2C) = f at hrun ⊢
  have hsmall : f % 256 = f := by rw [← hf]; split <;> rfl
  have hme : ((s.asCtx node k).withRetire (s.ctx node k).retire).me = s.ctx node k := me_withRetire (s := s.asCtx node k) _ hk
  have hv := failCommit_ctx (s := { (s.asCtx node k).withRetire (s.ctx node k).retire with free := s.free + 1 })
    ((congrArg Ctx.commit hme).trans hc) hr hk c.block f m.addr
    (s.given 0 (if f = 0x2A then some 0 else none))
  have hctx := hv.trans (congrArg (fun x : Ctx => x.discardBlock.parkedAt f k c.block m.addr (s.given 0 (if f = 0x2A then some 0 else none))) hme)
  refine ⟨_, hrun, congrArg Ctx.status hctx, congrArg Ctx.pc hctx, ?_, congrArg (fun x : Ctx => x.trap.addr) hctx,
    congrArg (fun x : Ctx => x.trap.blk) hctx, ?_, ?_, ?_, ?_, ?_, ?_⟩
  · refine (congrArg (fun x : Ctx => x.trap.cause) hctx).trans ?_
    simp [Ctx.parkedAt, trapCause, hsmall, wordOf, bitNat]
  · exact (congrArg Ctx.commit hctx).trans ((discardBlock_commit _).trans hc)
  · exact (congrArg Ctx.retire hctx).trans (discardBlock_retire _)
  · exact fun j => congrArg Quad.reservations (failCommit_quad _ _ _ _ _ j)
  · exact failCommit_agenda _ _ _ _ _
  · exact failCommit_mem _ _ _ _ _
  · exact failCommit_poison _ _ _ _ _

end

end

/-! ### What the operations of a commit's turn leave alone (R117) -/

/-- What no store, notice or trace record of a core changes: its departure queue, its count of messages, its keys and its arming. -/
structure CoreKept (c d : Core) : Prop where
  departure : d.departure = c.departure
  sent : d.sent = c.sent
  keys : d.keys = c.keys
  hinge : d.hinge = c.hinge

theorem CoreKept.refl (c : Core) : CoreKept c c := ⟨rfl, rfl, rfl, rfl⟩

theorem CoreKept.trans {a b c : Core} (h : CoreKept a b) (g : CoreKept b c) : CoreKept a c :=
  ⟨g.departure.trans h.departure, g.sent.trans h.sent, g.keys.trans h.keys, g.hinge.trans h.hinge⟩

/-- A step inside a turn of a core: the same context is current, no quad changes, and the core keeps what CoreKept lists. -/
structure TurnKept (node : Nat) (s t : State) : Prop where
  cur : t.cur = s.cur
  curCtx : t.curCtx = s.curCtx
  quads : t.quads = s.quads
  core : CoreKept (s.core node) (t.core node)

theorem TurnKept.refl (node : Nat) (s : State) : TurnKept node s s := ⟨rfl, rfl, rfl, .refl _⟩

theorem TurnKept.trans {node : Nat} {s t u : State} (h : TurnKept node s t) (g : TurnKept node t u) : TurnKept node s u :=
  ⟨g.cur.trans h.cur, g.curCtx.trans h.curCtx, g.quads.trans h.quads, h.core.trans g.core⟩

/-- A change of one core that keeps what CoreKept lists. -/
theorem turnKept_setCore {s : State} {node : Nat} {d : Core} (h : CoreKept (s.core node) d) : TurnKept node s (s.setCore node d) :=
  ⟨rfl, rfl, rfl, by rwa [core_setCore_same]⟩

theorem turnKept_setCtx (s : State) (node k : Nat) (x : Ctx) : TurnKept node s (s.setCtx node k x) := turnKept_setCore ⟨rfl, rfl, rfl, rfl⟩

theorem turnKept_notice (s : State) (node cause k : Nat) (addr info : Word) : TurnKept node s (s.notice node cause k addr info) := by
  refine turnKept_setCore ?_
  split <;> exact ⟨rfl, rfl, rfl, rfl⟩

/-! The drain. -/

/-- What the drain of a commit keeps: of its context all but the registers. -/
structure DrainKept (s t : State) : Prop extends TurnKept s.cur s t where
  me : t.me = { s.me with regs := t.me.regs }

theorem DrainKept.refl (s : State) : DrainKept s s := ⟨.refl _ _, rfl⟩

theorem DrainKept.trans {s t u : State} (h : DrainKept s t) (g : DrainKept t u) : DrainKept s u := by
  refine ⟨h.toTurnKept.trans (h.cur ▸ g.toTurnKept), ?_⟩
  have hu := g.me
  rw [h.me] at hu
  exact hu

theorem drainKept_notice (s : State) (cause k : Nat) (addr info : Word) : DrainKept s (s.notice s.cur cause k addr info) := by
  refine ⟨turnKept_notice _ _ _ _ _ _, ?_⟩
  have hme : (s.notice s.cur cause k addr info).me = s.me := notice_ctx _ _ _ _ _ _ _
  rw [hme]

/-- A unit's write changes memory and poison alone. -/
theorem drainKept_writeUnits (s : State) (pa : Nat) (bs : List Byte) : DrainKept s (writeUnits s pa bs).1 := by
  unfold writeUnits
  split <;> exact ⟨⟨rfl, rfl, rfl, .refl _⟩, rfl⟩

theorem drainKept_setRegs {s : State} (h : s.curCtx < 11) (r : Regs) : DrainKept s (s.setRegs r) :=
  ⟨turnKept_setCtx _ _ _ _, by rw [State.setRegs, me_setMe _ _ h]⟩

theorem drainKept_notices (s : State) (addr : Nat → Word) (l : List Nat) :
    DrainKept s (l.foldl (fun (u : State) a => u.notice s.cur 0x2D s.curCtx (addr a) 0) s) := by
  suffices h : ∀ u : State, DrainKept s u → DrainKept s (l.foldl (fun (u : State) a => u.notice s.cur 0x2D s.curCtx (addr a) 0) u) from h s (.refl s)
  induction l with
  | nil => exact fun u hu => hu
  | cons a l ih => exact fun u hu => ih _ (hu.trans (hu.cur ▸ drainKept_notice u _ _ _ _))

theorem foldl_notice_mem (l : List Nat) (node cause k : Nat) (addr : Nat → Word) (s : State) :
    (l.foldl (fun (u : State) a => u.notice node cause k (addr a) 0) s).mem = s.mem := by
  induction l generalizing s with
  | nil => rfl
  | cons a l ih => exact (ih _).trans (notice_mem _ _ _ _ _ _)

theorem drainKept_drainChunk (s : State) (c : Nat × List Byte) : DrainKept s (s.drainChunk c) := by
  have hw := drainKept_writeUnits s (localPhys s.cur c.1) c.2
  have hn := drainKept_notices (writeUnits s (localPhys s.cur c.1) c.2).1 (fun a => wordOf (c.1 + a - localPhys s.cur c.1))
    (writeUnits s (localPhys s.cur c.1) c.2).2
  rw [hw.cur, hw.curCtx] at hn
  exact hw.trans hn

theorem read_drainChunk_outside (s : State) (c : Nat × List Byte) {a : Nat} (h : a < localPhys s.cur c.1 ∨ localPhys s.cur c.1 + c.2.length ≤ a) :
    Memory.read (s.drainChunk c).mem a = Memory.read s.mem a := by
  rw [drainChunk_of_writeUnits (s := s) (la := c.1) (bs := c.2) (t := (writeUnits s (localPhys s.cur c.1) c.2).1)
    (lost := (writeUnits s (localPhys s.cur c.1) c.2).2) rfl, foldl_notice_mem]
  exact read_writeUnits_outside s c.2 h

/-- An atomic operation writes its own run of memory alone. -/
theorem atomicAt_some {s t : State} {pa kind z b x old : Nat} (h : s.atomicAt pa kind z b x = some (old, t)) :
    ∃ bs : List Byte, bs.length = 2 ^ z ∧ t = { s with mem := Memory.writeN s.mem pa bs } := by
  simp only [State.atomicAt] at h
  split at h
  · cases h
  · cases h
    exact ⟨_, bytesOfNat_length _ _, rfl⟩

theorem drainAmo_keeps {s : State} (hk : s.curCtx < 11) (done : Bool) (la kind z : Nat) (b x : Word) (d : Nat) :
    DrainKept s (s.drainAmo done la kind z b x d) ∧
    ∀ a, (a < localPhys s.cur la ∨ localPhys s.cur la + 2 ^ z ≤ a) → Memory.read (s.drainAmo done la kind z b x d).mem a = Memory.read s.mem a := by
  rw [State.drainAmo]
  cases h : s.atomicAt (localPhys s.cur la) kind z b.toNat x.toNat with
  | some r =>
    obtain ⟨old, t⟩ := r
    obtain ⟨bs, hl, rfl⟩ := atomicAt_some h
    have ht : DrainKept s { s with mem := Memory.writeN s.mem (localPhys s.cur la) bs } := ⟨⟨rfl, rfl, rfl, .refl _⟩, rfl⟩
    refine ⟨?_, fun a ha => ?_⟩
    · cases done
      · exact ht.trans (drainKept_setRegs (by exact hk) _)
      · exact ht
    · have hr := Memory.read_writeN_outside s.mem bs (hl ▸ ha)
      cases done <;> exact hr
  | none =>
    cases done
    · exact ⟨(drainKept_setRegs hk _).trans (drainKept_notice _ _ _ _ _), fun _ _ => rfl⟩
    · exact ⟨drainKept_notice _ _ _ _ _, fun _ _ => rfl⟩

/-- What every store and AMO of a commit keeps, their drain keeps. -/
theorem drainStores_induction {P : State → Prop} {done : Bool} {l : List Effect}
    (hstore : ∀ cs n, Effect.store cs n ∈ l → ∀ c ∈ cs, ∀ u, P u → P (u.drainChunk c))
    (hamo : ∀ la kind z b x d, Effect.amo la kind z b x d ∈ l → ∀ u, P u → P (u.drainAmo done la kind z b x d)) {s : State} (h : P s) :
    P (s.drainStores done l) := by
  induction l generalizing s with
  | nil => exact h
  | cons e r ih =>
    have hrest : ∀ u, P u → P (u.drainStores done r) := fun u hu =>
      ih (fun cs n hm => hstore cs n (List.mem_cons_of_mem _ hm)) (fun la kind z b x d hm => hamo la kind z b x d (List.mem_cons_of_mem _ hm)) hu
    cases e with
    | store cs n =>
      refine hrest _ ?_
      have hc := hstore cs n (List.mem_cons_self ..)
      exact List.foldlRecOn cs State.drainChunk h fun u hu c hm => hc c hm u hu
    | amo la kind z b x d => exact hrest _ (hamo la kind z b x d (List.mem_cons_self ..) s h)
    | _ => exact hrest s h

/-- The drain of a commit keeps all but registers and poison, and writes memory inside the runs of its stores and AMOs alone. -/
theorem drainStores_keeps {s : State} (hk : s.curCtx < 11) (done : Bool) (l : List Effect) :
    DrainKept s (s.drainStores done l) ∧
    ∀ a, (∀ r ∈ storedRuns s.cur l, a < r.1 ∨ r.1 + r.2 ≤ a) → Memory.read (s.drainStores done l).mem a = Memory.read s.mem a := by
  refine drainStores_induction (P := fun t => DrainKept s t ∧
    ∀ a, (∀ r ∈ storedRuns s.cur l, a < r.1 ∨ r.1 + r.2 ≤ a) → Memory.read t.mem a = Memory.read s.mem a) ?_ ?_ ⟨.refl s, fun _ _ => rfl⟩
  · intro cs n hm c hc u ⟨hu, hr⟩
    refine ⟨hu.trans (drainKept_drainChunk u c), fun a ha => ?_⟩
    have hrun := ha (localPhys s.cur c.1, c.2.length) (List.mem_flatMap.mpr ⟨_, hm, List.mem_map.mpr ⟨c, hc, rfl⟩⟩)
    rw [read_drainChunk_outside u c (by rwa [hu.cur]), hr a ha]
  · intro la kind z b x d hm u ⟨hu, hr⟩
    obtain ⟨hkept, hread⟩ := drainAmo_keeps (s := u) (by rwa [hu.curCtx]) done la kind z b x d
    refine ⟨hu.trans hkept, fun a ha => ?_⟩
    have hrun := ha (localPhys s.cur la, 2 ^ z) (List.mem_flatMap.mpr ⟨_, hm, List.mem_singleton.mpr rfl⟩)
    rw [hread a (by rwa [hu.cur]), hr a ha]

/-! Trace records (R450 to R452). -/

theorem emit_dbg (c : Core) (r lost : List Word) : ∃ d, c.emit r lost = { c with dbg := d } := by
  simp only [Core.emit]
  generalize (if c.dbg.traceLost ≠ 0 then [lost, r] else [r]) = add
  split <;> exact ⟨_, rfl⟩

theorem coreKept_emit (c : Core) (r lost : List Word) : CoreKept c (c.emit r lost) := by
  obtain ⟨d, h⟩ := emit_dbg c r lost
  exact h ▸ ⟨rfl, rfl, rfl, rfl⟩

theorem emit_ctxs (c : Core) (r lost : List Word) : (c.emit r lost).ctxs = c.ctxs := by
  obtain ⟨d, h⟩ := emit_dbg c r lost
  rw [h]

/-- A trace record changes nothing but its core's trace buffer. -/
theorem traceIf_keeps (s : State) (b : Bool) (node ctx kind a blk v : Nat) (ext : List Word) (k : Nat) :
    TurnKept node s (s.traceIf b node ctx kind a blk v ext) ∧ (s.traceIf b node ctx kind a blk v ext).mem = s.mem ∧
      (s.traceIf b node ctx kind a blk v ext).ctx node k = s.ctx node k := by
  unfold State.traceIf
  split
  · refine ⟨turnKept_setCore (coreKept_emit _ _ _), rfl, ?_⟩
    simp only [State.emitTrace, State.ctx, core_setCore_same, Core.ctx, emit_ctxs]
  · exact ⟨.refl _ _, rfl, rfl⟩

theorem traceMessages_keeps (s : State) (ctl : Word) (blk : Nat) (l : List Effect) :
    TurnKept s.cur s (s.traceMessages ctl blk l) ∧ (s.traceMessages ctl blk l).mem = s.mem ∧ (s.traceMessages ctl blk l).me = s.me := by
  refine List.foldlRecOn l _ (motive := fun t : State => TurnKept s.cur s t ∧ t.mem = s.mem ∧ t.me = s.me) ⟨.refl _ _, rfl, rfl⟩ ?_
  intro t ⟨ht, hm, hme⟩ e _
  have hstep (m : Packet) : TurnKept s.cur s (t.traceMessage ctl blk m) ∧ (t.traceMessage ctl blk m).mem = s.mem ∧ (t.traceMessage ctl blk m).me = s.me := by
    obtain ⟨h1, h2, h3⟩ := traceIf_keeps t (kindOf m == 0 && flagOf ctl 0 && flagOf ctl 5) t.cur t.curCtx 4 0 blk 0
      [m.w0, m.w1, wordOf (digest t.myCore.wkdesc { inputs := [m], head := hidxOf m, tag := wkTag t.myCore.wkdesc m.w1, run := lengthOf m }), 0] t.curCtx
    have hcur : (t.traceMessage ctl blk m).cur = t.cur := h1.cur
    have hctx : (t.traceMessage ctl blk m).curCtx = t.curCtx := h1.curCtx
    refine ⟨ht.trans (ht.cur ▸ h1), h2.trans hm, ?_⟩
    rw [State.me, hcur, hctx]
    exact h3.trans hme
  cases e with
  | msg m => exact hstep m
  | bolt m => exact hstep m
  | _ => exact ⟨ht, hm, hme⟩

/-! Keys (R251). -/

theorem key_setKey_same (c : Core) {n : Nat} (x : Key) (h : n < 64) : (c.setKey n x).key n = x := by simp [Core.key, Core.setKey, h]
theorem key_setKey_ne (c : Core) {n j : Nat} (x : Key) (h : n ≠ j) : (c.setKey j x).key n = c.key n := by simp [Core.key, Core.setKey, Ne.symm h]

/-- One of the keys that a commit owns. -/
theorem ownKeys_cons (c : Core) (j : Nat) (l : List Nat) :
    c.ownKeys (j :: l) = (if (c.key j).alloc = .held then c.setKey j { c.key j with alloc := .owned } else c).ownKeys l := rfl

theorem ownKeys_of_owned {c : Core} {n : Nat} (l : List Nat) (hn : n < 64) (h : (c.key n).alloc = .owned) : ((c.ownKeys l).key n).alloc = .owned := by
  induction l generalizing c with
  | nil => exact h
  | cons j l ih =>
    rw [ownKeys_cons]
    refine ih ?_
    split
    · by_cases hj : n = j
      · subst hj; rw [key_setKey_same _ _ hn]
      · rwa [key_setKey_ne _ _ hj]
    · exact h

/-- A Held key of the list becomes Owned. -/
theorem ownKeys_of_held {c : Core} {n : Nat} {l : List Nat} (hm : n ∈ l) (hn : n < 64) (h : (c.key n).alloc = .held) :
    ((c.ownKeys l).key n).alloc = .owned := by
  induction l generalizing c with
  | nil => cases hm
  | cons j l ih =>
    rw [ownKeys_cons]
    by_cases hj : n = j
    · subst hj
      rw [if_pos h]
      exact ownKeys_of_owned l hn (by rw [key_setKey_same _ _ hn])
    · refine ih ((List.mem_cons.mp hm).resolve_left hj) ?_
      split
      · rwa [key_setKey_ne _ _ hj]
      · exact h

/-- Owning keys changes keys alone. -/
theorem ownKeys_keeps (c : Core) (l : List Nat) : ∃ ks, c.ownKeys l = { c with keys := ks } := by
  induction l generalizing c with
  | nil => exact ⟨c.keys, rfl⟩
  | cons j l ih =>
    rw [ownKeys_cons]
    split
    · exact ih (c.setKey j _)
    · exact ih c

/-! What follows a commit (R117, R204, R205, R207, R286). -/

/-- A context without a hasp ends it with no release. -/
theorem endHasp_keeps {s : State} {node k : Nat} (hk : k < 11) (h : (s.ctx node k).hasp = .none) :
    TurnKept node s (s.endHasp node k) ∧ (s.endHasp node k).mem = s.mem ∧
      (s.endHasp node k).ctx node k = { s.ctx node k with hasp := .none, haspCnt := 0, report := none } := by
  have hno : ¬ ((s.ctx node k).hasp = .requested ∨ (s.ctx node k).hasp = .held) := by simp [h]
  rw [State.endHasp]
  simp only [if_neg hno]
  have hx : (s.setCore node (s.core node)).ctx node k = s.ctx node k := by rw [State.ctx, core_setCore_same, State.ctx]
  rw [hx]
  have hkept : TurnKept node s ((s.setCore node (s.core node)).setCtx node k { s.ctx node k with hasp := .none, haspCnt := 0, report := none }) :=
    (turnKept_setCore (.refl _)).trans (turnKept_setCtx _ _ _ _)
  have hctx := ctx_setCtx_same (s.setCore node (s.core node)) node { s.ctx node k with hasp := .none, haspCnt := 0, report := none } hk
  cases (s.ctx node k).report with
  | none => exact ⟨hkept, rfl, hctx⟩
  | some r => exact ⟨hkept.trans (turnKept_notice _ _ _ _ _ _), rfl, (notice_ctx _ _ _ _ _ _ _).trans hctx⟩

theorem park_cur (s : State) (node k cause blk : Nat) (addr info : Word) : (s.park node k cause blk addr info).cur = s.cur := by
  unfold State.park; split <;> rfl
theorem park_curCtx (s : State) (node k cause blk : Nat) (addr info : Word) : (s.park node k cause blk addr info).curCtx = s.curCtx := by
  unfold State.park; split <;> rfl

/-- A context parks without a block to discard. -/
theorem turnKept_park {s : State} {node k : Nat} (cause blk : Nat) (addr info : Word) (h : (s.ctx node k).block = none) :
    TurnKept node s (s.park node k cause blk addr info) := by
  obtain ⟨q, hq⟩ := core_park s node k cause blk addr info
  rw [core_discardBlock_of_none h] at hq
  exact ⟨park_cur _ _ _ _ _ _ _, park_curCtx _ _ _ _ _ _ _, park_quads _ _ _ _ _ _ _, by rw [hq]; exact ⟨rfl, rfl, rfl, rfl⟩⟩

theorem leaveCtx_keeps (s : State) (node : Nat) {k : Nat} (hk : k < 11) :
    TurnKept node s (s.leaveCtx node k) ∧ (s.leaveCtx node k).mem = s.mem ∧ (s.leaveCtx node k).ctx node k = (s.ctx node k).leave := by
  refine ⟨turnKept_setCore ⟨rfl, rfl, rfl, rfl⟩, rfl, ?_⟩
  rw [State.leaveCtx, State.ctx, core_setCore_same, ctx_setCtx_core _ _ hk]
  rfl

/-- How a context whose commit stands goes on: its status and pc are those of TRAP, DONE or COMMIT, and nothing that its commit has done changes. -/
structure CommitEnd (c : Commit) (x y : Ctx) : Prop where
  retire : y.retire = x.retire
  held : y.held = x.held
  goes : c.trap = none → c.done = false → y.status = x.status ∧ y.pc = x.pc
  leaves : c.trap = none → c.done = true → y.status = .free ∨ y.status = .draining
  parks : ∀ t, c.trap = some t → y.status = .parked ∧ y.pc = c.next
  commit : x.commit = none → y.commit = none

theorem commitEnd_leave {c : Commit} {x : Ctx} (ht : c.trap = none) (hd : c.done = true) : CommitEnd c x x.leave where
  retire := rfl
  held := rfl
  goes _ h := absurd h (by simp [hd])
  leaves _ _ := by
    by_cases h : x.slots.isEmpty ∧ x.results = 0
    · exact .inl (if_pos h)
    · exact .inr (if_neg h)
  parks t h := absurd h (by simp [ht])
  commit _ := rfl

theorem commitEnd_park {c : Commit} {x : Ctx} {t : SoftTrap} (ht : c.trap = some t) (hb : x.block = none) (k : Nat) :
    CommitEnd c x (x.discardBlock.parkedAt t.cause k c.next t.addr t.info) := by
  rw [ctx_discardBlock_of_none hb]
  exact {
    retire := rfl
    held := rfl
    goes := fun h => absurd h (by simp [ht])
    leaves := fun h => absurd h (by simp [ht])
    parks := fun _ _ => ⟨rfl, rfl⟩
    commit := id }

theorem commitEnd_refl {c : Commit} {x : Ctx} (ht : c.trap = none) (hd : c.done = false) : CommitEnd c x x where
  retire := rfl
  held := rfl
  goes _ _ := ⟨rfl, rfl⟩
  leaves _ h := absurd h (by simp [hd])
  parks t h := absurd h (by simp [ht])
  commit := id

/-- The end of a hasp is no part of how a commit ends. -/
theorem CommitEnd.of_hasp {c : Commit} {x y : Ctx} (h : CommitEnd c { x with hasp := .none, haspCnt := 0, report := none } y) : CommitEnd c x y :=
  ⟨h.retire, h.held, h.goes, h.leaves, h.parks, h.commit⟩

/-- What follows a commit of a context without a block or a hasp. -/
theorem afterCommit_keeps {s : State} (c : Commit) (hk : s.curCtx < 11) (hb : s.me.block = none) (hh : s.me.hasp = .none) :
    TurnKept s.cur s (s.afterCommit c) ∧ (s.afterCommit c).mem = s.mem ∧ CommitEnd c s.me ((s.afterCommit c).ctx s.cur s.curCtx) := by
  obtain ⟨hkept, hmem, hctx⟩ := endHasp_keeps (s := s) hk hh
  have hb' : ((s.endHasp s.cur s.curCtx).ctx s.cur s.curCtx).block = none := by rw [hctx]; exact hb
  simp only [State.afterCommit]
  cases ht : c.trap with
  | some t =>
    cases hd : c.done
    · simp only [Bool.false_eq_true, if_false]
      refine ⟨turnKept_park _ _ _ _ hb, park_mem _ _ _ _ _ _ _, ?_⟩
      rw [ctx_park _ _ _ _ _ _ hk]
      exact commitEnd_park ht hb _
    · simp only [if_true]
      refine ⟨hkept.trans (turnKept_park _ _ _ _ hb'), (park_mem _ _ _ _ _ _ _).trans hmem, ?_⟩
      have hend := commitEnd_park ht hb' s.curCtx
      rw [hctx] at hend
      rw [ctx_park _ _ _ _ _ _ hk, hctx]
      exact hend.of_hasp
  | none =>
    cases hd : c.done
    · exact ⟨.refl _ _, rfl, commitEnd_refl ht hd⟩
    · simp only [if_true]
      obtain ⟨hkept', hmem', hctx'⟩ := leaveCtx_keeps (s.endHasp s.cur s.curCtx) s.cur hk
      refine ⟨hkept.trans hkept', hmem'.trans hmem, ?_⟩
      rw [hctx', hctx]
      exact (commitEnd_leave ht hd).of_hasp

/-! ### The turn of a commit (R117) -/

/-- The drained state of a commit with its tumbler operations and the effects that are not local handed on, and its Held keys owned (R117 step 3, R136, R251). -/
def State.passOn (s : State) (k : Nat) (ops : List LocalUpdate) (out : List Effect) : State :=
  let t := s.drainTumblers ops
  let c := t.myCore
  t.setMyCore ({ c with departure := c.departure ++ out.map (fun e => (k, e)), sent := c.sent + (out.map Effect.sent).sum }.ownKeys t.me.held)

/-- The turn of a commit before what follows it: drained, handed on, traced, and its context committed. -/
def State.turnDone (s : State) (c : Commit) (l : List Effect) : State :=
  let out := l.filter (fun e => !e.isLocal)
  let t := (((s.drainStores c.done l).passOn s.curCtx (tumblerOps s.cur s.curCtx l) out).takeReservations).traceMessages c.traceCtl c.block out
  t.setMe (t.me.committed c.done)

theorem takeTurn_eq (s : State) (c : Commit) (l : List Effect) : ∃ h, s.takeTurn c l = ((s.turnDone c l).afterCommit c).hingeCommit c h := ⟨_, rfl⟩

theorem turnKept_setMe (s : State) (x : Ctx) : TurnKept s.cur s (s.setMe x) := turnKept_setCtx _ _ _ _

theorem hingeCommit_of_unarmed {s : State} (c : Commit) (b : Bool) (h : s.myCore.hinge.arm = false) : s.hingeCommit c b = s := by
  simp [State.hingeCommit, h]

/-- What is handed on joins the departure queue and the counts; of its core only the keys change besides. -/
theorem core_passOn (s : State) (k : Nat) (ops : List LocalUpdate) (out : List Effect) : ∃ ks, (s.passOn k ops out).core s.cur =
    { s.core s.cur with
      departure := (s.core s.cur).departure ++ out.map (fun e => (k, e)), sent := (s.core s.cur).sent + (out.map Effect.sent).sum, keys := ks } := by
  obtain ⟨ks, h⟩ := ownKeys_keeps { s.core s.cur with
    departure := (s.core s.cur).departure ++ out.map (fun e => (k, e)), sent := (s.core s.cur).sent + (out.map Effect.sent).sum } s.me.held
  exact ⟨ks, (core_setCore_same _ _ _).trans h⟩

theorem me_passOn (s : State) (k : Nat) (ops : List LocalUpdate) (out : List Effect) : (s.passOn k ops out).me = s.me := by
  obtain ⟨ks, h⟩ := core_passOn s k ops out
  have hctx := congrArg (fun c : Core => c.ctx s.curCtx) h
  exact hctx

theorem key_passOn {s : State} (k : Nat) (ops : List LocalUpdate) (out : List Effect) {n : Nat} (hm : n ∈ s.me.held) (hn : n < 64)
    (h : ((s.core s.cur).key n).alloc = .held) : (((s.passOn k ops out).core s.cur).key n).alloc = .owned := by
  rw [State.passOn, State.setMyCore, State.drainTumblers, State.setQuad_cur, core_setCore_same]
  exact ownKeys_of_held hm hn h

theorem quad_takeReservations_drains (s : State) (j : Nat) : (s.takeReservations.quad j).drains = (s.quad j).drains := by
  have hq := agetD_map (fun q => { q with
    reservations := q.reservations.map (fun r => if r.node = s.cur ∧ r.ctx = s.curCtx then { r with taken := true } else r) }) rfl s.quads (quadOf j)
  have hdrains := congrArg Quad.drains hq
  exact hdrains

theorem quad_passOn_drains (s : State) (k : Nat) (ops : List LocalUpdate) (out : List Effect) :
    ((s.passOn k ops out).quad s.cur).drains = (s.quad s.cur).drains ++ ops := by
  have hdrains := congrArg Quad.drains (quad_setQuad_same s s.cur { s.quad s.cur with drains := (s.quad s.cur).drains ++ ops })
  exact hdrains

/-- Where the effects of a commit neither request nor give up a hasp, there is none after it. -/
theorem foldl_haspAfter_none {l : List Effect} (h : ∀ e ∈ l, haspAfter .none e = .none) : l.foldl haspAfter .none = .none := by
  induction l with
  | nil => rfl
  | cons e l ih => rw [List.foldl_cons, h e (by simp), ih fun x hx => h x (by simp [hx])]

section
variable {s : State} {c : Commit} (hk : s.curCtx < 11)
include hk

/-- The context, its core, its quad and memory as a commit's turn has left them. -/
theorem turnDone_keeps (l : List Effect) :
    let t := s.turnDone c l
    let d := s.drainStores c.done l
    let h := d.passOn s.curCtx (tumblerOps s.cur s.curCtx l) (l.filter (fun e => !e.isLocal))
    TurnKept s.cur h.takeReservations t ∧ t.mem = d.mem ∧ t.me = d.me.committed c.done := by
  intro t d h
  obtain ⟨hd, -⟩ := drainStores_keeps hk c.done l
  obtain ⟨htr, htm, hte⟩ := traceMessages_keeps h.takeReservations c.traceCtl c.block (l.filter (fun e => !e.isLocal))
  have hcur : h.takeReservations.cur = s.cur := hd.cur
  have hctx : h.takeReservations.curCtx = s.curCtx := hd.curCtx
  rw [hcur] at htr
  have hme : h.takeReservations.me = d.me := me_passOn d _ _ _
  refine ⟨htr.trans ?_, htm, ?_⟩
  · have hset := turnKept_setMe (h.takeReservations.traceMessages c.traceCtl c.block (l.filter (fun e => !e.isLocal)))
      ((h.takeReservations.traceMessages c.traceCtl c.block (l.filter (fun e => !e.isLocal))).me.committed c.done)
    rwa [htr.cur, hcur] at hset
  · rw [← hme, ← hte]
    exact me_setMe _ _ (by rw [htr.curCtx, hctx]; exact hk)

/-- The turn of a commit of a context that has no block, no hasp and is not armed, with what the drain and the passing on of its effects have made. -/
theorem takeTurn_keeps (hb : s.me.block = none) (hh : s.me.hasp = .none) (hl : ∀ e ∈ s.me.retire, haspAfter .none e = .none)
    (ha : s.myCore.hinge.arm = false) (l : List Effect) :
    let d := s.drainStores c.done l
    let h := d.passOn s.curCtx (tumblerOps s.cur s.curCtx l) (l.filter (fun e => !e.isLocal))
    TurnKept s.cur h.takeReservations (s.takeTurn c l) ∧ (s.takeTurn c l).mem = d.mem ∧
      CommitEnd c (d.me.committed c.done) ((s.takeTurn c l).ctx s.cur s.curCtx) := by
  intro d h
  obtain ⟨hd, -⟩ := drainStores_keeps hk c.done l
  obtain ⟨hturn, hmem, hme⟩ := turnDone_keeps (c := c) hk l
  have hcur : (s.turnDone c l).cur = s.cur := hturn.cur.trans hd.cur
  have hctx : (s.turnDone c l).curCtx = s.curCtx := hturn.curCtx.trans hd.curCtx
  have hblock : (s.turnDone c l).me.block = none := by rw [hme, Ctx.committed, hd.me]; exact hb
  have hhasp : (s.turnDone c l).me.hasp = .none := by
    rw [hme, Ctx.committed, hd.me]
    exact (congrArg (fun x => s.me.retire.foldl haspAfter x) hh).trans (foldl_haspAfter_none hl)
  obtain ⟨hafter, hmem', hend⟩ := afterCommit_keeps c (by rwa [hctx]) hblock hhasp
  rw [hcur] at hafter hend
  rw [hctx] at hend
  have hall := hturn.trans hafter
  obtain ⟨ks, hcore⟩ := core_passOn d s.curCtx (tumblerOps s.cur s.curCtx l) (l.filter (fun e => !e.isLocal))
  have hhinge : ((s.turnDone c l).afterCommit c).myCore.hinge.arm = false := by
    rw [State.myCore, hafter.cur, hcur, hall.core.hinge]
    rw [hd.cur] at hcore
    exact (congrArg (fun x : Core => x.hinge.arm) hcore).trans ((congrArg HingeState.arm hd.core.hinge).trans ha)
  obtain ⟨b, hv⟩ := takeTurn_eq s c l
  rw [hv, hingeCommit_of_unarmed c b hhinge]
  exact ⟨hall, hmem'.trans hmem, hme ▸ hend⟩

end

/-! ### The commit of plain effects (R117) -/

theorem retireFault_of_plain {s : State} {l : List Effect} (h : plainEffects l) : s.retireFault l = none := by
  refine List.findSome?_eq_none_iff.mpr fun e he => ?_
  have hp := h e he
  cases e with
  | mem m =>
    obtain ⟨-, hop, -⟩ := hp
    exact if_neg hop
  | _ => rfl

theorem reservationsHeld_of_plain {l : List Effect} (h : plainEffects l) : reservationsHeld l = true := by
  refine List.all_eq_true.mpr fun e he => ?_
  have hp := h e he
  cases e with
  | mem m =>
    obtain ⟨hscope, -, -⟩ := hp
    simp [hscope]
  | _ => rfl

/-- Effects that no shootdown has marked stand as they were translated (R108). -/
theorem retranslate_of_plain (s : State) {l : List Effect} (h : plainEffects l) : s.retranslate l = .ok (l, s) := by
  induction l with
  | nil => rfl
  | cons e r ih =>
    have hr := ih fun x hx => h x (List.mem_cons_of_mem _ hx)
    have hp := h e (List.mem_cons_self ..)
    cases e with
    | mem m =>
      obtain ⟨-, -, hm⟩ := hp
      simp only [State.retranslate, hm, Bool.false_eq_true, if_false, hr]
      rfl
    | copy d a n ps marked j f =>
      obtain rfl : marked = false := hp
      simp only [State.retranslate, hr]
      rfl
    | _ =>
      simp only [State.retranslate, hr]
      rfl

/-- A commit of plain effects that is reserved and has room takes its turn, where no earlier commit of its core drains. -/
theorem exec_invocationCommit_of_plain {s : State} {node k : Nat} {c : Commit} (hl : (s.ctx node k).status = .live)
    (hc : (s.ctx node k).commit = some c) (hp : plainEffects (s.ctx node k).retire) (hr : c.reserved = true)
    (hd : ∀ u ∈ (s.quad node).drains, u.node ≠ node)
    (hroom : entriesOf ((s.core node).departure.map (·.2)) + entriesOf ((s.ctx node k).retire.filter (fun e => !e.isLocal)) ≤ 1024) :
    exec (.invocationCommit node k) s = .next ((s.asCtx node k).takeTurn c (s.ctx node k).retire) := by
  have hdrain : (s.asCtx node k).draining node = false :=
    List.any_eq_false.mpr fun u hu => by simpa using hd u hu
  have hx : (s.asCtx node k).me = s.ctx node k := rfl
  have hcore : (s.asCtx node k).myCore = s.core node := rfl
  have hfits : ¬ 1024 < entriesOf ((s.core node).departure.map (·.2)) + roomNeeded (s.ctx node k).retire := Nat.not_lt.mpr hroom
  show execInvocationCommit node k s = _
  simp only [execInvocationCommit, hx, hcore, hc, hl, hr, ne_eq, not_true_eq_false, Bool.not_true, Bool.false_eq_true, or_self, if_false,
    retireFault_of_plain hp, hdrain, hfits, retranslate_of_plain _ hp, reservationsHeld_of_plain hp, if_true]

section
variable {s : State} {node k : Nat} {c : Commit} (hk : k < 11) (hl : (s.ctx node k).status = .live) (hb : (s.ctx node k).block = none)
  (hc : (s.ctx node k).commit = some c) (hp : plainEffects (s.ctx node k).retire)
include hk hl hb hc hp

/-- R117, R119, R120, R205, R251: the turn of a commit whose reservations are made. -/
theorem exec_invocationCommit_turn (hr : c.reserved = true) (hd : ∀ u ∈ (s.quad node).drains, u.node ≠ node)
    (ha : (s.core node).hinge.arm = false) (hh : (s.ctx node k).hasp = .none) (hhasp : ∀ e ∈ (s.ctx node k).retire, haspAfter .none e = .none)
    (hroom : entriesOf ((s.core node).departure.map (·.2)) + entriesOf ((s.ctx node k).retire.filter (fun e => !e.isLocal)) ≤ 1024) :
    let x := s.ctx node k
    ∃ v, exec (.invocationCommit node k) s = .next v ∧ (v.ctx node k).retire = [] ∧ (v.ctx node k).held = [] ∧ (v.ctx node k).commit = none ∧
      (v.core node).departure = (s.core node).departure ++ (x.retire.filter (fun e => !e.isLocal)).map (fun e => (k, e)) ∧
      (v.core node).sent = (s.core node).sent + ((x.retire.filter (fun e => !e.isLocal)).map Effect.sent).sum ∧
      (∀ n ∈ x.held, n < 64 → ((s.core node).key n).alloc = .held → ((v.core node).key n).alloc = .owned) ∧
      (c.trap = none → c.done = false → (v.ctx node k).status = .live ∧ (v.ctx node k).pc = c.next) ∧
      (c.trap = none → c.done = true → (v.ctx node k).status = .free ∨ (v.ctx node k).status = .draining) ∧
      (∀ st, c.trap = some st → (v.ctx node k).status = .parked ∧ (v.ctx node k).pc = c.next) ∧
      (v.quad node).drains = (s.quad node).drains ++ tumblerOps node k x.retire ∧
      (∀ a, (∀ r ∈ storedRuns node x.retire, a < r.1 ∨ r.1 + r.2 ≤ a) → Memory.read v.mem a = Memory.read s.mem a) := by
  intro x
  let d := (s.asCtx node k).drainStores c.done x.retire
  let out := x.retire.filter (fun e => !e.isLocal)
  let h := d.passOn k (tumblerOps node k x.retire) out
  obtain ⟨hdrain, hread⟩ := drainStores_keeps (s := s.asCtx node k) hk c.done x.retire
  obtain ⟨hturn, hmem, hend⟩ := takeTurn_keeps (s := s.asCtx node k) (c := c) hk hb hh hhasp ha x.retire
  have hcur : d.cur = node := hdrain.cur
  have hstatus : (d.me.committed c.done).status = .live := by rw [Ctx.committed, hdrain.me]; exact hl
  have hpc : (d.me.committed c.done).pc = c.next := by
    rw [Ctx.committed, hdrain.me]
    exact congrArg (fun o : Option Commit => (o.map (fun c => c.next)).getD x.pc) hc
  have hheld : d.me.held = x.held := by rw [hdrain.me]; rfl
  have hkey : ∀ n, ((d.core node).key n) = (s.core node).key n := fun n => by rw [Core.key, hdrain.core.keys]; rfl
  obtain ⟨ks, hcore⟩ := core_passOn d k (tumblerOps node k x.retire) out
  have hdrains := quad_passOn_drains d k (tumblerOps node k x.retire) out
  rw [hcur] at hcore hdrains
  refine ⟨_, exec_invocationCommit_of_plain hl hc hp hr hd hroom, hend.retire, hend.held, hend.commit rfl, ?_, ?_, ?_, ?_, hend.leaves, hend.parks, ?_, ?_⟩
  · refine hturn.core.departure.trans ((congrArg Core.departure hcore).trans ?_)
    exact congrArg (· ++ out.map (fun e => (k, e))) hdrain.core.departure
  · refine hturn.core.sent.trans ((congrArg Core.sent hcore).trans ?_)
    exact congrArg (· + (out.map Effect.sent).sum) hdrain.core.sent
  · intro n hn hlt halloc
    have howned := key_passOn (s := d) k (tumblerOps node k x.retire) out (hheld ▸ hn) hlt (by rw [hcur, hkey]; exact halloc)
    rw [hcur] at howned
    rw [Core.key, hturn.core.keys]
    exact howned
  · exact fun ht hdone => ⟨(hend.goes ht hdone).1.trans hstatus, (hend.goes ht hdone).2.trans hpc⟩
  · refine (congrArg Quad.drains (quad_of_quads hturn.quads node)).trans ((quad_takeReservations_drains h node).trans (hdrains.trans ?_))
    exact congrArg (fun q : Quad => q.drains ++ _) (quad_of_quads hdrain.quads node)
  · exact fun a hout => (congrArg (fun m => Memory.read m a) hmem).trans (hread a hout)

end

end Sys2Proof.Machine

open Sys2Proof Sys2Proof.Machine in
/-- Settles O35: the reservation of a commit follows its effects up to the first versioned write without a slot;
a commit's turn is its drain, the passing on of its other effects and what TRAP or DONE make of its context;
a drained store is one access that writes whole units. -/
theorem commitsAndCommittedBytes : Obligations.CommitsAndCommittedBytes := by
  unfold Obligations.CommitsAndCommittedBytes
  refine ⟨?_, ?_, ?_⟩
  · intro s node k c l1 m l2 hk x hl hc hr run quad q n named sound
    refine ⟨exec_vstReservation_held hl hc hr hk, fun hx h1 hs hn => ⟨?_, ?_, ?_⟩⟩
    · exact exec_vstReservation_takes hl hc hr hx h1 hs hn hk
    · exact exec_vstReservation_waits hl hc hr hx h1 hs hn hk
    · exact exec_vstReservation_fails hl hc hr hx h1 hs hn hk
  · intro s node k c hk x hl hb hc hp hr hd ha hh hhasp hroom
    exact exec_invocationCommit_turn hk hl hb hc hp hr hd ha hh hhasp hroom
  · intro s la bs hm
    refine ⟨drainChunk_writes hm, fun kind z d v e hk _ h => drainAmo_writes kind d v e hm hk h, fun hp ha hr => ⟨?_, ?_⟩, ?_⟩
    · exact fun hl => drainChunk_poisoned_whole hm hp (hl ▸ ha) hl
    · exact fun hl => drainChunk_poisoned_part hp ha hl hr
    · exact fun ha hl hp hp4 hq hh => drainChunk_poisoned_two ha hl hp hp4 hq hh

/-! PROOFS. Integer arithmetic, logic, shifts, division and counts: what each integer instruction writes (R210 to R214). -/

namespace Sys2Proof.Machine

/-! ### The course of an integer instruction (R200) -/

section
variable {s : State} {p : BitVec 4} {d a b : BitVec 5}

/-- A two-source instruction with ready operands writes the value of its function (R210). -/
theorem alu2_on (h : On s p [rg a, rg b] [rg d]) {op : Nat} {x y : BitVec 1} {f : Word → Word → Word} :
    s.alu2 p op d a b x y f = .next (s.wroteG d (f (s.val a) (s.val b))) := by
  have hon : On s p [gsrcE a x, gsrcE b y] [rg d] := by simpa [On, Ready] using h
  rw [State.alu2, issueG_on hon]

/-- A one-source instruction with a ready operand writes the value of its function (R213). -/
theorem alu1_on (h : On s p [rg a] [rg d]) {op : Nat} {x : BitVec 1} {f : Word → Word} :
    s.alu1 p op d a x f = .next (s.wroteG d (f (s.val a))) := by
  have hon : On s p [gsrcE a x] [rg d] := by simpa [On, Ready] using h
  rw [State.alu1, issueG_on hon]

/-- An immediate form with a ready operand writes the value of its function (R211). -/
theorem aluI_on (h : On s p [rg a] [rg d]) {op : Nat} {f : Word → Word} :
    s.aluI p op d a f = .next (s.wroteG d (f (s.val a))) := by
  have hon : On s p [gsrc a] [rg d] := h
  rw [State.aluI, issueG_on hon]

end

/-! ### Products and quotients (R210, R212) -/

/-- Bits 127 to 64 of a signed product are its quotient by 2^64, rounded down. -/
theorem mulHigh_eq_extractLsb' (a b : Word) : mulHigh a b = (a.signExtend 128 * b.signExtend 128).extractLsb' 64 64 := by
  have hprod : a.signExtend 128 * b.signExtend 128 = BitVec.ofInt 128 (a.toInt * b.toInt) := by
    rw [BitVec.ofInt_mul]; rfl
  rw [hprod, mulHigh, wordOfInt]
  apply BitVec.eq_of_toNat_eq
  rw [BitVec.extractLsb'_toNat, BitVec.toNat_ofInt, BitVec.toNat_ofInt, Nat.shiftRight_eq_div_pow]
  omega

theorem mulHighN_eq_extractLsb' (a b : Word) : mulHighN a b = (a.setWidth 128 * b.setWidth 128).extractLsb' 64 64 := by
  have ha : a.toNat % 2 ^ 128 = a.toNat := Nat.mod_eq_of_lt (by omega)
  have hb : b.toNat % 2 ^ 128 = b.toNat := Nat.mod_eq_of_lt (by omega)
  apply BitVec.eq_of_toNat_eq
  rw [BitVec.extractLsb'_toNat, BitVec.toNat_mul, BitVec.toNat_setWidth, BitVec.toNat_setWidth, ha, hb, Nat.shiftRight_eq_div_pow, mulHighN, wordOf,
    BitVec.toNat_ofNat]
  omega

theorem divSigned_eq_sdiv (a b : Word) : divSigned a b = if b = 0 then 0 else a.sdiv b := by
  have h : wordOfInt (Int.tdiv a.toInt b.toInt) = a.sdiv b := by
    rw [wordOfInt, ← BitVec.toInt_inj, BitVec.toInt_sdiv, BitVec.toInt_ofInt]
  rw [divSigned, h]

theorem remSigned_eq_srem (a b : Word) : remSigned a b = if b = 0 then a else a.srem b := by
  rw [remSigned, wordOfInt, ← BitVec.toInt_srem, BitVec.ofInt_toInt]

theorem divUnsigned_eq_udiv (a b : Word) : divUnsigned a b = if b = 0 then 0 else a / b := by
  rw [divUnsigned, wordOf, BitVec.udiv_def]

theorem remUnsigned_eq_umod (a b : Word) : remUnsigned a b = if b = 0 then a else a % b := by
  rw [remUnsigned, wordOf, BitVec.umod_def]

/-! ### The larger value (R210) -/

/-- A choice by one of two conditions is the opposite choice by the other, where one of them holds and both hold of equal words alone. -/
theorem ite_eq_ite_swap {p q : Prop} [Decidable p] [Decidable q] {a b : Word} (hone : p ∨ q) (hboth : p → q → a = b) :
    (if p then a else b) = if q then b else a := by
  by_cases hp : p
  · by_cases hq : q
    · rw [if_pos hp, if_pos hq, hboth hp hq]
    · rw [if_pos hp, if_neg hq]
  · rw [if_neg hp, if_pos (hone.resolve_left hp)]

theorem maxSigned_eq_ite (a b : Word) : maxSigned a b = if a.toInt ≤ b.toInt then b else a :=
  ite_eq_ite_swap (Int.le_total _ _) (fun hba hab => BitVec.eq_of_toInt_eq (Int.le_antisymm hab hba))

theorem maxUnsigned_eq_ite (a b : Word) : maxUnsigned a b = if a.toNat ≤ b.toNat then b else a :=
  ite_eq_ite_swap (Nat.le_total _ _) (fun hba hab => BitVec.eq_of_toNat_eq (Nat.le_antisymm hab hba))

/-! ### Immediates (R211) -/

theorem wordOf_toNat {n : Nat} (i : BitVec n) : wordOf i.toNat = i.setWidth 64 := BitVec.ofNat_toNat 64 i

/-! ### Fields (R214) -/

/-- The field that register b names starts at its bits [5:0], and its width of bits [13:8] is cut at bit 63. -/
theorem fieldSpec_eq (b : Word) : fieldSpec b = (b.toNat % 64, min (b.toNat / 256 % 64 + 1) (64 - b.toNat % 64)) := by
  have hlo : fieldOf b 5 0 = b.toNat % 64 := by simp [fieldOf, bits]
  have hw : fieldOf b 13 8 = b.toNat / 256 % 64 := by simp [fieldOf, bits]
  simp only [fieldSpec, hlo, hw, Prod.mk.injEq, true_and]
  omega

theorem fieldExtract_eq {b : Word} {lo w : Nat} (h : fieldSpec b = (lo, w)) (a : Word) : fieldExtract a b = .ofNat 64 (a.toNat / 2 ^ lo % 2 ^ w) := by
  rw [fieldExtract, h]; rfl

theorem fieldExtractSigned_eq {b : Word} {lo w : Nat} (h : fieldSpec b = (lo, w)) (a : Word) : fieldExtractSigned a b =
    .ofInt 64 (if a.toNat / 2 ^ lo % 2 ^ w < 2 ^ (w - 1) then (a.toNat / 2 ^ lo % 2 ^ w : Nat) else (a.toNat / 2 ^ lo % 2 ^ w : Int) - 2 ^ w) := by
  simp [fieldExtractSigned, h, bitsW, signExt, wordOfInt]

/-! ### Counts of bits (R213) -/

theorem bitAt_eq_testBit (x n : Nat) : bitAt x n = x.testBit n := by
  rw [bitAt, Nat.testBit_eq_decide_div_mod_eq]; rfl

theorem flagOf_eq_getLsbD (w : Word) (n : Nat) : flagOf w n = w.getLsbD n := bitAt_eq_testBit _ _

/-- The lowest one bit of a number is one, and every bit below it is zero. -/
theorem lowestBit_spec (x n : Nat) :
    lowestBit x n ≤ n ∧ (∀ k < lowestBit x n, x.testBit k = false) ∧ (lowestBit x n < n → x.testBit (lowestBit x n) = true) := by
  have hbit : bitAt x = x.testBit := funext (bitAt_eq_testBit x)
  have hlow : lowestBit x n = ((List.range n).find? x.testBit).getD n := by
    rw [lowestBit, setBits, hbit, List.headD_eq_head?_getD, List.head?_filter]
  cases hf : (List.range n).find? x.testBit with
  | none =>
    rw [hf, Option.getD_none] at hlow
    rw [hlow]
    exact ⟨Nat.le_refl n, by simpa using hf, fun h => absurd h (Nat.lt_irrefl n)⟩
  | some k =>
    rw [hf, Option.getD_some] at hlow
    rw [hlow]
    obtain ⟨hone, hmem, hzero⟩ := List.find?_range_eq_some.mp hf
    exact ⟨Nat.le_of_lt (List.mem_range.mp hmem), by simpa using hzero, fun _ => hone⟩

/-- A bit shifted in from the right is the lowest bit. -/
theorem testBit_shiftIn_zero (x : Nat) (b : Bool) : (x * 2 + bitNat b).testBit 0 = b := by
  rw [Nat.testBit_zero]
  cases b with
  | false => exact decide_eq_false (show ¬ (x * 2 + 0) % 2 = 1 by omega)
  | true => exact decide_eq_true (show (x * 2 + 1) % 2 = 1 by omega)

/-- The other bits move up by one. -/
theorem testBit_shiftIn_succ (x : Nat) (b : Bool) (j : Nat) : (x * 2 + bitNat b).testBit (j + 1) = x.testBit j := by
  have hhalf : (x * 2 + bitNat b) / 2 = x := by
    cases b with
    | false => exact (show (x * 2 + 0) / 2 = x by omega)
    | true => exact (show (x * 2 + 1) / 2 = x by omega)
  rw [Nat.testBit_succ, hhalf]

/-- Bits shifted in from the right, one after the other, stand in reverse order. -/
theorem testBit_foldl_shiftIn (f : Nat → Bool) (n j : Nat) :
    ((List.range n).foldl (fun x k => x * 2 + bitNat (f k)) 0).testBit j = (decide (j < n) && f (n - 1 - j)) := by
  induction n generalizing j with
  | zero => simp
  | succ n ih =>
    rw [List.range_succ, List.foldl_append, List.foldl_cons, List.foldl_nil]
    generalize (List.range n).foldl (fun x k => x * 2 + bitNat (f k)) 0 = x at ih
    cases j with
    | zero =>
      rw [testBit_shiftIn_zero]
      simp
    | succ j =>
      have hrest : n + 1 - 1 - (j + 1) = n - 1 - j := by omega
      rw [testBit_shiftIn_succ, ih, hrest]
      simp only [Nat.add_lt_add_iff_right]

/-- CLZ counts the zero bits above the highest one bit: the lowest one bit of the word in reverse order. -/
theorem countLeading_spec (a : Word) : ∃ n : Nat, countLeading a = .ofNat 64 n ∧ n ≤ 64 ∧
    (∀ k, 64 - n ≤ k → a.getLsbD k = false) ∧ (n < 64 → a.getLsbD (63 - n) = true) := by
  have hrev := testBit_foldl_shiftIn (flagOf a) 64
  obtain ⟨hle, hzero, hone⟩ := lowestBit_spec ((List.range 64).foldl (fun x k => x * 2 + bitNat (flagOf a k)) 0) 64
  refine ⟨_, rfl, hle, fun k hk => ?_, fun h => ?_⟩
  · rcases Nat.lt_or_ge k 64 with hk64 | hk64
    · have hz := hzero (63 - k) (by omega)
      rwa [hrev, decide_eq_true (by omega), Bool.true_and, flagOf_eq_getLsbD, show 64 - 1 - (63 - k) = k by omega] at hz
    · exact BitVec.getLsbD_of_ge a k hk64
  · have ho := hone h
    rwa [hrev, decide_eq_true h, Bool.true_and, flagOf_eq_getLsbD] at ho

/-- CTZ counts the zero bits below the lowest one bit. -/
theorem countTrailing_spec (a : Word) : ∃ n : Nat, countTrailing a = .ofNat 64 n ∧ n ≤ 64 ∧
    (∀ k, k < n → a.getLsbD k = false) ∧ (n < 64 → a.getLsbD n = true) :=
  ⟨_, rfl, lowestBit_spec a.toNat 64⟩

theorem popCount_toNat (a : Word) : popCount a.toNat 64 = ((List.range 64).filter a.getLsbD).length := by
  have hbit : bitAt a.toNat = a.getLsbD := funext (flagOf_eq_getLsbD a)
  rw [popCount, setBits, hbit]

/-! ### The tables of R210 to R214: a row is the common course of its instruction, whose function is the row's word operation -/

section
variable {s : State} {p : BitVec 4} {d a b : BitVec 5}

theorem exec_twoSourceTable (h : On s p [rg a, rg b] [rg d]) (x y : BitVec 1) (k : BitVec 3) :
    ∀ r ∈ twoSourceTable p d a b x y k (s.val a) (s.val b), exec r.1 s = .next (s.wroteG d r.2) := by
  simp only [twoSourceTable, List.forall_mem_cons, List.not_mem_nil, false_imp_iff, implies_true, and_true]
  refine ⟨?add, ?sub, ?mul, ?mulh, ?mulhn, ?and, ?andn, ?or, ?xor, ?shl, ?shr, ?sar, ?rot, ?min, ?max, ?minn, ?maxn, ?addx, ?div, ?rem, ?divn, ?remn, ?bfx, ?bfxs⟩
  case add => exact (alu2_on h : execAdd p d a b x y s = _)
  case sub => exact (alu2_on h : execSub p d a b x y s = _)
  case mul => exact (alu2_on h : execMul p d a b x y s = _)
  case mulh => rw [← mulHigh_eq_extractLsb']; exact (alu2_on h : execMulh p d a b x y s = _)
  case mulhn => rw [← mulHighN_eq_extractLsb']; exact (alu2_on h : execMulhn p d a b x y s = _)
  case and => exact (alu2_on h : execAnd p d a b x y s = _)
  case andn => exact (alu2_on h : execAndn p d a b x y s = _)
  case or => exact (alu2_on h : execOr p d a b x y s = _)
  case xor => exact (alu2_on h : execXor p d a b x y s = _)
  case shl => exact (alu2_on h : execShl p d a b x y s = _)
  case shr => exact (alu2_on h : execShr p d a b x y s = _)
  case sar => exact (alu2_on h : execSar p d a b x y s = _)
  case rot => exact (alu2_on h : execRot p d a b x y s = _)
  case min => exact (alu2_on h : execMin p d a b x y s = _)
  case max => rw [← maxSigned_eq_ite]; exact (alu2_on h : execMax p d a b x y s = _)
  case minn => exact (alu2_on h : execMinn p d a b x y s = _)
  case maxn => rw [← maxUnsigned_eq_ite]; exact (alu2_on h : execMaxn p d a b x y s = _)
  case addx => exact (alu2_on h : execAddx p d a b x y k s = _)
  case div => rw [← divSigned_eq_sdiv]; exact (alu2_on h : execDiv p d a b x y s = _)
  case rem => rw [← remSigned_eq_srem]; exact (alu2_on h : execRem p d a b x y s = _)
  case divn => rw [← divUnsigned_eq_udiv]; exact (alu2_on h : execDivn p d a b x y s = _)
  case remn => rw [← remUnsigned_eq_umod]; exact (alu2_on h : execRemn p d a b x y s = _)
  case bfx => rw [← fieldExtract_eq (fieldSpec_eq _)]; exact (alu2_on h : execBfx p d a b x y s = _)
  case bfxs => rw [← fieldExtractSigned_eq (fieldSpec_eq _)]; exact (alu2_on h : execBfxs p d a b x y s = _)

theorem exec_oneSourceTable (h : On s p [rg a] [rg d]) (x : BitVec 1) (i : BitVec 10) :
    ∀ r ∈ oneSourceTable p d a x i (s.val a), exec r.1 s = .next (s.wroteG d r.2) := by
  rw [oneSourceTable, List.forall_mem_append]
  constructor
  · simp only [List.forall_mem_cons, List.not_mem_nil, false_imp_iff, implies_true, and_true]
    refine ⟨?addi, ?muli, ?andi, ?ori, ?xori, ?abs, ?mov⟩
    case addi => exact (aluI_on h : execAddi p d a i s = _)
    case muli => exact (aluI_on h : execMuli p d a i s = _)
    case andi => rw [← wordOf_toNat]; exact (aluI_on h : execAndi p d a i s = _)
    case ori => rw [← wordOf_toNat]; exact (aluI_on h : execOri p d a i s = _)
    case xori => rw [← wordOf_toNat]; exact (aluI_on h : execXori p d a i s = _)
    case abs => simp only [BitVec.msb_eq_toInt, decide_eq_true_eq]; exact (alu1_on h : execAbs p d a x s = _)
    case mov => exact (alu1_on h : execMov p d a x s = _)
  · split
    · simp only [List.forall_mem_cons, List.not_mem_nil, false_imp_iff, implies_true, and_true]
      refine ⟨?shli, ?shri, ?sari⟩
      case shli => exact (aluI_on h : execShli p d a i s = _)
      case shri => exact (aluI_on h : execShri p d a i s = _)
      case sari => exact (aluI_on h : execSari p d a i s = _)
    · simp

end

end Sys2Proof.Machine

open Sys2Proof Sys2Proof.Machine in
/-- Settles O1: every instruction of R210 to R214 takes the common course of one write into g[d], and each of the
model's functions is the word operation that its row of the tables names. -/
theorem integerResults : Obligations.IntegerResults := by
  unfold Obligations.IntegerResults
  refine ⟨?_, ?_, ?_⟩
  · exact fun s p d a b x y k h => exec_twoSourceTable h x y k
  · exact fun s p d a x i h => exec_oneSourceTable h x i
  · intro s p d a x h
    obtain ⟨l, hl, hlead⟩ := countLeading_spec (s.val a)
    obtain ⟨t, ht, htrail⟩ := countTrailing_spec (s.val a)
    refine ⟨⟨l, ?_, hlead⟩, ⟨t, ?_, htrail⟩, ?_⟩
    · rw [← hl]; exact (alu1_on h : execClz p d a x s = _)
    · rw [← ht]; exact (alu1_on h : execCtz p d a x s = _)
    · rw [← popCount_toNat]; exact (alu1_on h : execPopc p d a x s = _)

/-! PROOFS. The vector pipe on whole lanes: what selection, lane moves, compares, lane masks and plane loads write (R263 to R265, R271 to R276). -/

namespace Sys2Proof.Machine

/-! ### The registers after an instruction's update (R175, R181, R259) -/

section
variable {s : State} (hk : s.curCtx < 11)
include hk

theorem regs_setRegs (r : Regs) : (s.setRegs r).regs = r := by rw [State.regs, State.setRegs, me_setMe _ _ hk]

theorem regs_onBlock (f : OpenBlock → OpenBlock) : (s.onBlock f).regs = s.regs := by
  rw [State.regs, State.onBlock, me_setMe _ _ hk, State.regs]

theorem regs_setRegs_advance (r : Regs) : (s.setRegs r).advance.regs = r := by
  rw [State.advance, regs_onBlock (s := s.setRegs r) hk, regs_setRegs hk]

theorem regs_setRegs_raise_advance (r : Regs) (fl : BitVec 5) :
    ((s.setRegs r).raise fl).advance.regs = { r with flags := r.flags ||| fl } := by
  rw [State.advance, regs_onBlock (s := (s.setRegs r).raise fl) hk, State.raise,
    regs_onBlock (s := (s.setRegs r).setRegs _) hk, regs_setRegs (s := s.setRegs r) hk, regs_setRegs hk]

end

theorem vreg_setV_same (r : Regs) {n : Nat} (l : Vector Lane 32) (h : n < 16) : (r.setV n l).vreg n = ⟨l, .full⟩ := by
  simp [Regs.vreg, Regs.setV, Regs.putV, h]

theorem vreg_setV_ne (r : Regs) {n k : Nat} (l : Vector Lane 32) (h : k ≠ n) : (r.setV n l).vreg k = r.vreg k := by
  simp [Regs.vreg, Regs.setV, Regs.putV, Ne.symm h]

theorem lane_setV_same (r : Regs) {n k : Nat} (l : Vector Lane 32) (hn : n < 16) (hk : k < 32) : (r.setV n l).lane n k = l[k] := by
  simp [Regs.lane, vreg_setV_same r l hn, hk]

theorem qreg_putQ_same (r : Regs) {n : Nat} (x : Lane) (h : n < 8) : (r.putQ n x).qreg n = x := by
  simp [Regs.qreg, Regs.putQ, h]

theorem qreg_putQ_ne (r : Regs) {n k : Nat} (x : Lane) (h : k ≠ n) : (r.putQ n x).qreg k = r.qreg k := by
  simp [Regs.qreg, Regs.putQ, Ne.symm h]

/-! ### Lane masks and the flags of the active lanes (R187, R259, R276) -/

theorem laneOn_eq_getLsbD (mask : Lane) (k : Nat) : laneOn mask k = mask.getLsbD k := bitAt_eq_testBit _ _

theorem mem_activeLanes (mask : Lane) (k : Nat) : k ∈ activeLanes mask ↔ k < 32 ∧ laneOn mask k = true := by
  simp [activeLanes, setBits, laneOn]

theorem laneOn_allLanes {k : Nat} (h : k < 32) : laneOn 0xFFFFFFFF k = true := by
  rw [laneOn_eq_getLsbD, show (0xFFFFFFFF : Lane) = BitVec.allOnes 32 from rfl, BitVec.getLsbD_allOnes, decide_eq_true h]

/-- A bit of a join of flags is a bit of one of them. -/
theorem getLsbD_foldl_or {α : Type} (g : α → BitVec 5) (l : List α) (z : BitVec 5) (i : Nat) :
    (l.foldl (fun a x => a ||| g x) z).getLsbD i = (z.getLsbD i || l.any (fun x => (g x).getLsbD i)) := by
  induction l generalizing z with
  | nil => simp
  | cons x l ih => rw [List.foldl_cons, ih, BitVec.getLsbD_or, List.any_cons, Bool.or_assoc]

theorem laneResults_getD (mask : Lane) (f : Nat → FpResult) {k : Nat} (h : k < 32) :
    (laneResults mask f).getD k (0, 0) = if laneOn mask k then f k else (0, 0) := by
  simp [laneResults, List.getD_eq_getElem?_getD, h]

theorem getLsbD_flagsOf_laneResults (mask : Lane) (f : Nat → FpResult) (i : Nat) :
    (flagsOf (laneResults mask f)).getLsbD i = true ↔ ∃ k < 32, laneOn mask k = true ∧ (f k).2.getLsbD i = true := by
  rw [flagsOf, getLsbD_foldl_or, laneResults]
  simp only [BitVec.ofNat_eq_ofNat, BitVec.getLsbD_zero, Bool.false_or, List.any_map, List.any_eq_true, List.mem_range, Function.comp_apply]
  refine exists_congr fun k => and_congr_right fun _ => ?_
  cases laneOn mask k <;> simp

/-! ### What an instruction on whole lanes writes (R187, R256, R257) -/

theorem elem_lane (s : State) (v : BitVec 4) (k : Nat) : s.elem 32 v k 0 = (s.regs.lane v.toNat k).toNat := by
  have h := (s.regs.lane v.toNat k).isLt
  simp only [State.elem]
  omega

section
variable {s : State} {d : BitVec 4} (hk : s.curCtx < 11)
include hk

/-- A write of whole lanes: the lanes l hold the results f of the active lanes and the old values of the others, and fl joins the flags of f. -/
theorem laneResults_of_setV {mask : Lane} {f : Nat → FpResult} {l : Vector Lane 32} {fl : BitVec 5}
    (hl : ∀ k (h : k < 32), l[k] = if laneOn mask k then .ofNat 32 (f k).1 else s.regs.lane d.toNat k)
    (hfl : ∀ i, fl.getLsbD i = true ↔ ∃ k < 32, laneOn mask k = true ∧ (f k).2.getLsbD i = true) :
    LaneResults s ((s.setRegs (s.regs.setV d.toNat l)).raise fl).advance mask d 32 (fun k _ => f k) := by
  have hregs := regs_setRegs_raise_advance hk (s.regs.setV d.toNat l) fl
  have hlane (k : Nat) (h : k < 32) : ((s.setRegs (s.regs.setV d.toNat l)).raise fl).advance.regs.lane d.toNat k = l[k] := by
    rw [hregs]; exact lane_setV_same s.regs l d.isLt h
  refine ⟨fun k h j hj => ?_, ?_, fun i _ => ?_, fun n hn => ?_, ?_, ?_, ?_, rfl, rfl⟩
  · obtain rfl : j = 0 := by omega
    rw [elem_lane, elem_lane, hlane k h, hl k h]
    split <;> simp
  · rw [hregs]; exact congrArg VReg.st (vreg_setV_same s.regs l d.isLt)
  · have hflags : (s.regs.flags ||| fl).getLsbD i = true ↔ s.regs.flags.getLsbD i = true ∨ fl.getLsbD i = true := by simp
    rw [hregs]
    refine hflags.trans (or_congr_right ((hfl i).trans (exists_congr fun k => and_congr_right fun _ => ?_)))
    exact ⟨fun h => ⟨0, by omega, h⟩, fun ⟨_, _, h⟩ => h⟩
  · rw [hregs]; exact vreg_setV_ne s.regs l hn
  all_goals rw [hregs]; rfl

theorem laneResults_writeLanes (mask : Lane) (f : Nat → FpResult) :
    LaneResults s (s.writeLanes mask d.toNat f).advance mask d 32 (fun k _ => f k) := by
  refine laneResults_of_setV hk (fun k h => ?_) (getLsbD_flagsOf_laneResults mask f)
  simp only [mergeLanes, Vector.getElem_ofFn, laneResults_getD mask f h]
  cases laneOn mask k <;> simp [Regs.lane, h]

end

/-- An instruction that writes the active lanes of v[d] has as results what it computes from the state. -/
theorem issueV_laneEffect {s : State} {p d : BitVec 4} {i : Instr} {op : Nat} {srcs : List Operand} {f : State → Nat → FpResult} {g : Nat → FpResult}
    (hrun : Running s) (hex : exec i s = s.issueV p op srcs d f) (hf : ∀ k, f s k = g k) : LaneEffect s p i srcs d 32 (fun k _ => g k) := by
  intro h
  obtain rfl : f s = g := funext hf
  exact ⟨_, hex.trans (issueLanes_on h), laneResults_writeLanes hrun.1 _ _⟩

/-! ### Bitwise and shift instructions, selection and lane moves (R264, R265, R271 to R273) -/

theorem signExt_eq_signedElem {w x : Nat} (h : x < 2 ^ w) : signExt x w = signedElem w true x := by
  rw [signExt, signedElem, Nat.mod_eq_of_lt h]
  by_cases hx : x < 2 ^ (w - 1)
  · simp only [hx, Nat.not_le_of_lt hx, if_true, Bool.true_and, decide_false, Bool.false_eq_true, if_false]
  · simp only [hx, Nat.le_of_not_lt hx, if_true, Bool.true_and, decide_true, if_false]

section
variable {s : State} {p d a b : BitVec 4} {i : BitVec 5} {j : Instr} {op : Nat} (hrun : Running s)
include hrun

theorem vecBits_laneEffect {f : Nat → Nat → Nat} (hex : exec j s = s.vecBits p op d a b f) :
    LaneEffect s p j [rv a, rv b] d 32 (fun k _ => plain (f (s.laneNat a k) (s.laneNat b k))) :=
  issueV_laneEffect hrun hex (fun _ => rfl)

/-- A shift without an immediate count shifts each lane by the low bits of the lane of v[b]. -/
theorem vecShift_register_laneEffect {f : Nat → Nat → Nat} {g : Nat → FpResult} (hex : exec j s = s.vecShift p op d a b 0 f)
    (hg : ∀ k, plain (f (s.laneNat a k) (s.laneNat b k % 32)) = g k) : LaneEffect s p j [rv a, rv b] d 32 (fun k _ => g k) :=
  issueV_laneEffect hrun hex hg

/-- A shift with an immediate count shifts each lane by it. -/
theorem vecShift_immediate_laneEffect (hi : i ≠ 0) {f : Nat → Nat → Nat} {g : Nat → FpResult} (hex : exec j s = s.vecShift p op d a b i f)
    (hg : ∀ k, plain (f (s.laneNat a k) i.toNat) = g k) : LaneEffect s p j [rv a] d 32 (fun k _ => g k) := by
  simp only [State.vecShift, if_neg hi] at hex
  exact issueV_laneEffect hrun hex hg

end

/-- VSHR.i32 fills with bit 31: it divides the lane as a signed integer, rounding down (R265). -/
theorem exec_vshr_signed (s : State) (p d a b : BitVec 4) (i : BitVec 5) :
    exec (.vshr p d a b 3 i) s = s.vecShift p 0xAD d a b i (fun x n => bitsOfInt 32 (signExt x 32 / 2 ^ n)) := by
  show execVshr p d a b 3 i s = _
  simp only [execVshr, if_true]

/-- VSHR.n32 fills with zeros (R265). -/
theorem exec_vshr_unsigned (s : State) (p d a b : BitVec 4) (i : BitVec 5) :
    exec (.vshr p d a b 4 i) s = s.vecShift p 0xAD d a b i (fun x n => x / 2 ^ n) := by
  show execVshr p d a b 4 i s = _
  simp only [execVshr, show ¬ (4 : BitVec 3) = 3 by decide, if_false]

theorem plain_shiftRight_signed (s : State) (a : BitVec 4) (k n : Nat) :
    plain (bitsOfInt 32 (signExt (s.laneNat a k) 32 / 2 ^ n)) = wrapped 32 (signedElem 32 true (s.regs.lane a.toNat k).toNat / 2 ^ n) := by
  rw [← signExt_eq_signedElem (s.regs.lane a.toNat k).isLt]; rfl

/-- An instruction that writes every lane of v[d] completes with the lanes and flags that it computes (R268, R272). -/
theorem issueWhole_on {s : State} {p d : BitVec 4} {op : Nat} {srcs : List Operand} {f : Lane → State → Vector Lane 32 × BitVec 5} (h : Lanes s p srcs [rv d]) :
    s.issueWhole p op srcs d f =
      .next ((s.setRegs (s.regs.setV d.toNat (f (s.regs.laneMask p) s).1)).raise (f (s.regs.laneMask p) s).2).advance := issueLanes_on h

/-- VCOMPACT writes every lane: the active lanes of v[a], in ascending order, and zeros behind them (R272). -/
theorem exec_vcompact {s : State} {p d a : BitVec 4} (hrun : Running s) (h : Lanes s p [rv a] [rv d]) :
    ∃ t, exec (.vcompact p d a) s = .next t ∧ LaneResults s t 0xFFFFFFFF d 32 (fun k _ =>
      plain (if k < (activeLanes (s.regs.laneMask p)).length then (s.regs.lane a.toNat ((activeLanes (s.regs.laneMask p)).getD k 0)).toNat else 0)) := by
  refine ⟨_, (issueWhole_on h : execVcompact p d a s = _), laneResults_of_setV hrun.1 (fun k hk => ?_) (fun i => by simp [plain])⟩
  rw [Vector.getElem_ofFn, laneOn_allLanes hk]
  by_cases hl : k < (activeLanes (s.regs.laneMask p)).length
  · simp [plain, List.getD_eq_getElem?_getD, hl]
  · simp [plain, List.getD_eq_getElem?_getD, hl]

/-! ### Compares and lane masks (R263, R276) -/

/-- From s to t only q[d] and FPFLAGS changed among registers and memory: the active bits of q[d] are those of f, the others are kept (R187). -/
def MaskResults (s t : State) (mask : Lane) (d : BitVec 3) (f : Nat → Bool) : Prop :=
  (∀ k < 32, (t.regs.qreg d.toNat).getLsbD k = if laneOn mask k then f k else (s.regs.qreg d.toNat).getLsbD k) ∧
  (∀ n, n ≠ d.toNat → t.regs.qreg n = s.regs.qreg n) ∧ t.regs.g = s.regs.g ∧ t.regs.v = s.regs.v ∧ t.regs.p = s.regs.p ∧ t.mem = s.mem

/-- A q register has the new value in its active bits and its old value in the others. -/
theorem getLsbD_mergeBits (mask old new : Lane) {k : Nat} (h : k < 32) :
    (mergeBits mask old new).getLsbD k = if laneOn mask k then new.getLsbD k else old.getLsbD k := by
  rw [laneOn_eq_getLsbD]
  cases hm : mask.getLsbD k <;> simp [mergeBits, -BitVec.getLsbD_eq_getElem, hm, h]

theorem maskResults_of_putQ {s t : State} {mask new : Lane} {d : BitVec 3} {fl : BitVec 5} {f : Nat → Bool}
    (ht : t.regs = { s.regs.putQ d.toNat (mergeBits mask (s.regs.qreg d.toNat) new) with flags := fl }) (hmem : t.mem = s.mem)
    (hnew : ∀ k < 32, laneOn mask k = true → new.getLsbD k = f k) : MaskResults s t mask d f := by
  have hq (n : Nat) : t.regs.qreg n = (s.regs.putQ d.toNat (mergeBits mask (s.regs.qreg d.toNat) new)).qreg n := by rw [ht]; rfl
  refine ⟨fun k hk => ?_, fun n hn => ?_, ?_, ?_, ?_, hmem⟩
  · rw [hq, qreg_putQ_same _ _ d.isLt, getLsbD_mergeBits _ _ _ hk]
    split
    · next hon => exact hnew k hk hon
    · rfl
  · rw [hq, qreg_putQ_ne _ _ hn]
  all_goals rw [ht]; rfl

/-- A lane-mask instruction writes the active bits of q[d] (R276). -/
theorem maskOp_maskResults {s : State} {p : BitVec 4} {d : BitVec 3} {op : Nat} {f : Regs → Lane} {g : Nat → Bool} (hrun : Running s) (h : Lanes s p [] [])
    (hg : ∀ k < 32, (f s.regs).getLsbD k = g k) : ∃ t, s.maskOp p op d f = .next t ∧ MaskResults s t (s.regs.laneMask p) d g :=
  ⟨_, issueLanes_on h, maskResults_of_putQ (regs_setRegs_advance hrun.1 _) rfl (fun k hk _ => hg k hk)⟩

/-- VMOVL.q writes the active bits of q[d] from the low bits of g (R273). -/
theorem exec_vmovlQ {s : State} {p : BitVec 4} {d : BitVec 3} {g : BitVec 5} (hrun : Running s) (h : Lanes s p [rg g] []) :
    ∃ t, exec (.vmovlQ p d g) s = .next t ∧ MaskResults s t (s.regs.laneMask p) d (fun k => (s.val g).getLsbD k) := by
  refine ⟨_, (issueLanes_on h : execVmovlQ p d g s = _), maskResults_of_putQ (regs_setRegs_advance hrun.1 _) rfl (fun k hk _ => ?_)⟩
  rw [BitVec.getLsbD_ofNat, decide_eq_true hk, Bool.true_and, fieldOf, bits, Nat.testBit_mod_two_pow,
    decide_eq_true (show k < 31 - 0 + 1 from hk), Nat.pow_zero, Nat.div_one]
  rfl

theorem testBit_maskOf (l : List Nat) (k : Nat) : (maskOf l).testBit k = true ↔ k ∈ l := by
  have hfold (x : Nat) : (l.foldl (fun a k => a ||| 2 ^ k) x).testBit k = true ↔ x.testBit k = true ∨ k ∈ l := by
    induction l generalizing x with
    | nil => simp
    | cons n l ih => rw [List.foldl_cons, ih, Nat.testBit_or, Nat.testBit_two_pow, Bool.or_eq_true, decide_eq_true_eq, List.mem_cons, or_assoc, eq_comm (a := n)]
  exact (hfold 0).trans (by simp)

/-- The bits and the flags of a list of comparisons: the conjunction of the ones, the join of the others. -/
theorem foldl_and_or (g : Nat → Bool × BitVec 5) (l : List Nat) (z : Bool × BitVec 5) :
    l.foldl (fun a j => (a.1 && (g j).1, a.2 ||| (g j).2)) z = (z.1 && l.all (fun j => (g j).1), l.foldl (fun fl j => fl ||| (g j).2) z.2) := by
  induction l generalizing z with
  | nil => simp
  | cons j l ih => rw [List.foldl_cons, ih, List.all_cons, Bool.and_assoc, List.foldl_cons]

/-- The comparison of two elements, with its flags (R263). -/
def elementCompare (t : BitVec 3) (cc x y : Nat) : Bool × BitVec 5 :=
  if t.toNat < 3 then (formatOf t).compare cc x y else (intCompare cc (elementInt t x) (elementInt t y), 0)

/-- A comparison of lanes holds when it holds for every element, and raises what the elements raise (R259, R263). -/
theorem laneCompare_eq (t : BitVec 3) (cc x y : Nat) :
    let c (j : Nat) := elementCompare t cc (element (elementWidth t) x j) (element (elementWidth t) y j)
    laneCompare t cc x y =
      ((List.range (32 / elementWidth t)).all (fun j => (c j).1), (List.range (32 / elementWidth t)).foldl (fun fl j => fl ||| (c j).2) 0) :=
  foldl_and_or _ _ _

/-- The positions that are left of a list of positions with their comparisons are those whose comparison holds. -/
theorem mem_positions_filter (c : Nat → Bool × BitVec 5) (l : List Nat) (k : Nat) :
    k ∈ ((l.map (fun k => (k, c k))).filter (fun e => e.2.1)).map (·.1) ↔ k ∈ l ∧ (c k).1 = true := by
  simp only [List.mem_map, List.mem_filter]
  constructor
  · rintro ⟨_, ⟨⟨j, hj, rfl⟩, hone⟩, rfl⟩
    exact ⟨hj, hone⟩
  · exact fun ⟨hk, hone⟩ => ⟨_, ⟨⟨k, hk, rfl⟩, hone⟩, rfl⟩

/-- VCMP writes the active bits of q[d], each true when its condition holds for every element of the lane, and joins the flags of the active elements (R259, R263). -/
theorem exec_vcmp {s : State} {p a b : BitVec 4} {d t : BitVec 3} {cc : BitVec 5} (hrun : Running s) (h : Lanes s p [rv a, rv b] []) :
    let n := 32 / elementWidth t
    let c (k j : Nat) := elementCompare t cc.toNat (s.elem (elementWidth t) a k j) (s.elem (elementWidth t) b k j)
    ∃ u, exec (.vcmp p d a b t cc) s = .next u ∧ MaskResults s u (s.regs.laneMask p) d (fun k => (List.range n).all (fun j => (c k j).1)) ∧
      ∀ i, (u.regs.flags.getLsbD i = true ↔ s.regs.flags.getLsbD i = true ∨
        ∃ k < 32, ∃ j < n, laneOn (s.regs.laneMask p) k = true ∧ (c k j).2.getLsbD i = true) := by
  intro n c
  have hc (k : Nat) : laneCompare t cc.toNat (s.laneNat a k) (s.laneNat b k) =
    ((List.range n).all (fun j => (c k j).1), (List.range n).foldl (fun fl j => fl ||| (c k j).2) 0) := laneCompare_eq _ _ _ _
  have hregs := regs_setRegs_raise_advance hrun.1
  refine ⟨_, (issueLanes_on h : execVcmp p d a b t cc s = _), maskResults_of_putQ (hregs _ _) rfl (fun k hk hon => ?_), fun i => ?_⟩
  · rw [Bool.eq_iff_iff, BitVec.getLsbD_ofNat, decide_eq_true hk, Bool.true_and, testBit_maskOf,
      mem_positions_filter (fun k => laneCompare t cc.toNat (s.laneNat a k) (s.laneNat b k)), mem_activeLanes, and_iff_right ⟨hk, hon⟩, hc]
  · rw [settle_ok, hregs, List.foldl_map]
    simp only [hc, Regs.putQ, BitVec.getLsbD_or, getLsbD_foldl_or, BitVec.ofNat_eq_ofNat, BitVec.getLsbD_zero, Bool.false_or, Bool.or_eq_true, List.any_eq_true,
      List.mem_range, mem_activeLanes, and_assoc]
    exact or_congr_right (exists_congr fun k => and_congr_right fun _ =>
      ⟨fun ⟨hon, j, hj, hbit⟩ => ⟨j, hj, hon, hbit⟩, fun ⟨j, hj, hon, hbit⟩ => ⟨hon, j, hj, hbit⟩⟩)

/-- VCMP on a floating-point type (R263). -/
theorem exec_vcmp_float {s : State} {p a b : BitVec 4} {d t : BitVec 3} {cc : BitVec 5} {F : FpFormat} {w : Nat} (hrun : Running s)
    (h : Lanes s p [rv a, rv b] []) (ht : t.toNat < 3) (hF : formatOf t = F) (hw : elementWidth t = w) :
    let c (k j : Nat) := F.compare cc.toNat (s.elem w a k j) (s.elem w b k j)
    ∃ u, exec (.vcmp p d a b t cc) s = .next u ∧ MaskResults s u (s.regs.laneMask p) d (fun k => (List.range (32 / w)).all (fun j => (c k j).1)) ∧
      ∀ i, (u.regs.flags.getLsbD i = true ↔ s.regs.flags.getLsbD i = true ∨
        ∃ k < 32, ∃ j < 32 / w, laneOn (s.regs.laneMask p) k = true ∧ (c k j).2.getLsbD i = true) := by
  subst hF hw
  have hvcmp := exec_vcmp (d := d) (t := t) (cc := cc) hrun h
  simpa only [elementCompare, if_pos ht] using hvcmp

/-- An element of an integer type is signed but for .n32 (R256). -/
theorem elementInt_eq_signedElem (t : BitVec 3) {x : Nat} (h : x < 2 ^ elementWidth t) : elementInt t x = signedElem (elementWidth t) (t != 4) x := by
  by_cases ht : t = 4
  · simp [elementInt, signedElem, ht]
  · rw [elementInt, if_neg ht, signExt_eq_signedElem h, bne_iff_ne.mpr ht]

/-- VCMP on an integer type raises no flag (R263). -/
theorem exec_vcmp_int {s : State} {p a b : BitVec 4} {d t : BitVec 3} {cc : BitVec 5} {w : Nat} {signed : Bool} {rel : Int → Int → Bool} (hrun : Running s)
    (h : Lanes s p [rv a, rv b] []) (ht : ¬ t.toNat < 3) (hw : elementWidth t = w) (hsigned : (t != 4) = signed) (hrel : intCompare cc.toNat = rel) :
    ∃ u, exec (.vcmp p d a b t cc) s = .next u ∧ u.regs.flags = s.regs.flags ∧ MaskResults s u (s.regs.laneMask p) d (fun k =>
      (List.range (32 / w)).all (fun j => rel (signedElem w signed (s.elem w a k j)) (signedElem w signed (s.elem w b k j)))) := by
  subst hw hsigned hrel
  have hint (v : BitVec 4) (k j : Nat) : elementInt t (s.elem (elementWidth t) v k j) = signedElem (elementWidth t) (t != 4) (s.elem (elementWidth t) v k j) :=
    elementInt_eq_signedElem t (Nat.mod_lt _ (Nat.two_pow_pos _))
  obtain ⟨u, hu, hbits, hflags⟩ := exec_vcmp (d := d) (t := t) (cc := cc) hrun h
  simp only [elementCompare, if_neg ht, hint] at hbits hflags
  refine ⟨u, hu, BitVec.eq_of_getLsbD_eq fun i _ => Bool.eq_iff_iff.mpr ((hflags i).trans ?_), hbits⟩
  simp

/-- The conditions .eq to .ge of R263 on integers, by their numbers. -/
theorem intCompare_eq_of_mem {cc : Nat} {rel : Int → Int → Bool}
    (h : [fun x y => x == y, fun x y => x != y, fun x y => decide (x < y), fun x y => decide (x ≤ y), fun x y => decide (y < x),
      fun x y => decide (y ≤ x)][cc]? = some rel) : intCompare cc = rel := by
  match cc with
  | 0 | 1 =>
    obtain rfl := Option.some.inj h
    funext x y
    rw [Bool.eq_iff_iff]
    simp [intCompare]
  | 2 | 3 | 4 | 5 => exact Option.some.inj h
  | n + 6 => simp at h

/-! ### A lane mask or a lane in a g register (R273, R276) -/

theorem popCount_lane (x : Lane) : popCount x.toNat 32 = ((List.range 32).filter x.getLsbD).length := by
  have hbit : bitAt x.toNat = x.getLsbD := funext (laneOn_eq_getLsbD x)
  rw [popCount, setBits, hbit]

theorem lowestBit_eq {x n k : Nat} (hk : k < n) (hone : x.testBit k = true) (hzero : ∀ j < k, x.testBit j = false) : lowestBit x n = k := by
  obtain ⟨-, hbelow, hat⟩ := lowestBit_spec x n
  rcases Nat.lt_trichotomy (lowestBit x n) k with hlt | heq | hgt
  · rw [hzero _ hlt] at hat
    exact absurd (hat (Nat.lt_trans hlt hk)) Bool.false_ne_true
  · exact heq
  · rw [hbelow k hgt] at hone
    exact absurd hone Bool.false_ne_true

theorem wordOfInt_signExt_lane (x : Lane) : wordOfInt (signExt x.toNat 32) = x.signExtend 64 := by
  have hint : signExt x.toNat 32 = x.toInt := by
    have h := x.isLt
    rw [signExt, BitVec.toInt_eq_toNat_cond]
    split <;> split <;> omega
  rw [hint]; rfl

section
variable {s : State} {p a : BitVec 4} {q : BitVec 3} {g : BitVec 5}

theorem exec_vmovgQ (h : Lanes s p [] [rg g]) :
    exec (.vmovgQ p q g) s = .next (s.wroteG g ((s.regs.qreg q.toNat &&& s.regs.laneMask p).setWidth 64)) := by
  rw [← wordOf_toNat]
  exact (issueLanes_on h : execVmovgQ p q g s = _)

theorem exec_qpopc (h : Lanes s p [] [rg g]) :
    exec (.qpopc p q g) s = .next (s.wroteG g (.ofNat 64 ((List.range 32).filter (s.regs.qreg q.toNat &&& s.regs.laneMask p).getLsbD).length)) := by
  rw [← popCount_lane]
  exact (issueLanes_on h : execQpopc p q g s = _)

/-- VMOVG reads the lowest active lane (R273). -/
theorem exec_vmovg (h : Lanes s p [rv a] [rg g]) {k : Nat} (hk : k < 32) (hone : laneOn (s.regs.laneMask p) k = true)
    (hzero : ∀ j < k, laneOn (s.regs.laneMask p) j = false) (t : BitVec 3) :
    exec (.vmovg p a t g) s = .next (s.wroteG g (if t = 3 then (s.regs.lane a.toNat k).signExtend 64 else (s.regs.lane a.toNat k).setWidth 64)) := by
  have hlow : lowestBit (s.regs.laneMask p).toNat 32 = k := lowestBit_eq hk (bitAt_eq_testBit _ _ ▸ hone) (fun j hj => bitAt_eq_testBit _ _ ▸ hzero j hj)
  rw [← wordOfInt_signExt_lane, ← wordOf_toNat, ← hlow]
  exact (issueLanes_on h : execVmovg p a t g s = _)

end

/-! ### Plane loads and packed stores (R184, R274, R275) -/

section
variable {s : State} {p d a b : BitVec 4}

/-- VLDM reads the lanes of plane b of an input (R185, R274). -/
theorem exec_vldm_clean (hrun : Running s) (h : Lanes s p (kept s p d) [rv d]) {m : Packet} (hm : s.input a.toNat = some m)
    (hp : (activeLanes (s.regs.laneMask p)).any (fun k => payloadPoison m (16 * b.toNat + k / 2)) = false) :
    ∃ t, exec (.vldm p d a b) s = .next t ∧ LaneResults s t (s.regs.laneMask p) d 32 (fun k _ =>
      plain ((payloadWord m (16 * b.toNat + k / 2)).extractLsb' (32 * (k % 2)) 32).toNat) := by
  have hhalf (k : Nat) : (let w := payloadWord m (16 * b.toNat + k / 2); if k % 2 = 0 then fieldOf w 31 0 else fieldOf w 63 32) =
      ((payloadWord m (16 * b.toNat + k / 2)).extractLsb' (32 * (k % 2)) 32).toNat := by
    rw [BitVec.extractLsb'_toNat, Nat.shiftRight_eq_div_pow]
    rcases Nat.mod_two_eq_zero_or_one k with hk | hk <;> simp [hk, fieldOf, bits]
  have hex : exec (.vldm p d a b) s = _ := (issueLanes_on h : execVldm p d a b s = _)
  simp only [hm, hp, hhalf] at hex
  exact ⟨_, hex, laneResults_writeLanes hrun.1 _ _⟩

/-- A poisoned beat of an active lane poisons v[d], which keeps its value (R184). -/
theorem exec_vldm_poisoned (h : Lanes s p (kept s p d) [rv d]) {m : Packet} (hm : s.input a.toNat = some m)
    (hp : (activeLanes (s.regs.laneMask p)).any (fun k => payloadPoison m (16 * b.toNat + k / 2)) = true) :
    exec (.vldm p d a b) s = .next (s.setRegs (s.regs.markV d.toNat .poisoned)).advance := by
  have hex : exec (.vldm p d a b) s = _ := (issueLanes_on h : execVldm p d a b s = _)
  simp only [hm, hp, if_true] at hex
  exact hex

/-- VLDM of an input that may not be read gives zeros (R185). -/
theorem exec_vldm_unreadable (hrun : Running s) (h : Lanes s p (kept s p d) [rv d]) (hm : s.input a.toNat = none) :
    ∃ t, exec (.vldm p d a b) s = .next t ∧ LaneResults s t (s.regs.laneMask p) d 32 (fun _ _ => plain 0) := by
  have hex : exec (.vldm p d a b) s = _ := (issueLanes_on h : execVldm p d a b s = _)
  simp only [hm] at hex
  exact ⟨_, hex, laneResults_writeLanes hrun.1 _ _⟩

theorem bytesOfNat_eq_map (n x : Nat) : bytesOfNat n x = (List.range n).map (fun j => .ofNat 8 (x / 256 ^ j)) := by
  induction n generalizing x with
  | zero => rfl
  | succ n ih => simp [bytesOfNat, ih, List.range_succ_eq_map, Nat.pow_succ', Nat.div_div_eq_div_mul]

/-- An access that meets the rules of R223 passes their check. -/
theorem checkLocal_of_good {e : Engine} {la size align : Nat} {write : Bool} (op : Nat) (h : goodLocal s e la size write align) :
    s.checkLocal op e la size write align = .ok () := by
  obtain ⟨hla, hsize, hrights, halign, hregion⟩ := h
  have hrange : ¬ (2 ^ 22 ≤ la ∨ storeSize (laSel la) < laOff la + size) := by omega
  simp only [State.checkLocal, if_neg hrange, hrights, halign]
  by_cases hg : laSel la = 0 ∧ s.isSystem = false
  · obtain ⟨hfirst, hlast⟩ := hregion hg.1 hg.2
    simp [hg, hfirst, hlast]
  · simp [hg]

/-- VSTM buffers the active lanes, packed in ascending order, as one store of five entries (R275). -/
theorem exec_vstm {g : BitVec 5} (h : Lanes s p [rv a, rg g] []) (hroom : Room s 5)
    (hgood : goodLocal s .vector (s.val g).toNat (4 * (activeLanes (s.regs.laneMask p)).length) true 4) :
    exec (.vstm p a g) s = .next (((s.onBlock (fun t => { t with effects := t.effects ++ [.store [((s.val g).toNat,
      (activeLanes (s.regs.laneMask p)).flatMap (fun k => (List.range 4).map (fun j => .ofNat 8 ((s.regs.lane a.toNat k).toNat / 256 ^ j))))] 5] })).noteAccess
        0xB3 true false (s.val g).toNat (4 * (activeLanes (s.regs.laneMask p)).length)).advance) := by
  simp only [← bytesOfNat_eq_map]
  have hex : exec (.vstm p a g) s = _ := (issueLanes_on h : execVstm p a g s = _)
  simp only [checkLocal_of_good 0xB3 hgood, buffer_room (show Room s (Effect.store _ 5).entries from hroom)] at hex
  exact hex

end

end Sys2Proof.Machine

open Sys2Proof Sys2Proof.Machine in
/-- Settles O18: an instruction on whole lanes writes what its function gives for each active lane; a compare or a
lane-mask instruction merges its bits into q[d]; VLDM and VSTM move the halves of payload words and the packed lanes. -/
theorem laneValues : Obligations.LaneValues := by
  unfold Obligations.LaneValues
  refine ⟨?_, ?_, ?_⟩
  · intro s p d a b n i hrun x y on
    refine ⟨?vand, ?vor, ?vxor, ?vsel, ?vshl, ?vshrSigned, ?vshrUnsigned, ?vshrImmediate, ?vperm, ?vbcast, ?vidx, ?vexpand, ?vmovl, ?vcompact⟩
    case vand => exact vecBits_laneEffect hrun rfl
    case vor => exact vecBits_laneEffect hrun rfl
    case vxor => exact vecBits_laneEffect hrun rfl
    case vsel =>
      exact issueV_laneEffect (op := 0x9A) (f := fun s k => (if laneOn (s.regs.qreg n.toNat) k then s.laneNat a k else s.laneNat b k, 0)) hrun rfl
        (fun k => by rw [laneOn_eq_getLsbD]; rfl)
    case vshl =>
      exact fun t _ => ⟨vecShift_register_laneEffect (op := 0xAC) (f := fun x n => x * 2 ^ n) hrun rfl (fun _ => rfl),
        fun hi => vecShift_immediate_laneEffect (op := 0xAC) (f := fun x n => x * 2 ^ n) hrun hi rfl (fun _ => rfl)⟩
    case vshrSigned => exact vecShift_register_laneEffect hrun (exec_vshr_signed s p d a b 0) (fun k => plain_shiftRight_signed s a k _)
    case vshrUnsigned => exact vecShift_register_laneEffect hrun (exec_vshr_unsigned s p d a b 0) (fun _ => rfl)
    case vshrImmediate =>
      exact fun hi => ⟨vecShift_immediate_laneEffect hrun hi (exec_vshr_signed s p d a b i) (fun k => plain_shiftRight_signed s a k _),
        vecShift_immediate_laneEffect hrun hi (exec_vshr_unsigned s p d a b i) (fun _ => rfl)⟩
    case vperm => exact issueV_laneEffect (op := 0xA4) (f := fun s k => (s.laneNat a (s.laneNat b k % 32), 0)) hrun rfl (fun _ => rfl)
    case vbcast => exact issueV_laneEffect (op := 0xA5) (f := fun s _ => (s.laneNat a i.toNat, 0)) hrun rfl (fun _ => rfl)
    case vidx => exact issueV_laneEffect (op := 0xA6) (f := fun _ k => (i.toNat + k * b.toNat, 0)) hrun rfl (fun _ => rfl)
    case vexpand =>
      exact issueV_laneEffect (op := 0xA8) (f := fun t k => (t.laneNat a ((activeLanes (s.regs.laneMask p)).idxOf k), 0)) hrun rfl (fun _ => rfl)
    case vmovl =>
      exact fun g => issueV_laneEffect (op := 0xB1) (f := fun s _ => (fieldOf (s.regs.gval g.toNat) 31 0, 0)) hrun rfl
        (fun _ => by simp [fieldOf, bits, plain])
    case vcompact => exact exec_vcompact hrun
  · intro s p a b d qa qb g hrun mask bits
    refine ⟨fun h => ⟨fun r hr cc _ => ?_, fun r hr cc rel hrel => ?_⟩, fun h => ⟨?_, ?_, ?_⟩, exec_vmovlQ hrun, fun h => ⟨exec_vmovgQ h, exec_qpopc h⟩,
      fun h k hk hone hzero => ⟨exec_vmovg h hk hone hzero 3, exec_vmovg h hk hone hzero 4⟩⟩
    · obtain ⟨hfloat, hF, hw⟩ : r.1.toNat < 3 ∧ formatOf r.1 = r.2.1 ∧ elementWidth r.1 = r.2.2 := by revert r; decide
      obtain ⟨u, hu, hbits, hflags⟩ := exec_vcmp_float hrun h hfloat hF hw
      exact ⟨u, hu, hbits, fun i _ => hflags i⟩
    · obtain ⟨hint, hw, hsigned⟩ : ¬ r.1.toNat < 3 ∧ elementWidth r.1 = r.2.1 ∧ (r.1 != 4) = r.2.2 := by revert r; decide
      exact exec_vcmp_int hrun h hint hw hsigned (intCompare_eq_of_mem hrel)
    · exact maskOp_maskResults (op := 0xB4) (f := fun r => r.qreg qa.toNat &&& r.qreg qb.toNat) hrun h (fun k _ => BitVec.getLsbD_and)
    · exact maskOp_maskResults (op := 0xB5) (f := fun r => r.qreg qa.toNat ||| r.qreg qb.toNat) hrun h (fun k _ => BitVec.getLsbD_or)
    · exact maskOp_maskResults (op := 0xB6) (f := fun r => ~~~(r.qreg qa.toNat)) hrun h (fun k hk => by rw [BitVec.getLsbD_not, decide_eq_true hk, Bool.true_and])
  · intro s p d a b hrun mask on word
    refine ⟨fun m h hm => ?_, fun h hm => exec_vldm_unreadable hrun h hm, fun g h hroom hgood => exec_vstm h hroom hgood⟩
    cases hp : on.any (fun k => payloadPoison m (word k)) with
    | false =>
      obtain ⟨t, ht, hlanes, hfull, -⟩ := exec_vldm_clean hrun h hm hp
      refine ⟨t, ht, fun _ => ⟨hfull, fun k hk => BitVec.eq_of_toNat_eq ?_⟩, fun hbad => absurd hbad Bool.false_ne_true⟩
      have hlane := hlanes k hk 0 (by omega)
      rw [elem_lane, elem_lane] at hlane
      rw [hlane]
      split
      · exact Nat.mod_eq_of_lt (BitVec.isLt _)
      · rfl
    | true => exact ⟨_, exec_vldm_poisoned h hm hp, fun hclean => absurd hclean.symm Bool.false_ne_true, fun _ => rfl⟩
